-- ==== Sys2Proof/Word.lean ====
section
/-!
DEFINITION. The plainest types of the model: bytes, and the numbers of the module's units (R4 to R6 of spec/00_scope.md).
-/

namespace Sys2Proof

/-- One byte. -/
abbrev Byte := BitVec 8

/-- Module-wide cluster index, 0 to 255 (R5). -/
abbrev ClusterId := Fin 256
/-- Module-wide region index, 0 to 31 (R5). -/
abbrev RegionId := Fin 32
/-- Compute die CD0 to CD3 (R4). -/
abbrev DieId := Fin 4
/-- HBM stack HS0 to HS11 (R4). -/
abbrev StackId := Fin 12
/-- Ozpel port OP0 to OP5 (R4). -/
abbrev PortId := Fin 6
/-- Control core CC0 to CC7 (R4). -/
abbrev CoreId := Fin 8
/-- DMA channel 0 to 15 of a die (R320). -/
abbrev ChanId := Fin 16
/-- Clock domain 0 to 39 (R6). -/
abbrev DomainId := Fin 40
/-- Tenant number; 0xFE is management and 0xFF is none (Table 18.4). -/
abbrev TenantId := Fin 256
/-- A 64-bit value of a control core. -/
abbrev Word64 := BitVec 64

end Sys2Proof
end

