-- ==== Sys2Proof/Syntax.lean ====
section
/-!
DEFINITION. The commands of the block: one constructor per row of spec/opcode_table.json, with the row's operands.
-/

namespace Sys2Proof

/-- A piece that a peer sends in a PERMUTE (R409): its PIECE, the peer's rank, its FMT, and its rows of elements with their scales. -/
structure SentPiece where
  piece : BitVec 32
  peer  : BitVec 12
  fmt   : BitVec 4
  rows  : List (List (BitVec 40 × Byte))
  deriving DecidableEq, Repr

/-- A transfer on its way through the fabric (R353, R354): the die of its requester, none for one of the IOD; the requester's number
of Table 13.5, 96 for HBM refresh and calibration; the address it goes to; the priority of a requester that Table 13.4 gives no
fixed or written one; and the further transfers of its burst. -/
structure Transfer where
  die   : Option DieId
  req   : Fin 97
  addr  : BitVec 48
  prio  : Fin 4
  burst : Fin 32
  deriving DecidableEq, Repr

/-- What PARTNER_COPY brings (R499): the committed sections leave, the partner confirms them, or bytes of another module's image arrive, by
area offset (Table 19.2), the last of them with its record. -/
inductive PartnerEvent where
  | sent
  | confirmed
  | arrived (image : List (BitVec 44 × Byte)) (last : Bool)
  deriving DecidableEq, Repr

/-- A command. Rows that name an operation of a region's bundle carry the region whose sequencer issues it and the operand
fields of its slot (Tables 10.6 to 10.13, 10.21); every other row carries the units, addresses and payloads of its event. -/
inductive Instr where
  /-- LDA (R287): Loads activation operand slot A, or a half or quarter of it, from a LAYOUT = 0 descriptor. -/
  | lda (r : RegionId) (mu : Fin 4) (sa : Fin 2) (tr qen : Bool) (q : Fin 4) (rcd : Fin 256) (ixe ixr ixc : Fin 16)
  /-- LDB (R287): Loads operand slot B from a LAYOUT = 0 descriptor, transposed when TRANS is set. -/
  | ldb (r : RegionId) (mu : Fin 4) (sb : Fin 2) (tr qen : Bool) (q : Fin 4) (rcd : Fin 256) (ixe ixr ixc : Fin 16)
  /-- MMA (R138): Runs a dense 64x64x64 product into an accumulator tile in overwrite or accumulate mode. -/
  | mma (r : RegionId) (mu tile : Fin 4) (sa sb : Fin 2) (acc : Bool)
  /-- SMMA (R191): Runs a sparse product of an operand slot against a Sieve page half into an accumulator tile. -/
  | smma (r : RegionId) (mu tile : Fin 4) (sa half : Fin 2) (acc : Bool) (rcd : Fin 256)
  /-- SGW (R244): Extends the chain of each structural entry by 32 tokens of the sampled weight-gradient product. -/
  | sgw (r : RegionId) (mu : Fin 4) (sa sb : Fin 2) (acc : Bool) (zmh : Fin 2) (rcd : Fin 256)
  /-- RAKE (R140): Copies an accumulator tile bit for bit from MU m to MU m+1 as a Rake hand-off. -/
  | rake (r : RegionId) (mu tile tile2 : Fin 4)
  /-- DRAIN (R153): Converts an accumulator tile row by row to output, zero map and stash copy, optionally applying a derivative record. -/
  | drain (r : RegionId) (mu tile : Fin 4) (rcd : Fin 256) (den : Bool) (drec : Fin 128) (ixe ixr ixc : Fin 16)
  /-- ACC_ZERO (R159): Sets an accumulator tile to +0 with a chain count of 0. -/
  | accZero (r : RegionId) (mu tile : Fin 4)
  /-- SV_LOAD (R198): Decodes one tile record into a tile position of a Sieve page half. -/
  | svLoad (r : RegionId) (mu : Fin 4) (half u : Fin 2) (rcd : Fin 256) (ixe ixr ixc : Fin 16)
  /-- SV_ZMAP (R204): Loads a zero map into the zero-map register of an operand slot. -/
  | svZmap (r : RegionId) (mu : Fin 4) (u reg : Fin 2) (kind : Bool) (rcd : Fin 256) (ixe ixr ixc : Fin 16)
  /-- SV_TRANSPOSE (R288): Transposes a 512-byte bit matrix through the mask path. -/
  | svTranspose (r : RegionId) (rcd rcd2 : Fin 256) (ixe ixr ixc : Fin 16)
  /-- PRUNE_THRESH (R226): A Shears pass that removes every structural entry whose criterion is below THRESH. -/
  | pruneThresh (r : RegionId) (rcd : Fin 256)
  /-- PRUNE_TOPK (R227): A Shears pass that keeps the COUNT highest-ranked entries of each scope instance. -/
  | pruneTopk (r : RegionId) (rcd : Fin 256)
  /-- GROW_GRAD (R231): A Shears pass that grows up to COUNT positions of largest dense-gradient magnitude per instance. -/
  | growGrad (r : RegionId) (rcd : Fin 256)
  /-- GROW_RAND (R231): A Shears pass that grows up to COUNT positions per instance, ranked by random draws. -/
  | growRand (r : RegionId) (rcd : Fin 256)
  /-- REMASK_GRAD (R233): A Shears pass that prunes s entries and grows s positions by gradient in each instance. -/
  | remaskGrad (r : RegionId) (rcd : Fin 256)
  /-- REMASK_RAND (R233): A Shears pass that prunes s entries and grows s positions by random draws in each instance. -/
  | remaskRand (r : RegionId) (rcd : Fin 256)
  /-- RECODE (R215): A Shears pass that re-encodes each tile group under TARGET without changing positions by choice. -/
  | recode (r : RegionId) (rcd : Fin 256)
  /-- VLD (R291): Loads vector-register lanes from a descriptor, widening them to FP32 or BF16. -/
  | vld (r : RegionId) (vd : Fin 32) (w : Bool) (rcd : Fin 256) (ixe ixr ixc : Fin 16)
  /-- VST (R291): Stores vector lanes converted to the descriptor's format, writing body positions only. -/
  | vst (r : RegionId) (va : Fin 32) (w : Bool) (rcd : Fin 256) (ixe ixr ixc : Fin 16)
  /-- VLDS (R290): Loads value slots of a sparse tile after checking alignment with the reference array. -/
  | vlds (r : RegionId) (vd : Fin 32) (ref rcd : Fin 256) (ixe ixr ixc : Fin 16)
  /-- VSTS (R290): Buffers value-slot lanes for one tile and, with LAST, commits them as a value store. -/
  | vsts (r : RegionId) (va : Fin 32) (ref : Fin 256) (last : Bool) (rcd : Fin 256) (ixe ixr ixc : Fin 16)
  /-- VADD (R291): Lane-wise floating-point addition. -/
  | vadd (r : RegionId) (vd va vb : Fin 32) (w : Bool)
  /-- VSUB (R291): Lane-wise floating-point subtraction. -/
  | vsub (r : RegionId) (vd va vb : Fin 32) (w : Bool)
  /-- VMUL (R291): Lane-wise floating-point multiplication. -/
  | vmul (r : RegionId) (vd va vb : Fin 32) (w : Bool)
  /-- VFMA (R291): Lane-wise fused multiply-add with one rounding. -/
  | vfma (r : RegionId) (vd va vb vc : Fin 32) (w : Bool)
  /-- VMAX (R291): Lane-wise maximum, with canonical NaN and +0 above -0. -/
  | vmax (r : RegionId) (vd va vb : Fin 32) (w : Bool)
  /-- VMIN (R291): Lane-wise minimum, with canonical NaN and -0 below +0. -/
  | vmin (r : RegionId) (vd va vb : Fin 32) (w : Bool)
  /-- VABS (R291): Lane-wise absolute value. -/
  | vabs (r : RegionId) (vd va : Fin 32)
  /-- VNEG (R291): Lane-wise negation. -/
  | vneg (r : RegionId) (vd va : Fin 32)
  /-- VSEL (R291): Selects VA where the VC lane is nonzero and VB otherwise. -/
  | vsel (r : RegionId) (vd va vb vc : Fin 32)
  /-- VCMPLT (R291): Writes all ones where VA is less than VB and 0 otherwise. -/
  | vcmplt (r : RegionId) (vd va vb : Fin 32)
  /-- VMOVI (R291): Sets every lane to a 32-bit immediate. -/
  | vmovi (r : RegionId) (vd : Fin 32) (imm : BitVec 32)
  /-- VTR (R293): Applies a transcendental function with correctly rounded FP32 results. -/
  | vtr (r : RegionId) (vd va : Fin 32) (fn : Fin 32)
  /-- VRSUM (R292): Sums each 64-lane group in ascending order, starting from VC. -/
  | vrsum (r : RegionId) (vd va vc : Fin 32)
  /-- VRMAX (R292): Takes the maximum of each 64-lane group in ascending order, starting from VC. -/
  | vrmax (r : RegionId) (vd va vc : Fin 32)
  /-- VIADD (R291): Lane-wise 32-bit unsigned integer addition. -/
  | viadd (r : RegionId) (vd va vb : Fin 32)
  /-- VISUB (R291): Lane-wise 32-bit unsigned integer subtraction. -/
  | visub (r : RegionId) (vd va vb : Fin 32)
  /-- VIMUL (R291): Lane-wise 32-bit unsigned integer multiplication, low half. -/
  | vimul (r : RegionId) (vd va vb : Fin 32)
  /-- VIMULHU (R291): Lane-wise 32-bit unsigned multiplication, high half. -/
  | vimulhu (r : RegionId) (vd va vb : Fin 32)
  /-- VICARRY (R291): Lane-wise carry of VA + VB. -/
  | vicarry (r : RegionId) (vd va vb : Fin 32)
  /-- VISHL (R291): Lane-wise left shift by VB mod 32. -/
  | vishl (r : RegionId) (vd va vb : Fin 32)
  /-- VISHR (R291): Lane-wise logical right shift by VB mod 32. -/
  | vishr (r : RegionId) (vd va vb : Fin 32)
  /-- VIAND (R291): Lane-wise bitwise AND. -/
  | viand (r : RegionId) (vd va vb : Fin 32)
  /-- VIOR (R291): Lane-wise bitwise OR. -/
  | vior (r : RegionId) (vd va vb : Fin 32)
  /-- VIXOR (R291): Lane-wise bitwise XOR. -/
  | vixor (r : RegionId) (vd va vb : Fin 32)
  /-- VICLZ (R291): Lane-wise count of leading zeros. -/
  | viclz (r : RegionId) (vd va : Fin 32)
  /-- DMA_GO (R295): Queues one DMA transfer on a channel of the die, holding the island if the queue is full. -/
  | dmaGo (r : RegionId) (rcd : Fin 256) (ixe ixr ixc : Fin 16)
  /-- DMA_TRANSFER_DONE (R298): A DMA transfer's writes complete and its event counter is incremented. -/
  | dmaTransferDone (d : DieId) (ch : ChanId)
  /-- MOVE (R296): Copies through a record in the cluster's own move engine. -/
  | move (r : RegionId) (rcd : Fin 256) (ixe ixr ixc : Fin 16)
  /-- HALT (R282): Stops bundle issue in the region. -/
  | halt (r : RegionId)
  /-- JMP (R299): Jumps by IMM bundles. -/
  | jmp (r : RegionId) (imm : BitVec 27)
  /-- BNZ (R299): Jumps when the index register is nonzero. -/
  | bnz (r : RegionId) (ixa : Fin 16) (imm : BitVec 27)
  /-- BZ (R299): Jumps when the index register is zero. -/
  | bz (r : RegionId) (ixa : Fin 16) (imm : BitVec 27)
  /-- IXSET (R299): Sets an index register to a sign-extended immediate. -/
  | ixset (r : RegionId) (ixd : Fin 16) (imm : BitVec 27)
  /-- IXADD (R299): Adds an immediate to an index register, wrapping modulo 2^32. -/
  | ixadd (r : RegionId) (ixd ixa : Fin 16) (imm : BitVec 27)
  /-- IXLDP (R299): Loads an index register from a parameter word of the parameter store. -/
  | ixldp (r : RegionId) (ixd : Fin 16) (imm : BitVec 27)
  /-- DECBNZ (R299): Decrements an index register and jumps when the result is nonzero. -/
  | decbnz (r : RegionId) (ixd : Fin 16) (imm : BitVec 27)
  /-- EVINC (R306): Releases covered writes, then adds IMM to an event counter. -/
  | evinc (r : RegionId) (ctr : Fin 64) (dst : RegionId) (scope : Fin 8) (imm : BitVec 21)
  /-- EVSET (R299): Sets an event counter of the issuing region. -/
  | evset (r : RegionId) (ctr : Fin 64) (dst : RegionId) (imm : BitVec 21)
  /-- EVWAIT (R306): Holds the island until an own event counter reaches IMM. -/
  | evwait (r : RegionId) (ctr : Fin 64) (dst : RegionId) (imm : BitVec 21)
  /-- FENCE (R305): Holds the island until writes complete at the named scope. -/
  | fence (r : RegionId) (scope : Fin 8)
  /-- HOLD_END (R302): The island resumes once every pending hold or stretch has ended. -/
  | holdEnd (r : RegionId) (periods : Nat)
  /-- SQ_WAIT_TIMEOUT (R302): An EVWAIT or FENCE hold exceeds SQ_WAIT_LIMIT and faults the launch. -/
  | sqWaitTimeout (r : RegionId)
  /-- EVENT_ARRIVAL (R306): An event-counter increment arrives at a region and adds to its counter. -/
  | eventArrival (src : RegionId)
  /-- REMOTE_ACCESS (R130): A remote request reaches a bank and is served in an ic with no local access. -/
  | remoteAccess (n wait : Nat)
  /-- REMOTE_FORCED_SERVICE (R130): A remote request that has waited 64 ic is served as one more access and stretches the island. -/
  | remoteForcedService (n : Nat)
  /-- STASH_ROW_WRITE_DONE (R267): A stash row's HBM write completes or is refused for a LOST stack, and its unit frees. -/
  | stashRowWriteDone (d : DieId) (region : Fin 8)
  /-- LAUNCH_SUBMIT (R279): A core writes MOD_LAUNCH_HI, and the launch unit validates the launch record and accepts or refuses it. -/
  | launchSubmit (core : CoreId) (hi : BitVec 16)
  /-- REGION_START (R280): A sequencer issues bundle 0 once its own copy of the kernel is complete. -/
  | regionStart (r : RegionId)
  /-- REGION_COMPLETE (R282): A region has halted, passed every result ic and completed its writes at CSCOPE. -/
  | regionComplete (r : RegionId)
  /-- LAUNCH_COMMIT (R437): The first of completion, fault or abort at the commit point decides and commits the completion record. -/
  | launchCommit (launchId : BitVec 32) (tenant : TenantId)
  /-- REGION_FAULT (R117): A unit fault stops the region's issue and stops the launch's other regions. -/
  | regionFault (r : RegionId) (cluster : Fin 8) (kind : Fin 21)
  /-- SQ_ABORT (R307): A write of SQ_ABORT.GO stops a launch at its next bundle boundary and drains it. -/
  | sqAbort (r : RegionId)
  /-- COMPLETION_RING_ENTRY (R436): A decided record waiting in the pending queue enters the completion ring once room frees. -/
  | completionRingEntry
  /-- ADD (R308): Control-core register addition. -/
  | add (core : CoreId) (d s1 s2 : Fin 32)
  /-- SUB (R308): Control-core register subtraction. -/
  | sub (core : CoreId) (d s1 s2 : Fin 32)
  /-- AND (R308): Control-core bitwise AND. -/
  | andOp (core : CoreId) (d s1 s2 : Fin 32)
  /-- OR (R308): Control-core bitwise OR. -/
  | orOp (core : CoreId) (d s1 s2 : Fin 32)
  /-- XOR (R308): Control-core bitwise XOR. -/
  | xorOp (core : CoreId) (d s1 s2 : Fin 32)
  /-- SLL (R308): Control-core logical left shift. -/
  | sll (core : CoreId) (d s1 s2 : Fin 32)
  /-- SRL (R308): Control-core logical right shift. -/
  | srl (core : CoreId) (d s1 s2 : Fin 32)
  /-- SRA (R308): Control-core arithmetic right shift. -/
  | sra (core : CoreId) (d s1 s2 : Fin 32)
  /-- SLT (R308): Control-core signed set-less-than. -/
  | slt (core : CoreId) (d s1 s2 : Fin 32)
  /-- SLTU (R308): Control-core unsigned set-less-than. -/
  | sltu (core : CoreId) (d s1 s2 : Fin 32)
  /-- MUL (R308): Control-core multiplication, low half. -/
  | mul (core : CoreId) (d s1 s2 : Fin 32)
  /-- MULHU (R308): Control-core unsigned multiplication, high half. -/
  | mulhu (core : CoreId) (d s1 s2 : Fin 32)
  /-- DIVU (R308): Control-core unsigned division, giving all ones for division by 0. -/
  | divu (core : CoreId) (d s1 s2 : Fin 32)
  /-- REMU (R308): Control-core unsigned remainder, giving S1 for division by 0. -/
  | remu (core : CoreId) (d s1 s2 : Fin 32)
  /-- ADDI (R308): Control-core addition of a sign-extended immediate. -/
  | addi (core : CoreId) (d s1 : Fin 32) (imm : BitVec 16)
  /-- ANDI (R308): Control-core AND with an immediate. -/
  | andi (core : CoreId) (d s1 : Fin 32) (imm : BitVec 16)
  /-- ORI (R308): Control-core OR with an immediate. -/
  | ori (core : CoreId) (d s1 : Fin 32) (imm : BitVec 16)
  /-- XORI (R308): Control-core XOR with an immediate. -/
  | xori (core : CoreId) (d s1 : Fin 32) (imm : BitVec 16)
  /-- SLTI (R308): Control-core signed compare with an immediate. -/
  | slti (core : CoreId) (d s1 : Fin 32) (imm : BitVec 16)
  /-- SHIFTI (R308): Control-core shift by an immediate amount. -/
  | shifti (core : CoreId) (d s1 : Fin 32) (imm : BitVec 16)
  /-- LUI (R308): Loads a sign-extended upper immediate into a control-core register. -/
  | lui (core : CoreId) (d : Fin 32) (imm : BitVec 21)
  /-- LB (R308): Loads a sign-extended byte. -/
  | lb (core : CoreId) (d s1 : Fin 32) (imm : BitVec 16)
  /-- LH (R308): Loads a sign-extended halfword. -/
  | lh (core : CoreId) (d s1 : Fin 32) (imm : BitVec 16)
  /-- LW (R308): Loads a sign-extended word. -/
  | lw (core : CoreId) (d s1 : Fin 32) (imm : BitVec 16)
  /-- LD (R308): Loads a doubleword. -/
  | ld (core : CoreId) (d s1 : Fin 32) (imm : BitVec 16)
  /-- LBU (R308): Loads a zero-extended byte. -/
  | lbu (core : CoreId) (d s1 : Fin 32) (imm : BitVec 16)
  /-- LHU (R308): Loads a zero-extended halfword. -/
  | lhu (core : CoreId) (d s1 : Fin 32) (imm : BitVec 16)
  /-- LWU (R308): Loads a zero-extended word. -/
  | lwu (core : CoreId) (d s1 : Fin 32) (imm : BitVec 16)
  /-- SB (R308): Stores a byte. -/
  | sb (core : CoreId) (s2 s1 : Fin 32) (imm : BitVec 16)
  /-- SH (R308): Stores a halfword. -/
  | sh (core : CoreId) (s2 s1 : Fin 32) (imm : BitVec 16)
  /-- SW (R308): Stores a word. -/
  | sw (core : CoreId) (s2 s1 : Fin 32) (imm : BitVec 16)
  /-- SD (R308): Stores a doubleword. -/
  | sd (core : CoreId) (s2 s1 : Fin 32) (imm : BitVec 16)
  /-- BEQ (R308): Branches when the two registers are equal. -/
  | beq (core : CoreId) (a b : Fin 32) (imm : BitVec 16)
  /-- BNE (R308): Branches when the two registers differ. -/
  | bne (core : CoreId) (a b : Fin 32) (imm : BitVec 16)
  /-- BLT (R308): Branches on signed less-than. -/
  | blt (core : CoreId) (a b : Fin 32) (imm : BitVec 16)
  /-- BGE (R308): Branches on signed greater-or-equal. -/
  | bge (core : CoreId) (a b : Fin 32) (imm : BitVec 16)
  /-- BLTU (R308): Branches on unsigned less-than. -/
  | bltu (core : CoreId) (a b : Fin 32) (imm : BitVec 16)
  /-- BGEU (R308): Branches on unsigned greater-or-equal. -/
  | bgeu (core : CoreId) (a b : Fin 32) (imm : BitVec 16)
  /-- JAL (R308): Jumps PC-relative and links. -/
  | jal (core : CoreId) (d : Fin 32) (imm : BitVec 21)
  /-- JALR (R308): Jumps to a register plus offset and links. -/
  | jalr (core : CoreId) (d s1 : Fin 32) (imm : BitVec 16)
  /-- SYSCALL (R309): Takes exception cause 5. -/
  | syscall (core : CoreId) (unused : BitVec 23)
  /-- PRET (R309): Restores the previous mode and returns to MOD_CC_EPC. -/
  | pret (core : CoreId) (unused : BitVec 23)
  /-- WAIT (R310): Suspends the core until an enabled WAIT condition holds, or enters a requested power state. -/
  | wait (core : CoreId) (unused : BitVec 23) (now : Word64)
  /-- WAIT_WAKE (R310): A suspended core resumes when an enabled WAIT condition begins to hold. -/
  | waitWake (core : CoreId) (now : Word64)
  /-- CC_FENCE (R304): Control-core fence that orders its accesses at a scope. -/
  | ccFence (core : CoreId) (scope : BitVec 3) (d s1 : BitVec 5) (mid : BitVec 2) (top : BitVec 8)
  /-- CSRR (R308): Reads a control-core CSR. -/
  | csrr (core : CoreId) (d : Fin 32) (csr : BitVec 11) (s1 : BitVec 5) (mid : BitVec 2) (now : Word64)
  /-- CSRW (R308): Writes a control-core CSR. -/
  | csrw (core : CoreId) (csr : BitVec 11) (s1 : Fin 32) (d : BitVec 5) (mid : BitVec 2)
  /-- BREAK (R309): Takes exception cause 6. -/
  | brk (core : CoreId) (unused : BitVec 23)
  /-- FADD32 (R335): Atomic binary32 add at the home cache, returning the old value. -/
  | fadd32 (core : CoreId)
  /-- FADD16 (R335): Atomic BF16 add at the home cache, returning the old value. -/
  | fadd16 (core : CoreId)
  /-- IADD32 (R334): Atomic 32-bit integer add. -/
  | iadd32 (core : CoreId)
  /-- IADD64 (R334): Atomic 64-bit integer add. -/
  | iadd64 (core : CoreId)
  /-- UMIN32 (R334): Atomic unsigned minimum. -/
  | umin32 (core : CoreId)
  /-- UMAX32 (R334): Atomic unsigned maximum. -/
  | umax32 (core : CoreId)
  /-- SMIN32 (R334): Atomic signed minimum. -/
  | smin32 (core : CoreId)
  /-- SMAX32 (R334): Atomic signed maximum. -/
  | smax32 (core : CoreId)
  /-- FMIN32 (R334): Atomic floating-point minimum, as VMIN. -/
  | fmin32 (core : CoreId)
  /-- FMAX32 (R334): Atomic floating-point maximum, as VMAX. -/
  | fmax32 (core : CoreId)
  /-- CAS32 (R334): Atomic 32-bit compare and swap. -/
  | cas32 (core : CoreId)
  /-- CAS64 (R334): Atomic 64-bit compare and swap. -/
  | cas64 (core : CoreId)
  /-- HC_FLUSH (R331): Writes back every dirty line of the selected stacks. -/
  | hcFlush (d : DieId) (stackSet : BitVec 3)
  /-- HC_WP_PROTECT (R343): Sets protection bits of a page range at one point of the arrival order. -/
  | hcWpProtect (d : DieId) (stack : Fin 4) (first count : BitVec 15)
  /-- HC_WP_RELEASE (R346): Clears protection bits of a page range without copying. -/
  | hcWpRelease (d : DieId) (stack : Fin 4) (first count : BitVec 15)
  /-- PROTECTED_PAGE_WRITE (R344): A write to a protected page is held and the page queued for a first-touch copy. -/
  | protectedPageWrite (addr : BitVec 48) (bytes : List Byte)
  /-- FIRST_TOUCH_COPY_DONE (R344): The page is copied to a staging slot, its protection clears and held writes are released. -/
  | firstTouchCopyDone (k : StackId) (ns : BitVec 32)
  /-- HBM_ZERO (R347): Zeroises one stack, unless refused for protection, use or stash entries. -/
  | hbmZero (k : StackId)
  /-- HBM_ZERO_DONE (R347): Stack zeroisation finishes and the stack returns to ready. -/
  | hbmZeroDone (k : StackId)
  /-- HBM_REFRESH (R339): Per-bank refresh falls due and runs at P0. -/
  | hbmRefresh (k : StackId)
  /-- CHANNEL_CALIBRATION (R341): A channel recalibration falls due, deferred until a first-touch copy of the stack ends. -/
  | channelCalibration (k : StackId) (retrain : Bool)
  /-- STACK_TRAINING (R327): Trains a stack at each allowed rate in turn, entering LOST if none passes. -/
  | stackTraining (k : StackId) (passes : BitVec 3)
  /-- STACK_LOST (R327): A stack loses training, fails to retrain and enters LOST. -/
  | stackLost (k : StackId)
  /-- SP_ZERO (R131): Starts zeroisation of a region by SP_ZERO_CTL.GO. -/
  | spZero (r : RegionId)
  /-- ZEROISATION_DONE (R131): A region's zeroisation of all rows completes after 8192 ic. -/
  | zeroisationDone (r : RegionId)
  /-- SP_MAPOUT (R121): A map-out request of one logical row, carried out at idle or at the next drained boundary. -/
  | spMapout (k : ClusterId) (row : Fin 8192) (bank : Fin 64)
  /-- MAPOUT_EXECUTE (R121): Copies the row to the lowest free spare and installs the remap entry. -/
  | mapoutExecute (k : ClusterId)
  /-- SP_REMAP_WRITE (R120): A remap table write, accepted only while the region is unassigned or idle. -/
  | spRemapWrite (k : ClusterId) (bank : Fin 64) (e : Fin 256) (lrow : Fin 8192) (valid : Bool)
  /-- HANDLE_WRITE (R128): A handle-entry write, checked for bounds and BUSY. -/
  | handleWrite (r : RegionId) (h : Fin 1024) (valid kind acc persist : Bool) (cluster tenant : BitVec 8) (offset extent : BitVec 27)
  /-- STREAM_TABLE_WRITE (R59): A stream-table write, ignored with STREAM_IN_USE while BUSY. -/
  | streamTableWrite (n : Fin 4096) (key : BitVec 64) (ctr : BitVec 128) (owner : BitVec 8) (en : Bool)
  /-- SV_FAULT_EN_WRITE (R199): A write of SV_FAULT_EN, ignored while a launch runs. -/
  | svFaultEnWrite (k : ClusterId) (idx tile : Bool)
  /-- SH_FAULT_EN_WRITE (R240): A write of SH_FAULT_EN, ignored while a launch runs. -/
  | shFaultEnWrite (k : ClusterId) (tile comp cap : Bool)
  /-- STD_POOL_WRITE (R262): A write of a pool base or limit, ignored while any entry of the pool is not FREE. -/
  | stdPoolWrite (d : DieId) (pool : Fin 3) (lim : Bool) (addr : BitVec 48)
  /-- STD_OPEN (R265): Opens a stash directory entry and allocates its image at the pool top, or marks it NOT_STASHED for lack of room. -/
  | stdOpen (d : DieId) (e : Fin 1024) (stack : Fin 4) (maps : Bool) (lfmt : BitVec 4) (tenant : BitVec 8) (rows cols : BitVec 32)
  /-- STD_CLOSE (R265): Closes an OPEN entry as STASHED or NOT_STASHED by its tile count. -/
  | stdClose (d : DieId) (e : Fin 1024)
  /-- STD_MARK (R265): Forces an entry to NOT_STASHED with reason FORCED. -/
  | stdMark (d : DieId) (e : Fin 1024)
  /-- STD_FREE (R265): Returns a stash entry to FREE. -/
  | stdFree (d : DieId) (e : Fin 1024)
  /-- SP_CNT_CLR (R133): Clears the cluster's SP_ counts. -/
  | spCntClr (k : ClusterId)
  /-- MU_CNT_CLR (R163): Clears the cluster's MU_ counts and flags. -/
  | muCntClr (k : ClusterId)
  /-- SV_CNT_CLR (R213): Clears the cluster's SV_ counts, flags and log. -/
  | svCntClr (k : ClusterId)
  /-- SH_CNT_CLR (R240): Clears the cluster's SH_ counts, flags and log. -/
  | shCntClr (k : ClusterId)
  /-- STD_CNT_CLR (R273): Clears the die's STD_ counts and log. -/
  | stdCntClr (d : DieId)
  /-- SQ_CNT_CLR (R311): Clears the region's SQ_ counts. -/
  | sqCntClr (r : RegionId)
  /-- DMA_CNT_CLR (R586): Clears the die's DMA_ counts. -/
  | dmaCntClr (d : DieId)
  /-- HBM_CNT_CLR (R348): Clears a stack's HBM_ counts and log. -/
  | hbmCntClr (k : StackId)
  /-- HC_CNT_CLR (R348): Clears the die's HC_ counts. -/
  | hcCntClr (d : DieId)
  /-- CLK_CNT_CLR (R370): Clears the CLK_ counts and log. -/
  | clkCntClr
  /-- ARB_CNT_CLR (R370): Clears an ARB_ block's counts and flags. -/
  | arbCntClr (blk : Fin 5)
  /-- OZL_CNT_CLR (R386): Clears a port's OZL_ counts. -/
  | ozlCntClr (p : PortId)
  /-- COL_CNT_CLR (R420): Clears the COL_ counts and log. -/
  | colCntClr
  /-- HTP_CNT_CLR (R439): Clears the HTP_ counts. -/
  | htpCntClr
  /-- SNP_CNT_CLR (R504): Clears the SNP_ counts. -/
  | snpCntClr
  /-- PWR_CNT_CLR (R523): Clears the PWR_ counts and log. -/
  | pwrCntClr
  /-- HLT_CNT_CLR (R578): Clears HLT_REGION and HLT_LOG_LOST. -/
  | hltCntClr
  /-- REGISTER_WRITE (R8): A write to a register field that has no behaviour of its own. -/
  | registerWrite (addr : BitVec 48) (lanes : Fin 4) (value : BitVec 64)
  /-- ISLAND_CLOCK_CHANGE (R350): A new CUR of an island takes effect at its next bundle boundary. -/
  | islandClockChange (isl : RegionId)
  /-- CROSSING_STUCK (R357): A crossing has held data for more than 100 us, counting and logging it. -/
  | crossingStuck (src dst : BitVec 6)
  /-- ARBITRATION_CYCLE (R362): An arbiter grants one transfer after the previous transfer or a first request at an idle resource. -/
  | arbitrationCycle (d : DieId) (res : Fin 228) (cycles : BitVec 32) (arrivals : List Transfer)
  /-- SLOT_TABLE_SWAP (R367): An armed slot-table swap exchanges the active and shadow tables at the next wrap. -/
  | slotTableSwap (q : Fin 7)
  /-- ARB_SLOT_ARM (R367): A write of ARB_SLOT_CTL.ARM requests a slot-table swap. -/
  | arbSlotArm (q : Fin 7)
  /-- PORT_SLOT (R366): A port sends one transfer in each slot, to its owner or lent to others. -/
  | portSlot (q : Fin 7) (flits : List (BitVec 128 × List Byte))
  /-- OZL_ENABLE (R378): EN = 1 with the clock present moves a port from DISABLED to DETECT and full training. -/
  | ozlEnable (p : PortId)
  /-- OZL_RETRAIN (R383): A write of OZL_CTL.RETRAIN starts full training of the port. -/
  | ozlRetrain (p : PortId)
  /-- FULL_TRAINING_DONE (R380): Training ends at a chosen width in ACTIVE, or in DOWN when fewer than 4 lanes remain. -/
  | fullTrainingDone (p : PortId) (rxBad txBad inv : BitVec 16) (perm serial : BitVec 64) (peerPort : BitVec 3)
  /-- OZL_ACCEPT (R372): Lifts the MISWIRE restriction of the port. -/
  | ozlAccept (p : PortId)
  /-- WAKE_TX (R385): Starts sending the wake pattern every 100 us. -/
  | wakeTx (p : PortId)
  /-- WAKE_TX_REPEAT (R385): Sends the wake pattern again every 100 us until the peer detects or 10 ms pass. -/
  | wakeTxRepeat (p : PortId) (peer : Bool)
  /-- LANE_LOSS_OF_LOCK (R382): An active lane loses lock, or eight codewords are uncorrectable, and the port enters RETRAIN. -/
  | laneLossOfLock (p : PortId) (lane : Option (Fin 16))
  /-- SYMBOL_ERROR_WINDOW (R381): At the end of a 1 ms window, a lane over SYM_LIMIT is marked bad and the port retrains. -/
  | symbolErrorWindow (p : PortId) (errs : List (BitVec 32))
  /-- RETRAIN_DONE (R382): A retrain completes at the new width and flits resume with replay. -/
  | retrainDone (p : PortId) (txBad : BitVec 16)
  /-- PORT_DOWN (R384): A port enters DOWN, discarding replay and reporting LINK_DOWN. -/
  | portDown (p : PortId)
  /-- FLIT_RECEIVE (R376): A flit arrives, is delivered in SEQ order, or discarded with a NAK on error. -/
  | flitReceive (p : PortId) (hdr : BitVec 128) (payload : List Byte) (crc : BitVec 64) (errs : List (List (Fin 544)))
  /-- NAK_RECEIVE (R376): A NAK arrives and the sender resends from the first unacknowledged flit. -/
  | nakReceive (p : PortId) (ack : BitVec 16)
  /-- WAKE_PATTERN_DETECT (R385): The always-on domain detects a wake pattern on a sleeping port. -/
  | wakePatternDetect (p : PortId)
  /-- LINK_ACTIVITY_DETECT (R385): The always-on domain detects signal held for 2 us on a sleeping link. -/
  | linkActivityDetect (p : PortId)
  /-- CHAIN_REDUCE (R396): Reduces contributions in chain order so every member receives the sum. -/
  | chainReduce (submit : Option (BitVec 48)) (group : BitVec 8) (opid : BitVec 32) (parts results : List (BitVec 40)) (tags : List (BitVec 13 × BitVec 32))
  /-- REDUCE_SCATTER (R396): Reduces in chain order so rank c receives chunk c. -/
  | reduceScatter (submit : Option (BitVec 48)) (group : BitVec 8) (opid : BitVec 32) (parts results : List (BitVec 40)) (tags : List (BitVec 13 × BitVec 32))
  /-- ALL_GATHER (R400): Gathers every rank's shard through wire-format conversion, with optional shard tags. -/
  | allGather (submit : Option (BitVec 48)) (group : BitVec 8) (opid : BitVec 32) (shards : List (List (BitVec 40 × Byte))) (tags : List (BitVec 64))
  /-- DISPATCH (R405): Packs and sends token rows to expert buffers by route, dropping or faulting over capacity. -/
  | dispatch (submit : Option (BitVec 48)) (group : BitVec 8) (opid : BitVec 32) (counts : List (List (BitVec 32))) (plans : List (BitVec 32)) (rows : List (BitVec 16 × BitVec 32 × List (BitVec 40 × Byte)))
  /-- COMBINE (R407): Returns expert outputs and combines them per token by gated FMA in route order. -/
  | combine (submit : Option (BitVec 48)) (group : BitVec 8) (opid : BitVec 32) (rows : List (BitVec 32 × List (BitVec 40 × Byte)))
  /-- PERMUTE (R409): Exchanges pieces through staging, then copies them into the destinations. -/
  | permute (submit : Option (BitVec 48)) (group : BitVec 8) (opid : BitVec 32) (pieces : List SentPiece)
  /-- GNORM (R411): Computes the global sum of squares in ACC40 chain order across ranks. -/
  | gnorm (submit : Option (BitVec 48)) (group : BitVec 8) (opid : BitVec 32) (part result : BitVec 40)
  /-- SEND (R408): Sends a tensor to a peer rank. -/
  | send (submit : Option (BitVec 48)) (group : BitVec 8) (opid : BitVec 32)
  /-- RECV (R408): Receives a tensor from a peer rank. -/
  | recv (submit : Option (BitVec 48)) (group : BitVec 8) (opid : BitVec 32) (elems : List (BitVec 40 × Byte))
  /-- READY_FLIT (R394): A READY control flit arrives, is matched, held in the table, or answered NOT_READY. -/
  | readyFlit (group : BitVec 8) (opid : BitVec 32) (rank : BitVec 12) (op : BitVec 4) (gen : BitVec 32) (bytes elems : BitVec 64) (slot : Fin 32)
  /-- READY_REPEAT (R394): A sender repeats its READY every 10 us after a NOT_READY. -/
  | readyRepeat (group : BitVec 8) (opid : BitVec 32) (rank : BitVec 12)
  /-- COL_OP_COMPLETE (R395): An operation writes its status word once its writes complete, then increments its event. -/
  | colOpComplete (group : BitVec 8) (opid : BitVec 32)
  /-- COL_TIMEOUT (R413): An operation exceeds COL_TIMEOUT, completes with COL_TIMEOUT and reports to the manager. -/
  | colTimeout (group : BitVec 8) (opid : BitVec 32)
  /-- COL_LINK_FAULT (R412): A LINK_DOWN flit completes its operation with COL_LINK and reports to the manager. -/
  | colLinkFault (p : PortId) (group : BitVec 8) (opid : BitVec 32)
  /-- MANAGER_ABORT (R412): A manager abort for (GROUP, OPID) arrives and completes the operation as ABORTED. -/
  | managerAbort (group : BitVec 8) (opid : BitVec 32)
  /-- ROUTE_SWAP (R389): COL_ROUTE_CTL.SWAP exchanges route tables once no operation is in flight. -/
  | routeSwap
  /-- GROUP_WRITE (R388): A write of a group entry or member table, ignored while BUSY. -/
  | groupWrite (group : BitVec 8) (member : Option (BitVec 12 × BitVec 4 × BitVec 4 × BitVec 4)) (valid : Bool) (tenant : BitVec 8) (sizeM1 rank : BitVec 12) (gen : BitVec 32)
  /-- HEARTBEAT_SEND (R416): The manager sends a heartbeat carrying the epoch every millisecond. -/
  | heartbeatSend
  /-- HEARTBEAT_RECEIVE (R416): A heartbeat or higher epoch arrives, and the module adopts the epoch or steps down. -/
  | heartbeatReceive (epoch : BitVec 32)
  /-- HEARTBEAT_TIMEOUT (R416): No heartbeat within COL_MGR_TIMEOUT sets LOST, and a standby takes over. -/
  | heartbeatTimeout
  /-- HELD_OP_START (R417): Operations held while the manager was lost start at the next heartbeat. -/
  | heldOpStart (group : BitVec 8) (opid : BitVec 32)
  /-- XORID_SWITCH (R419): A manager switch sets HOLD, completes the job's work and is acknowledged. -/
  | xoridSwitch (tenant : TenantId)
  /-- XORID_GO (R419): A manager go writes the new phase and clears HOLD. -/
  | xoridGo (tenant : TenantId) (generation : Bool)
  /-- HOST_LINK_DOWN (R422): A lane loss takes the host link down, keeping every flow's state. -/
  | hostLinkDown
  /-- HOST_LINK_UP (R422): The host link comes up and retransmission resumes. -/
  | hostLinkUp
  /-- FRAME_RECEIVE (R421): An Ethernet frame arrives and is filtered at L2, L3 and UDP, or discarded and counted. -/
  | frameReceive (frame : List Byte) (fec : Fin 3) (us : BitVec 32)
  /-- NEIGHBOR_SOLICITATION (R421): Answers an ICMPv6 Neighbor Solicitation to a module address. -/
  | neighborSolicitation (src target : BitVec 128)
  /-- ECHO_REQUEST (R421): Answers an ICMPv6 Echo Request to a module address. -/
  | echoRequest (src dst : BitVec 128) (rest : List Byte)
  /-- DATA_PACKET (R425): A DATA packet that matches a flow is held in the window and delivered in SEQ order. -/
  | dataPacket (flow : BitVec 8) (first last : Bool) (seq : BitVec 32) (ack : BitVec 32) (sack : BitVec 64) (win : BitVec 16) (us : BitVec 32) (payload : List Byte)
  /-- ACK_PACKET (R426): An ACK arrives and releases acknowledged packets or triggers SACK resends. -/
  | ackPacket (flow : BitVec 8) (ack : BitVec 32) (sack : BitVec 64) (win : BitVec 16) (us : BitVec 32)
  /-- KEEPALIVE (R424): A KEEPALIVE transport packet arrives on a flow. -/
  | keepalive (flow : BitVec 8) (ack : BitVec 32) (sack : BitVec 64) (win : BitVec 16) (us : BitVec 32)
  /-- RETRANSMIT_TIMEOUT (R426): HTP_RTO passes without progress, and the oldest packet is resent with the interval doubled. -/
  | retransmitTimeout (flow : BitVec 8)
  /-- HTP_FLOW_WRITE (R423): A flow-entry write; setting VALID resets both sequence counters. -/
  | htpFlowWrite (flow : BitVec 8) (valid mgmt : Bool) (prio : BitVec 2) (tenant : BitVec 8) (port window : BitVec 16) (host : BitVec 128)
  /-- CMD (R431): A complete CMD message is deposited in its receive ring, or held while the ring is full. -/
  | cmd (flow : BitVec 8)
  /-- CMD_DEPOSIT_RESUME (R432): A CMD held for a full ring is deposited once room frees. -/
  | cmdDepositResume (flow : BitVec 8)
  /-- PUT (R429): Writes LEN bytes to HBM and answers PUT_DONE. -/
  | put (flow : BitVec 8)
  /-- GET (R429): Reads LEN bytes from HBM and answers GET_DATA. -/
  | get (flow : BitVec 8)
  /-- ATOMIC (R429): Performs one atomic operation and answers ATOMIC_RESP. -/
  | atomic (flow : BitVec 8)
  /-- REDUCE_PUT (R336): Applies an atomic operation to each payload element and answers REDUCE_DONE. -/
  | reducePut (flow : BitVec 8)
  /-- CMD_NACK (R428): Answers a message of reserved type, or an over-long CMD, with CMD_NACK. -/
  | cmdNack (flow : BitVec 8)
  /-- HTP_TXQ_GO (R438): Sends a firmware-written message on a flow. -/
  | htpTxqGo (flow : BitVec 8)
  /-- JOB (R236): Tenant command that supplies the job number and mask schedule. -/
  | job (flow : BitVec 8) (tag : BitVec 32) (job : BitVec 32) (schedule : BitVec 128) (step : BitVec 32)
  /-- LAUNCH (R434): Tenant command that submits a launch record with its shape words. -/
  | launch (core : CoreId) (flow : BitVec 8) (rcd : BitVec 512) (shape : List (BitVec 32))
  /-- ABORT (R437): Tenant command that aborts a launch and is answered by ABORT_REPLY. -/
  | abort (flow : BitVec 8) (tag : BitVec 32) (launchId : BitVec 32)
  /-- COLL (R433): Tenant command that submits a collective operation record. -/
  | coll (flow : BitVec 8) (addr : BitVec 48)
  /-- HTP_ABORT (R437): A write of the HTP_ABORT ID word brings an abort to the launch's commit point. -/
  | htpAbort (launchId : BitVec 32)
  /-- FW_WRITE (R455): Copies and verifies a firmware or first-stage image into its target. -/
  | fwWrite (flow : BitVec 8) (tag : BitVec 32) (first : Bool) (addr : BitVec 48) (length : BitVec 32)
  /-- FW_ACTIVATE (R455): Verifies the inactive slot and sets TRIAL. -/
  | fwActivate (flow : BitVec 8) (tag : BitVec 32)
  /-- FW_CONFIRM (R455): Confirms the running slot, optionally raising the minimum SVN. -/
  | fwConfirm (flow : BitVec 8) (tag : BitVec 32) (raiseSvn : Bool)
  /-- RESET (R455): Management command that causes a warm reset with cause SOFT. -/
  | reset (flow : BitVec 8) (tag : BitVec 32)
  /-- READY_REPORT (R456): Returns the readiness report. -/
  | readyReport (flow : BitVec 8) (tag : BitVec 32)
  /-- ATTEST (R464): Returns a signed attestation report for a nonce and tenant. -/
  | attest (flow : BitVec 8) (tag : BitVec 32) (nonce : BitVec 512) (tenant : TenantId)
  /-- CERT_GET (R461): Returns the certificate chain. -/
  | certGet (flow : BitVec 8) (tag : BitVec 32)
  /-- DBG_CHALLENGE (R476): Returns a fresh debug challenge and invalidates the previous one. -/
  | dbgChallenge (flow : BitVec 8) (tag : BitVec 32)
  /-- DBG_UNLOCK_PWD (R476): Unlocks debug by password, subject to lockout. -/
  | dbgUnlockPwd (flow : BitVec 8) (tag : BitVec 32) (password : List Byte)
  /-- DBG_UNLOCK_KEY (R476): Unlocks debug by a signed challenge response. -/
  | dbgUnlockKey (flow : BitVec 8) (tag : BitVec 32) (key : BitVec 456) (sig : BitVec 912)
  /-- DBG_LOCK (R478): Returns debug access to LOCKED with a signed event record. -/
  | dbgLock (flow : BitVec 8) (tag : BitVec 32)
  /-- DBG_PWD_SET (R479): Programs the debug password digest fuse once. -/
  | dbgPwdSet (flow : BitVec 8) (tag : BitVec 32) (digest : BitVec 512)
  /-- DBG_KEY_SET (R476): Programs a debug key slot digest once. -/
  | dbgKeySet (flow : BitVec 8) (tag : BitVec 32) (slot : Fin 3) (digest : BitVec 512)
  /-- TEN_ASSIGN (R479): Assigns a region, a stack or a share to a tenant. -/
  | tenAssign (flow : BitVec 8) (tag : BitVec 32) (kind : Fin 3) (index value : BitVec 32)
  /-- TEN_REGION_WRITE (R468): A region owner write, which scrubs the region before changing its owner. -/
  | tenRegionWrite (r : RegionId) (owner : BitVec 8)
  /-- TEN_STACK_WRITE (R469): A stack owner write, which zeroises the stack before changing its owner. -/
  | tenStackWrite (k : StackId) (owner : BitVec 8)
  /-- REASSIGN_DONE (R468): The scrub ends, OWNER takes the new value and PEND clears. -/
  | reassignDone (u : Fin 44)
  /-- TEN_SHARE_WRITE (R466): A share write, applied at each arbiter's next arbitration cycle. -/
  | tenShareWrite (t : Fin 254) (share : BitVec 8)
  /-- SEC_MEAS_EXTEND (R462): Extends a measurement register with SEC_MEAS_IN unless it is locked. -/
  | secMeasExtend (m : Fin 8)
  /-- SEC_MEAS_LOCK (R462): Sets lock bits of measurement registers until reset. -/
  | secMeasLock (mask : BitVec 8)
  /-- SIGN_REQUEST (R460): The signing engine signs a report, record or receipt in order of arrival. -/
  | signRequest
  /-- IDENTITY_DERIVATION (R459): Derives the identity key again after reset or Cold frame exit. -/
  | identityDerivation
  /-- METERING_INTERVAL_END (R471): Every 60,000 ms, writes signed records per tenant and clears the counters. -/
  | meteringIntervalEnd
  /-- METER_TICK (R470): Each 1 ms tick adds byte-ms, and the measured energy is divided among tenants. -/
  | meterTick (regions stackSet : List (BitVec 32)) (wakes : List (RegionId × BitVec 32)) (links total : BitVec 32)
  /-- SNAP_CONFIG (R484): Binds a job slot to a tenant, job, cursor and loss word. -/
  | snapConfig (flow : BitVec 8) (tag : BitVec 32) (j : Fin 8) (tenant : TenantId) (job : BitVec 32) (cursor loss : BitVec 48) (verify : Bool) (fmt : BitVec 4)
  /-- SNAP_RATE (R486): Sets M and recomputes the snapshot interval. -/
  | snapRate (flow : BitVec 8) (tag : BitVec 32) (j : Fin 8) (m : BitVec 32)
  /-- SNAP_ORDER (R488): Orders a snapshot at step S, or answers SNP_LATE. -/
  | snapOrder (flow : BitVec 8) (tag : BitVec 32) (j : Fin 8) (step : BitVec 32)
  /-- SNAP_REQUEST (R488): A member's request for a snapshot, received by the manager. -/
  | snapRequest (j : Fin 8) (step : BitVec 32)
  /-- PARTNER_SET (R498): Names the snapshot partner and checks serial, feed and manager role. -/
  | partnerSet (flow : BitVec 8) (tag : BitVec 32) (serial : BitVec 64) (feed : BitVec 4) (force standby : Bool)
  /-- RESTORE (R501): Management command that restores a job's image from a source. -/
  | restore (flow : BitVec 8) (tag : BitVec 32) (j : Fin 8) (src : Fin 3) (image : List (BitVec 44 × Byte))
  /-- SNAP_STATUS (R503): Returns a slot's snapshot registers. -/
  | snapStatus (flow : BitVec 8) (tag : BitVec 32) (j : Fin 8)
  /-- SNAPSHOT_TIMER (R487): SNP_JOB_ELAPSED reaches INTERVAL and sets DUE with cause 1. -/
  | snapshotTimer (j : Fin 8)
  /-- SNP_START (R490): Starts a snapshot: invalidates the target, protects pages and handles, then enters COPYING. -/
  | snpStart (j : Fin 8)
  /-- SNP_COMMIT (R494): Reads the loss word and moves the slot to LOSS_TAKEN. -/
  | snpCommit (j : Fin 8)
  /-- SNP_ABORT (R495): Ends a snapshot, releasing protection and staging and starting held launches. -/
  | snpAbort (j : Fin 8)
  /-- SNP_RESTORE (R500): Register restore of a slot from a source, as the RESTORE command. -/
  | snpRestore (j : Fin 8) (src : Fin 3) (image : List (BitVec 44 × Byte))
  /-- FLASH_WRITE_UNIT (R492): The flash writer writes the next staged page, handle or direct page. -/
  | flashWriteUnit (ok : Bool)
  /-- HELD_LAUNCH_START (R491): A launch held on protected handles starts once they are in flash. -/
  | heldLaunchStart (launchId : BitVec 32) (tenant : TenantId)
  /-- SNAPSHOT_RECORD_COMMIT (R494): Once everything is in flash, writes the committed record, sets LATEST and returns to IDLE. -/
  | snapshotRecordCommit (j : Fin 8)
  /-- PARTNER_COPY (R499): Sends the committed sections to the partner area at P3. -/
  | partnerCopy (j : Fin 8) (event : PartnerEvent)
  /-- REPLAY_COMPARE (R502): Compares the replayed step's loss with LOSS, giving VERIFIED, MISMATCH or UNVERIFIED. -/
  | replayCompare (j : Fin 8)
  /-- PWR_RGATE (R507): Requests gating of a region, refused while a launch or zeroisation runs. -/
  | pwrRgate (mask : BitVec 32)
  /-- GATING_DEFERRED_START (R507): A pending gating proceeds once the flash writer has written the region's protected handles. -/
  | gatingDeferredStart (r : RegionId)
  /-- GATING_DONE (R508): Write counters drain and the region powers down. -/
  | gatingDone (r : RegionId)
  /-- GATING_DRAIN_TIMEOUT (R508): A counter is still nonzero at PWR_DRAIN_TIMEOUT, and the gating aborts. -/
  | gatingDrainTimeout (r : RegionId)
  /-- PWR_RWAKE (R509): A write of PWR_RWAKE wakes a gated region. -/
  | pwrRwake (mask : BitVec 32)
  /-- REGION_WAKE (R509): A first access wakes a gated region, zeroising its banks that were not retained. -/
  | regionWake (r : RegionId)
  /-- ENTER_COLD_FRAME (R513): WAIT with REQ 1 checks, drains and enters Cold frame. -/
  | enterColdFrame (core : CoreId)
  /-- ENTER_SOIL_PROBE (R513): WAIT with REQ 2 checks, drains and enters Soil probe. -/
  | enterSoilProbe (core : CoreId)
  /-- ENTER_OFF (R513): WAIT with REQ 3 checks, drains and enters off. -/
  | enterOff (core : CoreId)
  /-- WAKE_SOURCE (R519): An enabled wake source asserts in Cold frame, or aborts an entry in progress. -/
  | wakeSource (source : Fin 26)
  /-- COLD_FRAME_EXIT (R515): Runs the boot chain without a reset, keeping retained stacks. -/
  | coldFrameExit
  /-- SOIL_PROBE (R516): Every PWR_PROBE_PERIOD, a 10 ms probe samples comparators, pins and lanes. -/
  | soilProbe (values : Vector (BitVec 16) 8) (seen : BitVec 32)
  /-- MOD_RESET_N (R448): MOD_RESET_N low holds the module in cold reset in every state. -/
  | modResetN
  /-- COLD_RESET_RELEASE (R447): Release of cold reset resets everything, samples the straps and starts boot. -/
  | coldResetRelease (slotId slotOpen : BitVec 6) (feedId feedOpen : BitVec 4) (mgrEn mgrOpen : Bool)
  /-- WARM_RESET (R447): A warm reset resets every domain except 39, asserts ALERT_N and boots. -/
  | warmReset
  /-- MOD_RESET_CTL (R447): A write of MOD_RESET_CTL.WARM requests a warm reset with cause SOFT. -/
  | modResetCtl
  /-- WATCHDOG_EXPIRY (R446): A core's watchdog reaches PERIOD and causes a warm reset with cause WDT. -/
  | watchdogExpiry (core : CoreId)
  /-- MOD_WDT_KICK (R446): A write of 0x5A restarts the watchdog count. -/
  | modWdtKick (core : CoreId) (key : BitVec 8)
  /-- MOD_WDT_ARM (R446): Arms a core's watchdog until the next reset. -/
  | modWdtArm (core : CoreId) (period : BitVec 16)
  /-- CORE_PARITY_ERROR (R442): A parity error stops the core and causes a warm reset with cause PARITY. -/
  | coreParityError (core : CoreId)
  /-- IOD_FAULT (R442): An uncorrectable error in launch-unit or table state causes a warm reset with cause IOD. -/
  | iodFault
  /-- CSRAM_SCRUB (R440): Scrubs CSRAM every 100 ms. -/
  | csramScrub
  /-- MOD_CC_RUN (R443): Releases or holds control cores in reset. -/
  | modCcRun (mask : BitVec 8)
  /-- BOOT_STAGE (R452): The boot chain advances through the stages of Table 17.4. -/
  | bootStage (records : List (List Byte)) (remaps : List (ClusterId × Fin 64 × Fin 256 × Fin 8192)) (flows : List (BitVec 8 × BitVec 16 × BitVec 16 × BitVec 128)) (passes : Vector (BitVec 3) 12) (failed : BitVec 32)
  /-- BOOT_LIMIT_EXPIRY (R452): The module is not ready within MOD_BOOT_LIMIT and takes a warm reset with cause BOOT. -/
  | bootLimitExpiry
  /-- REGION_SELF_TEST (R564): A FULL or LOGIC self-test of a region. -/
  | regionSelfTest (r : RegionId)
  /-- STEST_LOGIC (R565): Requests a LOGIC self-test of a region. -/
  | stestLogic (r : RegionId)
  /-- STEST_FULL (R565): Requests a FULL self-test of an unassigned region. -/
  | stestFull (r : RegionId)
  /-- STEST_ABORT (R566): Ends a self-test as ABORTED. -/
  | stestAbort (r : RegionId)
  /-- STEST_DEFERRED_START (R565): A pending self-test starts after the launch or zeroisation that delayed it. -/
  | stestDeferredStart (r : RegionId)
  /-- SELF_TEST_DONE (R566): Records PASS or FAIL, mapping out failed rows after FULL. -/
  | selfTestDone (r : RegionId) (unit : Fin 7) (cl : Fin 8) (rows : List (Fin 8 × Fin 64 × Fin 8192)) (periods : BitVec 48)
  /-- RISK_SCORE_TICK (R560): Every 100 ms, recomputes the risk score. -/
  | riskScoreTick
  /-- FEED_REVERSED (R525): A feed reversed for 1 ms is blocked, setting REV and ALERT_N. -/
  | feedReversed (feed : Fin 2)
  /-- FEED_ABSENT (R525): A feed reads absent for 50 us and its ideal diode opens. -/
  | feedAbsent (feed : Fin 2)
  /-- FEED_OUT_OF_RANGE (R525): A feed is out of range for 1 ms and HLT_FEED.OUT is set. -/
  | feedOutOfRange (feed : Fin 2)
  /-- FEED_OVERVOLTAGE (R525): A feed above 82 V for 10 us is isolated. -/
  | feedOvervoltage (feed : Fin 2)
  /-- FEED_OVERCURRENT (R525): A feed above its current limit is isolated. -/
  | feedOvercurrent (feed : Fin 2)
  /-- FEED_REJOIN (R525): An isolated or absent feed rejoins after its hold time in range. -/
  | feedRejoin (feed : Fin 2)
  /-- EMERGENCY_SHUTDOWN (R526): With no feed used or PRES_N high, switches off all but the standby rails. -/
  | emergencyShutdown (presHigh : Bool)
  /-- PRES_N_ASSERT (R528): PRES_N low for 10 ms starts the inrush charge. -/
  | presNAssert
  /-- POWER_UP (R533): Runs the power-up sequence to PWR_GOOD and releases cold reset. -/
  | powerUp (slotId slotOpen : BitVec 6) (feedId feedOpen : BitVec 4) (mgrEn mgrOpen : Bool)
  /-- RAIL_FAULT (R535): A rail out of tolerance for 100 us records an event, shuts down and powers up after 1 s. -/
  | railFault (rail : BitVec 8) (beyond : Bool)
  /-- POWER_SAMPLE (R536): Every 10 us, measures the feeds, with the fast loop cutting four steps above 2,300 W. -/
  | powerSample (va vb watts : BitVec 16)
  /-- POWER_SLOW_LOOP (R536): Every 1 ms, adjusts PWR by one step against the 100 ms mean power. -/
  | powerSlowLoop (mean : BitVec 16)
  /-- THERMAL_CONTROL_TICK (R553): Every 1 ms, adjusts THERM per die. -/
  | thermalControlTick (dies : Vector (BitVec 8) 4) (iod : BitVec 8) (stackSet : Vector (BitVec 8) 12)
  /-- DIE_TRIP (R554): Overtemperature trips a die, switching off its rails and losing its stacks. -/
  | dieTrip (d : DieId) (sensor : Fin 67) (reading : BitVec 8)
  /-- MODULE_TRIP (R554): An IOD overtemperature causes an emergency shutdown. -/
  | moduleTrip (reading : BitVec 8)
  /-- PIN_READBACK_TICK (R548): Every 100 us, reads back output pins and sets short bits. -/
  | pinReadbackTick (low high : BitVec 4)
  /-- SMBUS_STUCK (R547): An SMBus line stuck low for 35 ms sets its pin-fault bit. -/
  | smbusStuck (scl : Bool)
  /-- SMBUS_READ (R550): Answers an SMBus read command from the board controller. -/
  | smbusRead (code : BitVec 8)
  /-- REFCLK_ABSENT (R546): A missing reference clock stops its domain and holds the link or ports down. -/
  | refclkAbsent (eth : Bool)
  /-- REFCLK_PRESENT (R546): After 100 us of valid edges the clock is present again. -/
  | refclkPresent (eth : Bool)
  /-- TAP_RESET (R569): TRST_N or five TMS-high cycles reset the TAP to IDCODE. -/
  | tapReset
  /-- EXTEST (R570): TAP instruction that drives pins from the boundary register and holds the module in reset. -/
  | extest (pins cells : BitVec 242)
  /-- SAMPLE_PRELOAD (R569): TAP instruction that samples and preloads the boundary register. -/
  | samplePreload (pins cells : BitVec 242)
  /-- IDCODE (R569): TAP instruction that selects the identification register. -/
  | idcode
  /-- CLAMP (R570): TAP instruction that holds pins from the boundary register with bypass selected. -/
  | clamp
  /-- HIGHZ (R570): TAP instruction that sets outputs and lane transmitters to high impedance. -/
  | highz
  /-- EXTEST_PULSE (R571): IEEE 1149.6 pulse test on the lanes. -/
  | extestPulse (pins cells : BitVec 242)
  /-- EXTEST_TRAIN (R571): IEEE 1149.6 pulse-train test on the lanes. -/
  | extestTrain (pins cells : BitVec 242)
  /-- DBG_MEM (R573): Private TAP instruction that makes one privileged 8-byte access when unlocked. -/
  | dbgMem (write : Bool) (addr : BitVec 48) (data : BitVec 64)
  /-- DBG_SCAN (R573): Private TAP instruction that shifts the state of a sequencer when unlocked. -/
  | dbgScan (din : BitVec 544)
  /-- BYPASS (R569): TAP instruction that selects the 1-bit bypass register. -/
  | bypass
  /-- DBG_HALT (R575): Halts or resumes regions at the next bundle boundary. -/
  | dbgHalt (mask periods : BitVec 32)
  /-- DBG_STEP (R575): Issues one bundle of a halted region. -/
  | dbgStep (r : RegionId)
  /-- DBG_DATA_WRITE (R576): Writes halted architectural state and marks the launch debug-touched. -/
  | dbgDataWrite (lo hi : BitVec 32)
  /-- DBG_INJ (R577): Arms one injected error for the next write of the target. -/
  | dbgInj (target : BitVec 3) (two : Bool) (addr : BitVec 48)
  /-- RESULT_IC (R300): An island cycle at which an issued operation reaches a result ic of its table: a tile completes, a page becomes ready, a drain row is written, or a Shears tile starts or is written. -/
  | resultIc (r : RegionId)
  /-- PEER_RETRAIN (R382): A port's receiver sees training words in place of flits from a peer that has started a retrain, and the port enters RETRAIN itself. -/
  | peerRetrain (p : PortId)
  /-- WAKE_PIN_EDGE (R516): An edge on WAKE_A or WAKE_B is latched in PWR_WAKE_SRC at any time, including between Soil probe samples. -/
  | wakePinEdge (pin : Fin 2)
  /-- ENTRY_DRAIN_TIMEOUT (R513): A bank's outstanding-write counter is still nonzero PWR_DRAIN_TIMEOUT into a module-wide entry, and the entry aborts, naming the writer. -/
  | entryDrainTimeout
  /-- METERING_RING_TAIL (R474): Firmware advances TEN_MREC_TAIL and frees entries, and the meter signs and stores the records it held while the metering ring was full. -/
  | meteringRingTail (index : BitVec 16)
  deriving DecidableEq, Repr

end Sys2Proof
end

