-- ==== Sys2Proof/Decode.lean ====
section
/-!
DEFINITION. The rows of spec/opcode_table.json give no bits: a command comes from outside as an event, not as a word. The
encodings that the spec does give (bundles, control-core instructions) are decoded in Machine/Bundle.lean and Machine/Cc.lean.
-/

namespace Sys2Proof

/-- The command that a word of the table spells: none, since no row gives bits. -/
def decodeTableWord (_nbits _w : Nat) : Option Instr := none

end Sys2Proof
end

