-- ==== Sys2Proof/Config.lean ====
section
/-!
DEFINITION. What the spec leaves to one part, and the values it leaves open. Every constant here is opaque: it has no
body, so no proof can know its value, and a statement about it holds for every value.
-/

namespace Sys2Proof.Config

/-- The n-th byte that a faulted or aborted launch, collective operation or restore leaves in a buffer it was writing
(00_scope: the contents are open; R117, R307). The counter State.free supplies n. -/
opaque freeByte : Nat → BitVec 8
/-- The n-th random number drawn by the module (debug challenges, R476). -/
opaque freeRandom : Nat → Nat

/-- The number of a refusal of R391 and R393 in COL_SUBMIT_STAT.CODE, less 1: 0 COL_FULL, 1 COL_PARAM, 2 COL_GROUP. The spec
names these refusals and gives them no number. -/
opaque colRefusal : Nat → Nat

/-- Which extent of its parameter block firmware writes from shape word i of a LAUNCH (R434): 6·descriptor + dimension. The spec
does not say. -/
opaque shapePlace : Nat → Nat

/-- MOD_ID.CAP as fused (R9, R457). -/
opaque fuseCap : BitVec 2
/-- MOD_ID.STEP as fused. -/
opaque fuseStep : BitVec 4
/-- MOD_SERIAL_LO as fused. -/
opaque fuseSerialLo : BitVec 32
/-- MOD_SERIAL_HI as fused. -/
opaque fuseSerialHi : BitVec 32
/-- MOD_SVN.MIN as fused. -/
opaque fuseSvnMin : BitVec 7
/-- SEC_ROOT_HASH[w] as fused. -/
opaque fuseRootHash : Nat → BitVec 32
/-- SEC_DBG_KEYSET.KEYS as fused. -/
opaque fuseDbgKeys : BitVec 4
/-- SEC_DBG_KEYSET.PWD as fused. -/
opaque fuseDbgPwd : BitVec 1
/-- SEC_FW_REVOKE.KEYS as fused. -/
opaque fuseRevoke : BitVec 4
/-- The SLOT_ID straps before the first release of MOD_RESET_N (R9). -/
opaque strapSlotId : BitVec 6
/-- The MGR_EN strap. -/
opaque strapMgrEn : BitVec 1
/-- The FEED_ID straps. -/
opaque strapFeedId : BitVec 4
/-- Which SLOT_ID pins were found open (R541). -/
opaque strapSlotOpen : BitVec 6
/-- Whether MGR_EN was found open. -/
opaque strapMgrOpen : BitVec 1
/-- Which FEED_ID pins were found open. -/
opaque strapFeedOpen : BitVec 4

/-- Byte i of the SHAKE256 output of a byte list (FIPS 202, named by R459, R462, R464). -/
opaque shakeByte : List Nat → Nat → BitVec 8
/-- SHAKE256 of a byte list, the first n bytes of output. -/
def shake256 (msg : List Nat) (n : Nat) : List Nat := (List.range n).map fun i => (shakeByte msg i).toNat
/-- Byte i of the Ed448 signature of a message under a private key with a context string (RFC 8032, named by R460). -/
opaque signByte : List Nat → List Nat → List Nat → Nat → BitVec 8
/-- The Ed448 signature, 114 bytes. -/
def ed448Sign (key ctx msg : List Nat) : List Nat := (List.range 114).map fun i => (signByte key ctx msg i).toNat
/-- Whether a signature over a message verifies under a public key with a context string (RFC 8032). -/
opaque ed448Verify : List Nat → List Nat → List Nat → List Nat → Bool
/-- Byte i of the public key of a private key (RFC 8032). -/
opaque publicByte : List Nat → Nat → BitVec 8
/-- The public key, 57 bytes. -/
def ed448Public (key : List Nat) : List Nat := (List.range 57).map fun i => (publicByte key i).toNat
/-- The device secret of this part (R459). -/
opaque udsBytes : List (BitVec 8)
/-- The device secret as numbers. -/
def uds : List Nat := udsBytes.map BitVec.toNat

/-- The DER bytes of certificate n of the chain: 0 the root, 1 the intermediate, 2 the device (R461). -/
opaque certificateBytes : Nat → List (BitVec 8)
/-- Certificate n as numbers. -/
def certificate (n : Nat) : List Nat := (certificateBytes n).map BitVec.toNat
/-- SEC_DBG_PWD as fused, 64 bytes little-endian (R476). -/
opaque fuseDbgPwdHash : BitVec 512
/-- SEC_DBG_KEY[k] as fused. -/
opaque fuseDbgKeyHash : Nat → BitVec 512
/-- The SHAKE256 digest of image key k, 64 bytes little-endian, as fused (R451). -/
opaque fuseImageKey : Nat → BitVec 512
/-- Where in CSRAM the first stage loads the body of a control firmware image (Table 17.4); the spec does not say. -/
opaque loadOffset : Nat
/-- Where in an image's body the key that signed it lies (R451: carried in the body; the spec does not say where). -/
opaque imageKeyPlace : Nat
/-- How far above the highest step reported the manager orders a snapshot, less 1 (R488: above every one; the spec gives no
number). -/
opaque orderGap : Nat → Nat

/-- What a read of an offset inside a register block where no register stands answers: the n-th free value. The spec does not say. -/
opaque freeWord : Nat → BitVec 32
/-- What a control-core shift by 64 or more gives (Table 10.17 states no result): operation 0 SLL, 1 SRL, 2 SRA, with its operands. -/
opaque freeShift : Nat → BitVec 64 → BitVec 64 → BitVec 64

/-- R447: what a warm reset leaves in HBM and scratchpad, the `n`-th time a free value is asked for: bytes by memory key, any others 0. -/
opaque lostCells (n : Nat) : List (Nat × BitVec 8)
/-- R447: what it leaves in accumulator tiles: cluster, MU, tile, element, ACC40 word; any others 0. -/
opaque lostAcc (n : Nat) : List (Nat × Nat × Nat × Nat × BitVec 40)

/-- The status that TEN_ASSIGN answers for an index that names no region, stack or share of its kind. R479 has every command answered
and states no status for this. -/
opaque assignStatus : Nat → Nat → BitVec 8

/-- How many on-die ECC severity reports the controller reads with the `n`-th free value's refresh (R323; the spec gives no number). -/
opaque odeccReports : Nat → Nat
/-- How many steps of a tenant's job have ended between what the model sees of its step number and the launch with the `n`-th free value
(R236: firmware counts the steps; the spec does not say by what it sees one end). -/
opaque stepsPassed : Nat → Nat

end Sys2Proof.Config
end

