-- ==== Sys2Proof/Machine/Bits.lean ====
section
/-!
DEFINITION. Bit fields, byte order and saturating counts over Nat, used by every file of the machine.
-/

namespace Sys2Proof.Machine

/-- Bits [hi:lo] of `n`. -/
def bitsOf (n hi lo : Nat) : Nat := (n >>> lo) % 2 ^ (hi + 1 - lo)

/-- `n` with the `w` bits from bit `lo` up replaced by `v`. -/
def putBits (n lo w v : Nat) : Nat :=
  n % 2 ^ lo + (v % 2 ^ w) * 2 ^ lo + (n >>> (lo + w)) * 2 ^ (lo + w)

/-- 1 for true and 0 for false. -/
def b2n (b : Bool) : Nat := if b then 1 else 0

/-- The two's complement reading of a `w`-bit number. -/
def sext (w n : Nat) : Int :=
  if n % 2 ^ w < 2 ^ (w - 1) then (n % 2 ^ w : Nat) else ((n % 2 ^ w : Nat) : Int) - (2 ^ w : Nat)

/-- The `w`-bit two's complement code of an integer. -/
def unsext (w : Nat) (i : Int) : Nat := (i % (2 ^ w : Nat)).toNat

/-- A sum that stops at the all-ones value of `w` bits (R50). -/
def satAdd (w a b : Nat) : Nat := min (a + b) (2 ^ w - 1)

/-- The number whose little-endian bytes are `l` (R579). -/
def ofLe : List Nat → Nat
  | [] => 0
  | b :: l => b % 256 + 256 * ofLe l

/-- The `k` little-endian bytes of `n` (R579). -/
def toLe : Nat → Nat → List Nat
  | 0, _ => []
  | k + 1, n => n % 256 :: toLe k (n / 256)

/-- `⌈a/b⌉`. -/
def cdiv (a b : Nat) : Nat := (a + b - 1) / b

/-- `a` rounded up to a multiple of `b`. -/
def upTo (a b : Nat) : Nat := cdiv a b * b

/-- The bits of `n` below `w` that are set, ascending. -/
def setBits (n w : Nat) : List Nat := (List.range w).filter fun i => n.testBit i

/-- How many of the low `w` bits of `n` are set. -/
def popCount (n w : Nat) : Nat := (setBits n w).length

/-- The lowest number below `k` that satisfies `p`. -/
def firstBelow (k : Nat) (p : Nat → Bool) : Option Nat := (List.range k).find? p

/-- Element `i` of a list of numbers, 0 past its end. -/
def nth (l : List Nat) (i : Nat) : Nat := l.getD i 0

end Sys2Proof.Machine
end

