-- ==== Sys2Proof/Machine/Bundle.lean ====
section
/-!
DEFINITION. Bundles (Tables 10.5 to 10.10, 10.13, 10.21): the operations of the six slots, their encoding and decoding. A
slot decodes when it is exactly the encoding of a legal operation, so a nonzero unused bit or a reserved code is illegal (R283).
-/

namespace Sys2Proof.Machine

/-- MU slot operations (Table 10.7). `load` is LDA or, with `b`, LDB. -/
inductive MuOp where
  | nop
  | load (b : Bool) (mu slot : Nat) (tr qen : Bool) (q rcd e r c : Nat)
  | mma (mu tile sa sb : Nat) (acc : Bool)
  | smma (mu tile sa half : Nat) (acc : Bool) (rcd : Nat)
  | sgw (mu sa sb : Nat) (acc : Bool) (zmh rcd : Nat)
  | rake (mu tile tile2 : Nat)
  | drain (mu tile rcd : Nat) (den : Bool) (drec e r c : Nat)
  | accZero (mu tile : Nat)
  deriving DecidableEq, Repr

/-- VU slot operations (Table 10.10). `alu` covers the lane-wise codes 5 to 14 and 20 to 30. -/
inductive VuOp where
  | nop
  | vld (vd : Nat) (w : Bool) (rcd e r c : Nat)
  | vst (va : Nat) (w : Bool) (rcd e r c : Nat)
  | vlds (vd ref rcd e r c : Nat)
  | vsts (va ref : Nat) (last : Bool) (rcd e r c : Nat)
  | alu (code vd va vb vc : Nat) (w : Bool)
  | movi (vd imm : Nat)
  | vtr (vd va fn : Nat)
  | vred (isMax : Bool) (vd va vc : Nat)
  deriving DecidableEq, Repr

/-- Sieve slot operations (Table 10.8). -/
inductive SvOp where
  | nop
  | load (mu half u rcd e r c : Nat)
  | zmap (mu u reg : Nat) (kind : Bool) (rcd e r c : Nat)
  | transpose (rcd rcd2 e r c : Nat)
  deriving DecidableEq, Repr

/-- Shears slot operations (R289). -/
inductive ShOp where
  | nop
  | pass (rcd : Nat)
  deriving DecidableEq, Repr

/-- Move slot operations (R294). -/
inductive MvOp where
  | nop
  | dma (rcd e r c : Nat)
  | move (rcd e r c : Nat)
  deriving DecidableEq, Repr

/-- Control slot operations (Table 10.13). -/
inductive CtOp where
  | nop
  | halt
  | jmp (imm : Int)
  | bnz (ixa : Nat) (imm : Int)
  | bz (ixa : Nat) (imm : Int)
  | ixset (ixd : Nat) (imm : Int)
  | ixadd (ixd ixa : Nat) (imm : Int)
  | ixldp (ixd : Nat) (imm : Int)
  | decbnz (ixd : Nat) (imm : Int)
  | evinc (ctr dst scope imm : Nat)
  | evset (ctr dst imm : Nat)
  | evwait (ctr dst imm : Nat)
  | fence (scope : Nat)
  deriving DecidableEq, Repr

/-- One bundle. -/
structure Bundle where
  mu : MuOp
  vu : VuOp
  sv : SvOp
  sh : ShOp
  mv : MvOp
  ct : CtOp
  deriving DecidableEq, Repr

/-- Six NOPs. -/
def Bundle.nop : Bundle := ⟨.nop, .nop, .nop, .nop, .nop, .nop⟩

/-- The index-register fields of the MU and VU slots. -/
def ixFields (e r c : Nat) : Nat := e * 2 ^ 36 + r * 2 ^ 40 + c * 2 ^ 44

/-- Encoding of Table 10.6. -/
def encodeMu : MuOp → Nat
  | .nop => 0
  | .load b mu sl tr qen q rcd e r c =>
    (if b then 2 else 1) + mu * 2 ^ 5 + sl * (if b then 2 ^ 10 else 2 ^ 9) + b2n tr * 2 ^ 12 + b2n qen * 2 ^ 13 +
      q * 2 ^ 14 + rcd * 2 ^ 20 + ixFields e r c
  | .mma mu tile sa sb acc => 3 + mu * 2 ^ 5 + tile * 2 ^ 7 + sa * 2 ^ 9 + sb * 2 ^ 10 + b2n acc * 2 ^ 11
  | .smma mu tile sa half acc rcd =>
    4 + mu * 2 ^ 5 + tile * 2 ^ 7 + sa * 2 ^ 9 + b2n acc * 2 ^ 11 + half * 2 ^ 16 + rcd * 2 ^ 20
  | .sgw mu sa sb acc zmh rcd =>
    5 + mu * 2 ^ 5 + sa * 2 ^ 9 + sb * 2 ^ 10 + b2n acc * 2 ^ 11 + zmh * 2 ^ 19 + rcd * 2 ^ 20
  | .rake mu tile tile2 => 6 + mu * 2 ^ 5 + tile * 2 ^ 7 + tile2 * 2 ^ 17
  | .drain mu tile rcd den drec e r c =>
    7 + mu * 2 ^ 5 + tile * 2 ^ 7 + rcd * 2 ^ 20 + b2n den * 2 ^ 28 + drec * 2 ^ 29 + ixFields e r c
  | .accZero mu tile => 8 + mu * 2 ^ 5 + tile * 2 ^ 7

/-- Legal operand values of the MU slot: every field within its width, Q = 3 only with QEN, RAKE on MU 0 to 2. -/
def MuOp.ok : MuOp → Bool
  | .nop => true
  | .load _ mu sl _ qen q rcd e r c =>
    decide (mu < 4 ∧ sl < 2 ∧ q < 4 ∧ rcd < 256 ∧ e < 16 ∧ r < 16 ∧ c < 16) && (qen || decide (q < 3))
  | .mma mu tile sa sb _ => decide (mu < 4 ∧ tile < 4 ∧ sa < 2 ∧ sb < 2)
  | .smma mu tile sa half _ rcd => decide (mu < 4 ∧ tile < 4 ∧ sa < 2 ∧ half < 2 ∧ rcd < 256)
  | .sgw mu sa sb _ zmh rcd => decide (mu < 4 ∧ sa < 2 ∧ sb < 2 ∧ zmh < 2 ∧ rcd < 256)
  | .rake mu tile tile2 => decide (mu < 3 ∧ tile < 4 ∧ tile2 < 4)
  | .drain mu tile rcd _ drec e r c =>
    decide (mu < 4 ∧ tile < 4 ∧ rcd < 256 ∧ drec < 128 ∧ e < 16 ∧ r < 16 ∧ c < 16)
  | .accZero mu tile => decide (mu < 4 ∧ tile < 4)

/-- The operation that a slot value of Table 10.6 names by its opcode, with the fields it uses. -/
def muFields (w : Nat) : Option MuOp :=
  let mu := bitsOf w 6 5
  let tile := bitsOf w 8 7
  let sa := bitsOf w 9 9
  let sb := bitsOf w 10 10
  let acc := w.testBit 11
  let rcd := bitsOf w 27 20
  let e := bitsOf w 39 36
  let r := bitsOf w 43 40
  let c := bitsOf w 47 44
  match bitsOf w 4 0 with
  | 0 => some .nop
  | 1 => some (.load false mu sa (w.testBit 12) (w.testBit 13) (bitsOf w 15 14) rcd e r c)
  | 2 => some (.load true mu sb (w.testBit 12) (w.testBit 13) (bitsOf w 15 14) rcd e r c)
  | 3 => some (.mma mu tile sa sb acc)
  | 4 => some (.smma mu tile sa (bitsOf w 16 16) acc rcd)
  | 5 => some (.sgw mu sa sb acc (bitsOf w 19 19) rcd)
  | 6 => some (.rake mu tile (bitsOf w 18 17))
  | 7 => some (.drain mu tile rcd (w.testBit 28) (bitsOf w 35 29) e r c)
  | 8 => some (.accZero mu tile)
  | _ => none

/-- Decoding of the MU slot; none faults with SQ_ILLEGAL. -/
def decodeMu (w : Nat) : Option MuOp :=
  match muFields w with
  | some op => if encodeMu op = w ∧ op.ok then some op else none
  | none => none

/-- Encoding of Table 10.9. -/
def encodeVu : VuOp → Nat
  | .nop => 0
  | .vld vd w rcd e r c => 1 + vd * 2 ^ 6 + b2n w * 2 ^ 26 + rcd * 2 ^ 28 + ixFields e r c
  | .vst va w rcd e r c => 2 + va * 2 ^ 11 + b2n w * 2 ^ 26 + rcd * 2 ^ 28 + ixFields e r c
  | .vlds vd ref rcd e r c => 3 + vd * 2 ^ 6 + ref * 2 ^ 16 + rcd * 2 ^ 28 + ixFields e r c
  | .vsts va ref last rcd e r c =>
    4 + va * 2 ^ 11 + ref * 2 ^ 16 + b2n last * 2 ^ 27 + rcd * 2 ^ 28 + ixFields e r c
  | .alu code vd va vb vc w => code + vd * 2 ^ 6 + va * 2 ^ 11 + vb * 2 ^ 16 + vc * 2 ^ 21 + b2n w * 2 ^ 26
  | .movi vd imm => 15 + vd * 2 ^ 6 + imm * 2 ^ 16
  | .vtr vd va fn => 16 + vd * 2 ^ 6 + va * 2 ^ 11 + fn * 2 ^ 16
  | .vred isMax vd va vc => (if isMax then 18 else 17) + vd * 2 ^ 6 + va * 2 ^ 11 + vc * 2 ^ 21

/-- Whether lane-wise code `k` uses VB. -/
def usesVb (k : Nat) : Bool := k != 11 && k != 12 && k != 30
/-- Whether lane-wise code `k` uses VC (VFMA, VSEL). -/
def usesVc (k : Nat) : Bool := k == 8 || k == 13

/-- Legal operand values of the VU slot: W = 1 only for codes 1, 2 and 5 to 10 (R291), unused sources 0, VTR codes 0 to 9. -/
def VuOp.ok : VuOp → Bool
  | .nop => true
  | .vld v _ rcd e r c => decide (v < 32 ∧ rcd < 256 ∧ e < 16 ∧ r < 16 ∧ c < 16)
  | .vst v _ rcd e r c => decide (v < 32 ∧ rcd < 256 ∧ e < 16 ∧ r < 16 ∧ c < 16)
  | .vlds v ref rcd e r c => decide (v < 32 ∧ ref < 256 ∧ rcd < 256 ∧ e < 16 ∧ r < 16 ∧ c < 16)
  | .vsts v ref _ rcd e r c => decide (v < 32 ∧ ref < 256 ∧ rcd < 256 ∧ e < 16 ∧ r < 16 ∧ c < 16)
  | .alu k vd va vb vc w =>
    decide (vd < 32 ∧ va < 32 ∧ vb < 32 ∧ vc < 32 ∧ ((5 ≤ k ∧ k ≤ 14) ∨ (20 ≤ k ∧ k ≤ 30))) &&
      (usesVb k || vb == 0) && (usesVc k || vc == 0) && (!w || decide (k ≤ 10))
  | .movi vd imm => decide (vd < 32 ∧ imm < 2 ^ 32)
  | .vtr vd va fn => decide (vd < 32 ∧ va < 32 ∧ fn < 10)
  | .vred _ vd va vc => decide (vd < 32 ∧ va < 32 ∧ vc < 32)

/-- The operation that a slot value of Table 10.9 names by its opcode. -/
def vuFields (w : Nat) : Option VuOp :=
  let k := bitsOf w 5 0
  let vd := bitsOf w 10 6
  let va := bitsOf w 15 11
  let vb := bitsOf w 20 16
  let vc := bitsOf w 25 21
  let rcd := bitsOf w 35 28
  let e := bitsOf w 39 36
  let r := bitsOf w 43 40
  let c := bitsOf w 47 44
  if k = 0 then some .nop
  else if k = 1 then some (.vld vd (w.testBit 26) rcd e r c)
  else if k = 2 then some (.vst va (w.testBit 26) rcd e r c)
  else if k = 3 then some (.vlds vd (bitsOf w 23 16) rcd e r c)
  else if k = 4 then some (.vsts va (bitsOf w 23 16) (w.testBit 27) rcd e r c)
  else if k ≤ 14 then some (.alu k vd va vb vc (w.testBit 26))
  else if k = 15 then some (.movi vd (bitsOf w 47 16))
  else if k = 16 then some (.vtr vd va vb)
  else if k = 17 then some (.vred false vd va vc)
  else if k = 18 then some (.vred true vd va vc)
  else if 20 ≤ k ∧ k ≤ 30 then some (.alu k vd va vb vc (w.testBit 26))
  else none

/-- Decoding of the VU slot. -/
def decodeVu (w : Nat) : Option VuOp :=
  match vuFields w with
  | some op => if encodeVu op = w ∧ op.ok then some op else none
  | none => none

/-- Encoding of Tables 10.8 and 10.21. -/
def encodeSv : SvOp → Nat
  | .nop => 0
  | .load mu half u rcd e r c =>
    1 + mu * 2 ^ 4 + half * 2 ^ 6 + u * 2 ^ 7 + rcd * 2 ^ 10 + e * 2 ^ 18 + r * 2 ^ 22 + c * 2 ^ 26
  | .zmap mu u reg kind rcd e r c =>
    2 + mu * 2 ^ 4 + u * 2 ^ 7 + reg * 2 ^ 8 + b2n kind * 2 ^ 9 + rcd * 2 ^ 10 + e * 2 ^ 18 + r * 2 ^ 22 + c * 2 ^ 26
  | .transpose rcd rcd2 e r c => 3 + rcd * 2 ^ 10 + e * 2 ^ 18 + r * 2 ^ 22 + c * 2 ^ 26 + rcd2 * 2 ^ 30

/-- Legal operand values of the Sieve slot. -/
def SvOp.ok : SvOp → Bool
  | .nop => true
  | .load mu half u rcd e r c => decide (mu < 4 ∧ half < 2 ∧ u < 2 ∧ rcd < 256 ∧ e < 16 ∧ r < 16 ∧ c < 16)
  | .zmap mu u reg _ rcd e r c => decide (mu < 4 ∧ u < 2 ∧ reg < 2 ∧ rcd < 256 ∧ e < 16 ∧ r < 16 ∧ c < 16)
  | .transpose rcd rcd2 e r c => decide (rcd < 256 ∧ rcd2 < 256 ∧ e < 16 ∧ r < 16 ∧ c < 16)

/-- The operation that a slot value of Table 10.8 names. -/
def svFields (w : Nat) : Option SvOp :=
  let mu := bitsOf w 5 4
  let u := bitsOf w 7 7
  let rcd := bitsOf w 17 10
  let e := bitsOf w 21 18
  let r := bitsOf w 25 22
  let c := bitsOf w 29 26
  match bitsOf w 3 0 with
  | 0 => some .nop
  | 1 => some (.load mu (bitsOf w 6 6) u rcd e r c)
  | 2 => some (.zmap mu u (bitsOf w 8 8) (w.testBit 9) rcd e r c)
  | 3 => some (.transpose rcd (bitsOf w 37 30) e r c)
  | _ => none

/-- Decoding of the Sieve slot. -/
def decodeSv (w : Nat) : Option SvOp :=
  match svFields w with
  | some op => if encodeSv op = w ∧ op.ok then some op else none
  | none => none

/-- Encoding of R289. -/
def encodeSh : ShOp → Nat
  | .nop => 0
  | .pass rcd => 1 + rcd * 2 ^ 3

/-- Decoding of the Shears slot. -/
def decodeSh (w : Nat) : Option ShOp :=
  if w = 0 then some .nop
  else if w % 8 = 1 ∧ w / 8 < 256 then some (.pass (w / 8)) else none

/-- Encoding of R294. -/
def encodeMv : MvOp → Nat
  | .nop => 0
  | .dma rcd e r c => 1 + rcd * 2 ^ 4 + e * 2 ^ 12 + r * 2 ^ 16 + c * 2 ^ 20
  | .move rcd e r c => 2 + rcd * 2 ^ 4 + e * 2 ^ 12 + r * 2 ^ 16 + c * 2 ^ 20

/-- Decoding of the move slot. -/
def decodeMv (w : Nat) : Option MvOp :=
  let rcd := bitsOf w 11 4
  let e := bitsOf w 15 12
  let r := bitsOf w 19 16
  let c := bitsOf w 23 20
  if w = 0 then some .nop
  else if 2 ^ 24 ≤ w then none
  else if w % 16 = 1 then some (.dma rcd e r c)
  else if w % 16 = 2 then some (.move rcd e r c)
  else none

/-- The C form of R299. -/
def cForm (op ixd ixa : Nat) (imm : Int) : Nat := op + ixd * 2 ^ 5 + ixa * 2 ^ 9 + unsext 27 imm * 2 ^ 13
/-- The E form of R299. -/
def eForm (op ctr dst scope imm : Nat) : Nat := op + ctr * 2 ^ 5 + dst * 2 ^ 11 + scope * 2 ^ 16 + imm * 2 ^ 19

/-- Encoding of Table 10.13. -/
def encodeCt : CtOp → Nat
  | .nop => 0
  | .halt => 1
  | .jmp imm => cForm 2 0 0 imm
  | .bnz ixa imm => cForm 3 0 ixa imm
  | .bz ixa imm => cForm 4 0 ixa imm
  | .ixset ixd imm => cForm 5 ixd 0 imm
  | .ixadd ixd ixa imm => cForm 6 ixd ixa imm
  | .ixldp ixd imm => cForm 7 ixd 0 imm
  | .decbnz ixd imm => cForm 8 ixd 0 imm
  | .evinc ctr dst scope imm => eForm 9 ctr dst scope imm
  | .evset ctr dst imm => eForm 10 ctr dst 0 imm
  | .evwait ctr dst imm => eForm 11 ctr dst 0 imm
  | .fence scope => eForm 12 0 0 scope 0

/-- A signed 27-bit immediate. -/
def immOk (i : Int) : Bool := decide (-(2 ^ 26) ≤ i ∧ i < 2 ^ 26)

/-- Legal operand values of the control slot; scopes 6 and 7 are reserved (Table 10.15). -/
def CtOp.ok : CtOp → Bool
  | .nop => true
  | .halt => true
  | .jmp i => immOk i
  | .bnz a i => decide (a < 16) && immOk i
  | .bz a i => decide (a < 16) && immOk i
  | .ixset d i => decide (d < 16) && immOk i
  | .ixadd d a i => decide (d < 16 ∧ a < 16) && immOk i
  | .ixldp d i => decide (d < 16) && immOk i
  | .decbnz d i => decide (d < 16) && immOk i
  | .evinc c d sc i => decide (c < 64 ∧ d < 32 ∧ sc < 6 ∧ i < 2 ^ 21)
  | .evset c d i => decide (c < 64 ∧ d < 32 ∧ i < 2 ^ 21)
  | .evwait c d i => decide (c < 64 ∧ d < 32 ∧ i < 2 ^ 21)
  | .fence sc => decide (sc < 6)

/-- The operation that a slot value of R299 names. -/
def ctFields (w : Nat) : Option CtOp :=
  let ixd := bitsOf w 8 5
  let ixa := bitsOf w 12 9
  let imm := sext 27 (bitsOf w 39 13)
  let ctr := bitsOf w 10 5
  let dst := bitsOf w 15 11
  let scope := bitsOf w 18 16
  let em := bitsOf w 39 19
  match bitsOf w 4 0 with
  | 0 => some .nop
  | 1 => some .halt
  | 2 => some (.jmp imm)
  | 3 => some (.bnz ixa imm)
  | 4 => some (.bz ixa imm)
  | 5 => some (.ixset ixd imm)
  | 6 => some (.ixadd ixd ixa imm)
  | 7 => some (.ixldp ixd imm)
  | 8 => some (.decbnz ixd imm)
  | 9 => some (.evinc ctr dst scope em)
  | 10 => some (.evset ctr dst em)
  | 11 => some (.evwait ctr dst em)
  | 12 => some (.fence scope)
  | _ => none

/-- Decoding of the control slot. -/
def decodeCt (w : Nat) : Option CtOp :=
  match ctFields w with
  | some op => if encodeCt op = w ∧ op.ok then some op else none
  | none => none

/-- The 256-bit bundle (Table 10.5). -/
def encodeBundle (b : Bundle) : Nat :=
  encodeMu b.mu + encodeVu b.vu * 2 ^ 64 + encodeSv b.sv * 2 ^ 112 + encodeSh b.sh * 2 ^ 152 + encodeMv b.mv * 2 ^ 168 +
    encodeCt b.ct * 2 ^ 216

/-- The slot in Table 10.5 order whose value is illegal, or the bundle. -/
def decodeBundle (n : Nat) : Except Nat Bundle :=
  match decodeMu (bitsOf n 63 0), decodeVu (bitsOf n 111 64), decodeSv (bitsOf n 151 112), decodeSh (bitsOf n 167 152),
      decodeMv (bitsOf n 215 168), decodeCt (bitsOf n 255 216) with
  | some a, some b, some c, some d, some e, some f => .ok ⟨a, b, c, d, e, f⟩
  | none, _, _, _, _, _ => .error 0
  | _, none, _, _, _, _ => .error 1
  | _, _, none, _, _, _ => .error 2
  | _, _, _, none, _, _ => .error 3
  | _, _, _, _, none, _ => .error 4
  | _, _, _, _, _, none => .error 5

end Sys2Proof.Machine
end

