-- ==== Sys2Proof/Machine/Regs.lean ====
section
/-!
DEFINITION. The software-visible registers of every block, one definition per field. A field is named
by the bit address of its lowest bit in the control-complex address map (Table 17.1), its width and its reset value.
The offsets, bit places and reset values are those of the spec's register tables; each block's rule stands in the docstring.
-/

namespace Sys2Proof.Machine

/-- A register field: the absolute bit address of its lowest bit (8 times the byte address, plus the bit), its width and
its reset value. -/
structure Fld where
  bit : Nat
  w   : Nat
  rst : Nat
  deriving DecidableEq, Repr

namespace Reg

/-- Base of cluster `n`'s blocks (Table 17.1, R444). -/
def clusterB (n : Nat) : Nat := 0x020000000000 + 0x40000 * n
/-- Base of region `r`'s blocks (Table 17.1). -/
def regionB (r : Nat) : Nat := 0x020004000000 + 0x10000 * r
/-- Base of die `d`'s blocks (Table 17.1). -/
def dieB (d : Nat) : Nat := 0x020004400000 + 0x20000 * d
/-- Base of stack `k`'s HBM_ block (Table 17.1). -/
def stackB (k : Nat) : Nat := dieB (k / 3) + 0x18000 + 0x1000 * (k % 3)
/-- Base of the IO die's blocks (Table 17.1). -/
def iodB : Nat := 0x020005000000
/-- Base of core `c`'s CSRs. CSRs have numbers and no address (Table 10.18); the model keys CSR n of core c at this base
plus 8 n, in a range that Table 17.1 does not map. DESIGN CHOICE (log 5). -/
def coreB (c : Nat) : Nat := 0x030000000000 + 0x10000 * c
/-- Base of the model's own internal fields (state the spec describes without a register). DESIGN CHOICE (log 5). -/
def intB : Nat := 0x040000000000
/-- Reset of the slot tables: slot 4w + j owned by management when 4w + j is a multiple of 16 (R365), free otherwise. -/
def arbSlotRst (w : Nat) : Nat := if w % 4 = 0 then 0xFFFFFFFE else 0xFFFFFFFF
/-- Reset of ARB_REQ_CFG[n].PRIO (Tables 13.4, 13.5, 13.8): P1 for the cluster ports, P2 for the DMA channels and the stash
writer, and 3 for the copy engine, which inherits. The ingress leaves carry their transfers' own priorities and read 3 too
(DESIGN CHOICE, log 9). -/
def arbPrioRst (n : Nat) : Nat := if n < 64 then 1 else if n ≤ 80 then 2 else 3

/-- R133: SP_SBE_CNT.COUNT [31:0], RO/V: words corrected in bank b. -/
def SP_SBE_CNT_COUNT (c b : Nat) : Fld := ⟨8 * (clusterB c + 0x000+4 * b) + 0, 32, 0⟩
/-- R133: SP_REBUILD_CNT.COUNT [31:0], RO/V: rebuilds in bank b, data and parity words. -/
def SP_REBUILD_CNT_COUNT (c b : Nat) : Fld := ⟨8 * (clusterB c + 0x100+4 * b) + 0, 32, 0⟩
/-- R133: SP_UE_CNT.COUNT [15:0], RO/V: uncorrectable accesses in the cluster's banks. -/
def SP_UE_CNT_COUNT (c : Nat) : Fld := ⟨8 * (clusterB c + 0x200) + 0, 16, 0⟩
/-- R133: SP_ROW_LOG.ROW [12:0], RO/V: logical row of logged event n; entry 0 is the newest. -/
def SP_ROW_LOG_ROW (c n : Nat) : Fld := ⟨8 * (clusterB c + 0x240+4 * n) + 0, 13, 0⟩
/-- R133: SP_ROW_LOG.BANK [18:13], RO/V: bank of event n. -/
def SP_ROW_LOG_BANK (c n : Nat) : Fld := ⟨8 * (clusterB c + 0x240+4 * n) + 13, 6, 0⟩
/-- R133: SP_ROW_LOG.KIND [20:19], RO/V: 1 data rebuild, 2 parity rebuild, 3 uncorrectable. -/
def SP_ROW_LOG_KIND (c n : Nat) : Fld := ⟨8 * (clusterB c + 0x240+4 * n) + 19, 2, 0⟩
/-- R133: SP_ROW_LOG.VALID [31:31], RO/V: 1: entry holds an event. -/
def SP_ROW_LOG_VALID (c n : Nat) : Fld := ⟨8 * (clusterB c + 0x240+4 * n) + 31, 1, 0⟩
/-- R133: SP_STRETCH_CNT.CONFLICT [15:0], RO/V: stretch ic in which this cluster's banks set the maximum through conflicts (A_b > 1). -/
def SP_STRETCH_CNT_CONFLICT (c : Nat) : Fld := ⟨8 * (clusterB c + 0x280) + 0, 16, 0⟩
/-- R133: SP_STRETCH_CNT.REBUILD [31:16], RO/V: stretch ic in which this cluster's banks set the maximum through rebuilds. -/
def SP_STRETCH_CNT_REBUILD (c : Nat) : Fld := ⟨8 * (clusterB c + 0x280) + 16, 16, 0⟩
/-- R133: SP_REMOTE_WAIT.COUNT [31:0], RO/V: ic spent by remote requests waiting for a bank. -/
def SP_REMOTE_WAIT_COUNT (c : Nat) : Fld := ⟨8 * (clusterB c + 0x288) + 0, 32, 0⟩
/-- R133: SP_ACC_EVT.SAT [15:0], RO/V: SAT events of ACC_WRITE. -/
def SP_ACC_EVT_SAT (c : Nat) : Fld := ⟨8 * (clusterB c + 0x290) + 0, 16, 0⟩
/-- R133: SP_ACC_EVT.UFLOW [31:16], RO/V: UFLOW events of ACC_WRITE. -/
def SP_ACC_EVT_UFLOW (c : Nat) : Fld := ⟨8 * (clusterB c + 0x290) + 16, 16, 0⟩
/-- R133: SP_ACC_ACC40.FTZ [15:0], RO/V: ACC_FTZ events of ACC_WRITE. -/
def SP_ACC_ACC40_FTZ (c : Nat) : Fld := ⟨8 * (clusterB c + 0x294) + 0, 16, 0⟩
/-- R133: SP_ACC_ACC40.OVF [31:16], RO/V: ACC_OVF events of ACC_WRITE. -/
def SP_ACC_ACC40_OVF (c : Nat) : Fld := ⟨8 * (clusterB c + 0x294) + 16, 16, 0⟩
/-- R133: SP_MAPOUT_CTL.ROW [12:0], RW: logical row to map out. -/
def SP_MAPOUT_CTL_ROW (c : Nat) : Fld := ⟨8 * (clusterB c + 0x300) + 0, 13, 0⟩
/-- R133: SP_MAPOUT_CTL.BANK [18:13], RW: bank of the row. -/
def SP_MAPOUT_CTL_BANK (c : Nat) : Fld := ⟨8 * (clusterB c + 0x300) + 13, 6, 0⟩
/-- R133: SP_MAPOUT_CTL.GO [31:31], W1S: request map-out; reads 1 until done. -/
def SP_MAPOUT_CTL_GO (c : Nat) : Fld := ⟨8 * (clusterB c + 0x300) + 31, 1, 0⟩
/-- R133: SP_MAPOUT_STAT.STATUS [2:0], RO/V: 0 done, 1 pending, 2 SPARE_EXHAUSTED, 3 REMAP_BUSY. -/
def SP_MAPOUT_STAT_STATUS (c : Nat) : Fld := ⟨8 * (clusterB c + 0x304) + 0, 3, 0⟩
/-- R133: SP_MAPOUT_STAT.SPARE [15:8], RO/V: spare used by the last map-out. -/
def SP_MAPOUT_STAT_SPARE (c : Nat) : Fld := ⟨8 * (clusterB c + 0x304) + 8, 8, 0⟩
/-- R133: SP_CNT_CLR.CLR [0:0], W1S: clear all counts of the cluster; reads 0. -/
def SP_CNT_CLR_CLR (c : Nat) : Fld := ⟨8 * (clusterB c + 0x30C) + 0, 1, 0⟩
/-- R133: SP_SPARE_USED.COUNT [8:0], RO/V: valid remap entries of bank b, 0–256. -/
def SP_SPARE_USED_COUNT (c b : Nat) : Fld := ⟨8 * (clusterB c + 0x400+4 * b) + 0, 9, 0⟩
/-- R133: SP_REMAP.LROW [12:0], RW: logical row replaced by spare e. -/
def SP_REMAP_LROW (c b e : Nat) : Fld := ⟨8 * (clusterB c + 0x10000+1024 * b+4 * e) + 0, 13, 0⟩
/-- R133: SP_REMAP.VALID [31:31], RW: 1: entry in force. -/
def SP_REMAP_VALID (c b e : Nat) : Fld := ⟨8 * (clusterB c + 0x10000+1024 * b+4 * e) + 31, 1, 0⟩
/-- R133: SP_ZERO_CTL.GO [0:0], W1S: start zeroisation of the region. -/
def SP_ZERO_CTL_GO (r : Nat) : Fld := ⟨8 * (regionB r + 0x000) + 0, 1, 0⟩
/-- R133: SP_ZERO_STAT.BUSY [0:0], RO/V: 1 during zeroisation. -/
def SP_ZERO_STAT_BUSY (r : Nat) : Fld := ⟨8 * (regionB r + 0x004) + 0, 1, 0⟩
/-- R133: SP_ZERO_STAT.DONE_CNT [31:16], RO/V: zeroisations completed since reset. -/
def SP_ZERO_STAT_DONE_CNT (r : Nat) : Fld := ⟨8 * (regionB r + 0x004) + 16, 16, 0⟩
/-- R163: MU_SAT_CNT.COUNT [31:0], RO/V: SAT events of the drain's live conversion. -/
def MU_SAT_CNT_COUNT (c m : Nat) : Fld := ⟨8 * (clusterB c + 0x20000 + 0x000+0x100 * m) + 0, 32, 0⟩
/-- R163: MU_INFCLAMP_CNT.COUNT [31:0], RO/V: INF_CLAMP events. -/
def MU_INFCLAMP_CNT_COUNT (c m : Nat) : Fld := ⟨8 * (clusterB c + 0x20000 + 0x004+0x100 * m) + 0, 32, 0⟩
/-- R163: MU_NANBLK_CNT.COUNT [31:0], RO/V: NAN_BLOCK events. -/
def MU_NANBLK_CNT_COUNT (c m : Nat) : Fld := ⟨8 * (clusterB c + 0x20000 + 0x008+0x100 * m) + 0, 32, 0⟩
/-- R163: MU_UFLOW_CNT.COUNT [31:0], RO/V: UFLOW events, including the FP32 rounding of stage 2. -/
def MU_UFLOW_CNT_COUNT (c m : Nat) : Fld := ⟨8 * (clusterB c + 0x20000 + 0x00C+0x100 * m) + 0, 32, 0⟩
/-- R163: MU_FTZ_CNT.COUNT [31:0], RO/V: ACC_FTZ events of products and additions. -/
def MU_FTZ_CNT_COUNT (c m : Nat) : Fld := ⟨8 * (clusterB c + 0x20000 + 0x010+0x100 * m) + 0, 32, 0⟩
/-- R163: MU_OVF_CNT.COUNT [31:0], RO/V: ACC_OVF events of products and additions. -/
def MU_OVF_CNT_COUNT (c m : Nat) : Fld := ⟨8 * (clusterB c + 0x20000 + 0x014+0x100 * m) + 0, 32, 0⟩
/-- R163: MU_CHAIN_STAT.LONG [3:0], W1C: bit t: tile t exceeded 65,536 terms (R143). -/
def MU_CHAIN_STAT_LONG (c m : Nat) : Fld := ⟨8 * (clusterB c + 0x20000 + 0x018+0x100 * m) + 0, 4, 0⟩
/-- R163: MU_CHAIN_STAT.LONG_CNT [31:16], RO/V: number of times a tile exceeded 65,536 terms. -/
def MU_CHAIN_STAT_LONG_CNT (c m : Nat) : Fld := ⟨8 * (clusterB c + 0x20000 + 0x018+0x100 * m) + 16, 16, 0⟩
/-- R163: MU_BUSY_LO.COUNT [31:0], RO/V: ic in which the array was occupied, bits [31:0]. -/
def MU_BUSY_LO_COUNT (c m : Nat) : Fld := ⟨8 * (clusterB c + 0x20000 + 0x01C+0x100 * m) + 0, 32, 0⟩
/-- R163: MU_BUSY_HI.COUNT [15:0], RO/V: the same count, bits [47:32]. -/
def MU_BUSY_HI_COUNT (c m : Nat) : Fld := ⟨8 * (clusterB c + 0x20000 + 0x020+0x100 * m) + 0, 16, 0⟩
/-- R163: MU_FAULT.CODE [1:0], RO/V: last fault: 0 none, 1 MU_ACC_BUSY, 2 MU_SLOT_BUSY. -/
def MU_FAULT_CODE (c m : Nat) : Fld := ⟨8 * (clusterB c + 0x20000 + 0x024+0x100 * m) + 0, 2, 0⟩
/-- R163: MU_FAULT.TILE [5:4], RO/V: tile or slot concerned. -/
def MU_FAULT_TILE (c m : Nat) : Fld := ⟨8 * (clusterB c + 0x20000 + 0x024+0x100 * m) + 4, 2, 0⟩
/-- R163: MU_FAULT.IC [31:8], RO/V: low 24 bits of the launch-relative ic of the faulting issue. -/
def MU_FAULT_IC (c m : Nat) : Fld := ⟨8 * (clusterB c + 0x20000 + 0x024+0x100 * m) + 8, 24, 0⟩
/-- R163: MU_CNT_CLR.CLR [0:0], W1S: clear the cluster's MU_ counts and flags; reads 0. -/
def MU_CNT_CLR_CLR (c : Nat) : Fld := ⟨8 * (clusterB c + 0x20000 + 0x400) + 0, 1, 0⟩
/-- R213: SV_IDX_DROPPED.COUNT [31:0], RO/V: entries dropped as duplicates or outside the window (R198). -/
def SV_IDX_DROPPED_COUNT (c : Nat) : Fld := ⟨8 * (clusterB c + 0x21000 + 0x000) + 0, 32, 0⟩
/-- R213: SV_TILE_MALFORMED.COUNT [31:0], RO/V: tiles malformed as a whole, built as ZERO. -/
def SV_TILE_MALFORMED_COUNT (c : Nat) : Fld := ⟨8 * (clusterB c + 0x21000 + 0x004) + 0, 32, 0⟩
/-- R213: SV_STAT.IDX [0:0], W1C: sticky: an entry was dropped. -/
def SV_STAT_IDX (c : Nat) : Fld := ⟨8 * (clusterB c + 0x21000 + 0x008) + 0, 1, 0⟩
/-- R213: SV_STAT.TILE [1:1], W1C: sticky: a malformed tile was read. -/
def SV_STAT_TILE (c : Nat) : Fld := ⟨8 * (clusterB c + 0x21000 + 0x008) + 1, 1, 0⟩
/-- R213: SV_STAT.HOLD [2:2], W1C: sticky: a Sieve hold occurred. -/
def SV_STAT_HOLD (c : Nat) : Fld := ⟨8 * (clusterB c + 0x21000 + 0x008) + 2, 1, 0⟩
/-- R213: SV_STAT.CEN_LOST [3:3], W1C: sticky: a census word fell outside its handle. -/
def SV_STAT_CEN_LOST (c : Nat) : Fld := ⟨8 * (clusterB c + 0x21000 + 0x008) + 3, 1, 0⟩
/-- R213: SV_FAULT_EN.IDX [0:0], RW: 1: a dropped entry faults the launch with SV_IDX. -/
def SV_FAULT_EN_IDX (c : Nat) : Fld := ⟨8 * (clusterB c + 0x21000 + 0x00C) + 0, 1, 0⟩
/-- R213: SV_FAULT_EN.TILE [1:1], RW: 1: a malformed tile faults the launch with SV_TILE. -/
def SV_FAULT_EN_TILE (c : Nat) : Fld := ⟨8 * (clusterB c + 0x21000 + 0x00C) + 1, 1, 0⟩
/-- R213: SV_HOLD_CNT.READY [15:0], RO/V: clock periods held for readiness (R208). -/
def SV_HOLD_CNT_READY (c : Nat) : Fld := ⟨8 * (clusterB c + 0x21000 + 0x010) + 0, 16, 0⟩
/-- R213: SV_HOLD_CNT.OVERRUN [31:16], RO/V: clock periods held for overrun (R207). -/
def SV_HOLD_CNT_OVERRUN (c : Nat) : Fld := ⟨8 * (clusterB c + 0x21000 + 0x010) + 16, 16, 0⟩
/-- R213: SV_OVERRUN_CNT.COUNT [31:0], RO/V: SMMAs with O > BUDGET. -/
def SV_OVERRUN_CNT_COUNT (c : Nat) : Fld := ⟨8 * (clusterB c + 0x21000 + 0x014) + 0, 32, 0⟩
/-- R213: SV_PAIRS_LO.COUNT [31:0], RO/V: pairs delivered, bits [31:0]. -/
def SV_PAIRS_LO_COUNT (c : Nat) : Fld := ⟨8 * (clusterB c + 0x21000 + 0x018) + 0, 32, 0⟩
/-- R213: SV_PAIRS_HI.COUNT [15:0], RO/V: pairs delivered, bits [47:32]. -/
def SV_PAIRS_HI_COUNT (c : Nat) : Fld := ⟨8 * (clusterB c + 0x21000 + 0x01C) + 0, 16, 0⟩
/-- R213: SV_ZSKIP.COUNT [31:0], RO/V: pairs skipped by zero-map liveness. -/
def SV_ZSKIP_COUNT (c : Nat) : Fld := ⟨8 * (clusterB c + 0x21000 + 0x020) + 0, 32, 0⟩
/-- R213: SV_FAULT.CODE [2:0], RO/V: last fault: 0 none, 1 SV_IDX, 2 SV_TILE, 3 SV_BUSY, 4 SV_PAGE_EMPTY, 5 SV_UE. -/
def SV_FAULT_CODE (c : Nat) : Fld := ⟨8 * (clusterB c + 0x21000 + 0x024) + 0, 3, 0⟩
/-- R213: SV_FAULT.MU [5:4], RO/V: MU concerned. -/
def SV_FAULT_MU (c : Nat) : Fld := ⟨8 * (clusterB c + 0x21000 + 0x024) + 4, 2, 0⟩
/-- R213: SV_FAULT.IC [31:8], RO/V: low 24 bits of the launch-relative ic of the fault. -/
def SV_FAULT_IC (c : Nat) : Fld := ⟨8 * (clusterB c + 0x21000 + 0x024) + 8, 24, 0⟩
/-- R213: SV_DROP_LOG.ROW [5:0], RO/V: stored row of dropped entry n; entry 0 is the newest. -/
def SV_DROP_LOG_ROW (c n : Nat) : Fld := ⟨8 * (clusterB c + 0x21000 + 0x040+4 * n) + 0, 6, 0⟩
/-- R213: SV_DROP_LOG.COL [11:6], RO/V: stored column of the entry. -/
def SV_DROP_LOG_COL (c n : Nat) : Fld := ⟨8 * (clusterB c + 0x21000 + 0x040+4 * n) + 6, 6, 0⟩
/-- R213: SV_DROP_LOG.MU [13:12], RO/V: MU whose page was built. -/
def SV_DROP_LOG_MU (c n : Nat) : Fld := ⟨8 * (clusterB c + 0x21000 + 0x040+4 * n) + 12, 2, 0⟩
/-- R213: SV_DROP_LOG.KIND [15:14], RO/V: 1 duplicate, 2 outside window, 3 whole tile malformed. -/
def SV_DROP_LOG_KIND (c n : Nat) : Fld := ⟨8 * (clusterB c + 0x21000 + 0x040+4 * n) + 14, 2, 0⟩
/-- R213: SV_DROP_LOG.VALID [31:31], RO/V: 1: entry holds an event. -/
def SV_DROP_LOG_VALID (c n : Nat) : Fld := ⟨8 * (clusterB c + 0x21000 + 0x040+4 * n) + 31, 1, 0⟩
/-- R213: SV_CNT_CLR.CLR [0:0], W1S: clear the cluster's SV_ counts, flags and log; reads 0. -/
def SV_CNT_CLR_CLR (c : Nat) : Fld := ⟨8 * (clusterB c + 0x21000 + 0x080) + 0, 1, 0⟩
/-- R240: SH_NM_EXCESS.COUNT [31:0], RO/V: entries dropped as N:M excess (R183). -/
def SH_NM_EXCESS_COUNT (c : Nat) : Fld := ⟨8 * (clusterB c + 0x22000 + 0x000) + 0, 32, 0⟩
/-- R240: SH_CAP_REFUSED.COUNT [31:0], RO/V: groups left unchanged for lack of slot capacity (R222). -/
def SH_CAP_REFUSED_COUNT (c : Nat) : Fld := ⟨8 * (clusterB c + 0x22000 + 0x004) + 0, 32, 0⟩
/-- R240: SH_TILE_MALFORMED.COUNT [31:0], RO/V: groups left unchanged because the weight tile was malformed. -/
def SH_TILE_MALFORMED_COUNT (c : Nat) : Fld := ⟨8 * (clusterB c + 0x22000 + 0x008) + 0, 32, 0⟩
/-- R240: SH_COMP_MISMATCH.COUNT [31:0], RO/V: groups left unchanged because a companion was malformed or not aligned. -/
def SH_COMP_MISMATCH_COUNT (c : Nat) : Fld := ⟨8 * (clusterB c + 0x22000 + 0x00C) + 0, 32, 0⟩
/-- R240: SH_PRUNED.COUNT [31:0], RO/V: entries removed by choice. -/
def SH_PRUNED_COUNT (c : Nat) : Fld := ⟨8 * (clusterB c + 0x22000 + 0x010) + 0, 32, 0⟩
/-- R240: SH_GROWN.COUNT [31:0], RO/V: positions grown. -/
def SH_GROWN_COUNT (c : Nat) : Fld := ⟨8 * (clusterB c + 0x22000 + 0x014) + 0, 32, 0⟩
/-- R240: SH_SHORTFALL.COUNT [31:0], RO/V: growth or swaps asked for but not supplied. -/
def SH_SHORTFALL_COUNT (c : Nat) : Fld := ⟨8 * (clusterB c + 0x22000 + 0x018) + 0, 32, 0⟩
/-- R240: SH_NAN_CNT.COUNT [31:0], RO/V: NaN criteria and non-finite gradient candidates met. -/
def SH_NAN_CNT_COUNT (c : Nat) : Fld := ⟨8 * (clusterB c + 0x22000 + 0x01C) + 0, 32, 0⟩
/-- R240: SH_SAT_CNT.COUNT [31:0], RO/V: SAT events of initial-value conversion. -/
def SH_SAT_CNT_COUNT (c : Nat) : Fld := ⟨8 * (clusterB c + 0x22000 + 0x020) + 0, 32, 0⟩
/-- R240: SH_UFLOW_CNT.COUNT [31:0], RO/V: UFLOW events of initial-value conversion. -/
def SH_UFLOW_CNT_COUNT (c : Nat) : Fld := ⟨8 * (clusterB c + 0x22000 + 0x024) + 0, 32, 0⟩
/-- R240: SH_TILES_DONE.COUNT [31:0], RO/V: groups processed, whether changed, unchanged or left as found. -/
def SH_TILES_DONE_COUNT (c : Nat) : Fld := ⟨8 * (clusterB c + 0x22000 + 0x028) + 0, 32, 0⟩
/-- R240: SH_STAT.TILE [0:0], W1C: sticky: a malformed weight tile was met. -/
def SH_STAT_TILE (c : Nat) : Fld := ⟨8 * (clusterB c + 0x22000 + 0x02C) + 0, 1, 0⟩
/-- R240: SH_STAT.COMP [1:1], W1C: sticky: a companion mismatch was met. -/
def SH_STAT_COMP (c : Nat) : Fld := ⟨8 * (clusterB c + 0x22000 + 0x02C) + 1, 1, 0⟩
/-- R240: SH_STAT.CAP [2:2], W1C: sticky: a group was refused for capacity. -/
def SH_STAT_CAP (c : Nat) : Fld := ⟨8 * (clusterB c + 0x22000 + 0x02C) + 2, 1, 0⟩
/-- R240: SH_STAT.TRUNC [3:3], W1C: sticky: N:M excess was dropped. -/
def SH_STAT_TRUNC (c : Nat) : Fld := ⟨8 * (clusterB c + 0x22000 + 0x02C) + 3, 1, 0⟩
/-- R240: SH_FAULT_EN.TILE [0:0], RW: 1: a malformed weight tile faults the launch with SH_TILE. -/
def SH_FAULT_EN_TILE (c : Nat) : Fld := ⟨8 * (clusterB c + 0x22000 + 0x030) + 0, 1, 0⟩
/-- R240: SH_FAULT_EN.COMP [1:1], RW: 1: a companion mismatch faults the launch with SH_COMP. -/
def SH_FAULT_EN_COMP (c : Nat) : Fld := ⟨8 * (clusterB c + 0x22000 + 0x030) + 1, 1, 0⟩
/-- R240: SH_FAULT_EN.CAP [2:2], RW: 1: a capacity refusal faults the launch with SH_CAP. -/
def SH_FAULT_EN_CAP (c : Nat) : Fld := ⟨8 * (clusterB c + 0x22000 + 0x030) + 2, 1, 0⟩
/-- R240: SH_FAULT.CODE [2:0], RO/V: last fault: 0 none, 1 SH_TILE, 2 SH_COMP, 3 SH_CAP, 4 SH_BUSY. -/
def SH_FAULT_CODE (c : Nat) : Fld := ⟨8 * (clusterB c + 0x22000 + 0x034) + 0, 3, 0⟩
/-- R240: SH_FAULT.IC [31:8], RO/V: low 24 bits of the launch-relative ic of the fault. -/
def SH_FAULT_IC (c : Nat) : Fld := ⟨8 * (clusterB c + 0x22000 + 0x034) + 8, 24, 0⟩
/-- R240: SH_REFUSE_LOG.TILE [23:0], RO/V: tile index as counted by TFIRST; entry 0 is the newest. -/
def SH_REFUSE_LOG_TILE (c n : Nat) : Fld := ⟨8 * (clusterB c + 0x22000 + 0x040+4 * n) + 0, 24, 0⟩
/-- R240: SH_REFUSE_LOG.KIND [29:28], RO/V: 1 capacity, 2 malformed weight tile, 3 companion mismatch. -/
def SH_REFUSE_LOG_KIND (c n : Nat) : Fld := ⟨8 * (clusterB c + 0x22000 + 0x040+4 * n) + 28, 2, 0⟩
/-- R240: SH_REFUSE_LOG.VALID [31:31], RO/V: 1: entry holds an event. -/
def SH_REFUSE_LOG_VALID (c n : Nat) : Fld := ⟨8 * (clusterB c + 0x22000 + 0x040+4 * n) + 31, 1, 0⟩
/-- R240: SH_CNT_CLR.CLR [0:0], W1S: clear the cluster's SH_ counts, flags and log; reads 0. -/
def SH_CNT_CLR_CLR (c : Nat) : Fld := ⟨8 * (clusterB c + 0x22000 + 0x080) + 0, 1, 0⟩
/-- R273: STD_POOL_BASE.ADDR [47:0], RW: pool start, a multiple of 64, within the populated window of HS(3d + s). -/
def STD_POOL_BASE_ADDR (d s : Nat) : Fld := ⟨8 * (dieB d + 0x8000+0x20 * s) + 0, 48, 0⟩
/-- R273: STD_POOL_LIM.ADDR [47:0], RW: pool end, exclusive; equal to the base for an empty pool. -/
def STD_POOL_LIM_ADDR (d s : Nat) : Fld := ⟨8 * (dieB d + 0x8008+0x20 * s) + 0, 48, 0⟩
/-- R273: STD_POOL_TOP.ADDR [47:0], RO/V: pool top under R262. -/
def STD_POOL_TOP_ADDR (d s : Nat) : Fld := ⟨8 * (dieB d + 0x8010+0x20 * s) + 0, 48, 0⟩
/-- R273: STD_CMD.OP [2:0], WO: 1 OPEN, 2 CLOSE, 3 MARK, 4 FREE; other values return STD_PARAM. -/
def STD_CMD_OP (d : Nat) : Fld := ⟨8 * (dieB d + 0x8100) + 0, 3, 0⟩
/-- R273: STD_CMD.ENTRY [13:4], WO: entry number. -/
def STD_CMD_ENTRY (d : Nat) : Fld := ⟨8 * (dieB d + 0x8100) + 4, 10, 0⟩
/-- R273: STD_CMD.STACK [17:16], WO: pool for OPEN. -/
def STD_CMD_STACK (d : Nat) : Fld := ⟨8 * (dieB d + 0x8100) + 16, 2, 0⟩
/-- R273: STD_CMD.MAPS [18:18], WO: MAPS for OPEN. -/
def STD_CMD_MAPS (d : Nat) : Fld := ⟨8 * (dieB d + 0x8100) + 18, 1, 0⟩
/-- R273: STD_CMD.LFMT [23:20], WO: live format for OPEN. -/
def STD_CMD_LFMT (d : Nat) : Fld := ⟨8 * (dieB d + 0x8100) + 20, 4, 0⟩
/-- R273: STD_CMD.TENANT [31:24], WO: tenant for OPEN. -/
def STD_CMD_TENANT (d : Nat) : Fld := ⟨8 * (dieB d + 0x8100) + 24, 8, 0⟩
/-- R273: STD_ARG_ROWS.ROWS [31:0], RW: R for OPEN. -/
def STD_ARG_ROWS_ROWS (d : Nat) : Fld := ⟨8 * (dieB d + 0x8104) + 0, 32, 0⟩
/-- R273: STD_ARG_COLS.COLS [31:0], RW: C for OPEN. -/
def STD_ARG_COLS_COLS (d : Nat) : Fld := ⟨8 * (dieB d + 0x8108) + 0, 32, 0⟩
/-- R273: STD_CMD_STAT.STATUS [2:0], RO/V: 0 DONE, 1 STD_STATE, 2 STD_OWNER, 3 STD_BUSY, 4 STD_PARAM, 5 POOL. -/
def STD_CMD_STAT_STATUS (d : Nat) : Fld := ⟨8 * (dieB d + 0x810C) + 0, 3, 0⟩
/-- R273: STD_CMD_STAT.PEND [31:31], RO/V: 1 while a command executes. -/
def STD_CMD_STAT_PEND (d : Nat) : Fld := ⟨8 * (dieB d + 0x810C) + 31, 1, 0⟩
/-- R273: STD_REFUSED.COUNT [31:0], RO/V: tile writes refused or discarded. -/
def STD_REFUSED_COUNT (d : Nat) : Fld := ⟨8 * (dieB d + 0x8200) + 0, 32, 0⟩
/-- R273: STD_OPEN_REFUSED.COUNT [31:0], RO/V: OPENs that found no room. -/
def STD_OPEN_REFUSED_COUNT (d : Nat) : Fld := ⟨8 * (dieB d + 0x8204) + 0, 32, 0⟩
/-- R273: STD_NOT_STASHED.COUNT [31:0], RO/V: changes of an entry to NOT_STASHED. -/
def STD_NOT_STASHED_COUNT (d : Nat) : Fld := ⟨8 * (dieB d + 0x8208) + 0, 32, 0⟩
/-- R273: STD_WR_LO.COUNT [31:0], RO/V: bytes written to images, bits [31:0]. -/
def STD_WR_LO_COUNT (d : Nat) : Fld := ⟨8 * (dieB d + 0x820C) + 0, 32, 0⟩
/-- R273: STD_WR_HI.COUNT [15:0], RO/V: the same count, bits [47:32]. -/
def STD_WR_HI_COUNT (d : Nat) : Fld := ⟨8 * (dieB d + 0x8210) + 0, 16, 0⟩
/-- R273: STD_CVT_SAT.COUNT [31:0], RO/V: SAT events of stash conversions (R585). -/
def STD_CVT_SAT_COUNT (d : Nat) : Fld := ⟨8 * (dieB d + 0x8214) + 0, 32, 0⟩
/-- R273: STD_CVT_NANBLK.COUNT [31:0], RO/V: NAN_BLOCK events of stash conversions. -/
def STD_CVT_NANBLK_COUNT (d : Nat) : Fld := ⟨8 * (dieB d + 0x8218) + 0, 32, 0⟩
/-- R273: STD_CVT_UFLOW.COUNT [31:0], RO/V: UFLOW events of stash conversions. -/
def STD_CVT_UFLOW_COUNT (d : Nat) : Fld := ⟨8 * (dieB d + 0x821C) + 0, 32, 0⟩
/-- R273: STD_HOLD_CNT.COUNT [31:0], RO/V: clock periods that region r was held by its stash share. -/
def STD_HOLD_CNT_COUNT (d r : Nat) : Fld := ⟨8 * (dieB d + 0x8240+4 * r) + 0, 32, 0⟩
/-- R273: STD_REFUSE_LOG.ENTRY [9:0], RO/V: entry of refusal n; entry 0 is the newest. -/
def STD_REFUSE_LOG_ENTRY (d n : Nat) : Fld := ⟨8 * (dieB d + 0x8280+4 * n) + 0, 10, 0⟩
/-- R273: STD_REFUSE_LOG.REASON [14:12], RO/V: 2 RANGE, 5 write to NOT_STASHED, 6 OPEN without room, 7 stack LOST. -/
def STD_REFUSE_LOG_REASON (d n : Nat) : Fld := ⟨8 * (dieB d + 0x8280+4 * n) + 12, 3, 0⟩
/-- R273: STD_REFUSE_LOG.REGION [18:16], RO/V: region of the writer. -/
def STD_REFUSE_LOG_REGION (d n : Nat) : Fld := ⟨8 * (dieB d + 0x8280+4 * n) + 16, 3, 0⟩
/-- R273: STD_REFUSE_LOG.VALID [31:31], RO/V: 1: entry holds an event. -/
def STD_REFUSE_LOG_VALID (d n : Nat) : Fld := ⟨8 * (dieB d + 0x8280+4 * n) + 31, 1, 0⟩
/-- R273: STD_CNT_CLR.CLR [0:0], W1S: clear the die's STD_ counts and log; reads 0. -/
def STD_CNT_CLR_CLR (d : Nat) : Fld := ⟨8 * (dieB d + 0x8300) + 0, 1, 0⟩
/-- R308: MOD_CC_ID [2:0], RO: core number CC0–CC7. -/
def MOD_CC_ID (c : Nat) : Fld := ⟨8 * (coreB c + 8*0x000) + 0, 3, c⟩
/-- R308: MOD_CC_MODE.CUR [0:0], RO/V: 1 privileged. -/
def MOD_CC_MODE_CUR (c : Nat) : Fld := ⟨8 * (coreB c + 8*0x001) + 0, 1, 1⟩
/-- R308: MOD_CC_MODE.PREV [1:1], RW: mode before the last exception. -/
def MOD_CC_MODE_PREV (c : Nat) : Fld := ⟨8 * (coreB c + 8*0x001) + 1, 1, 1⟩
/-- R308: MOD_CC_EPC [63:0], RW: exception PC. -/
def MOD_CC_EPC (c : Nat) : Fld := ⟨8 * (coreB c + 8*0x002) + 0, 64, 0⟩
/-- R308: MOD_CC_CAUSE [3:0], RO/V: cause code (R309). -/
def MOD_CC_CAUSE (c : Nat) : Fld := ⟨8 * (coreB c + 8*0x003) + 0, 4, 0⟩
/-- R308: MOD_CC_TVAL [63:0], RO/V: faulting address or instruction word. -/
def MOD_CC_TVAL (c : Nat) : Fld := ⟨8 * (coreB c + 8*0x004) + 0, 64, 0⟩
/-- R308: MOD_CC_TVEC [63:0], RW: exception entry, a multiple of 4. -/
def MOD_CC_TVEC (c : Nat) : Fld := ⟨8 * (coreB c + 8*0x005) + 0, 64, 0⟩
/-- R308: MOD_CC_WAITMASK [4:0], RW: enabled WAIT conditions. -/
def MOD_CC_WAITMASK (c : Nat) : Fld := ⟨8 * (coreB c + 8*0x006) + 0, 5, 0⟩
/-- R308: MOD_CC_WAITCAUSE [4:0], RO/V: conditions that ended the last WAIT. -/
def MOD_CC_WAITCAUSE (c : Nat) : Fld := ⟨8 * (coreB c + 8*0x007) + 0, 5, 0⟩
/-- R308: MOD_CC_CYCLE [63:0], RO/V: cycles of domain 36. -/
def MOD_CC_CYCLE (c : Nat) : Fld := ⟨8 * (coreB c + 8*0x008) + 0, 64, 0⟩
/-- R308: MOD_CC_TIMER [63:0], RW: compare value for WAIT bit 2. -/
def MOD_CC_TIMER (c : Nat) : Fld := ⟨8 * (coreB c + 8*0x009) + 0, 64, 0⟩
/-- R308: MOD_CC_EVWATCH.CTR [10:0], RW: region × 64 + counter. -/
def MOD_CC_EVWATCH_CTR (c : Nat) : Fld := ⟨8 * (coreB c + 8*0x00A) + 0, 11, 0⟩
/-- R308: MOD_CC_EVWATCH.THRESH [63:32], RW: threshold for WAIT bit 3. -/
def MOD_CC_EVWATCH_THRESH (c : Nat) : Fld := ⟨8 * (coreB c + 8*0x00A) + 32, 32, 0⟩
/-- R308: MOD_CC_UBASE [63:0], RW: lowest address of unprivileged access. -/
def MOD_CC_UBASE (c : Nat) : Fld := ⟨8 * (coreB c + 8*0x00B) + 0, 64, 0⟩
/-- R308: MOD_CC_ULIM [63:0], RW: bound of unprivileged access, exclusive. -/
def MOD_CC_ULIM (c : Nat) : Fld := ⟨8 * (coreB c + 8*0x00C) + 0, 64, 0⟩
/-- R311: SQ_STAT.STATE [2:0], RO/V: 0 idle, 1 loading, 2 running, 3 draining, 4 aborting. -/
def SQ_STAT_STATE (r : Nat) : Fld := ⟨8 * (regionB r + 0x8000 + 0x000) + 0, 3, 0⟩
/-- R311: SQ_STAT.PHASE [5:4], RO/V: phase of the current launch. -/
def SQ_STAT_PHASE (r : Nat) : Fld := ⟨8 * (regionB r + 0x8000 + 0x000) + 4, 2, 0⟩
/-- R311: SQ_IC_LO.COUNT [31:0], RO/V: launch-relative ic, bits [31:0]. -/
def SQ_IC_LO_COUNT (r : Nat) : Fld := ⟨8 * (regionB r + 0x8000 + 0x004) + 0, 32, 0⟩
/-- R311: SQ_IC_HI.COUNT [15:0], RO/V: the same, bits [47:32]. -/
def SQ_IC_HI_COUNT (r : Nat) : Fld := ⟨8 * (regionB r + 0x8000 + 0x008) + 0, 16, 0⟩
/-- R311: SQ_LAUNCH.ID [31:0], RO/V: LAUNCH_ID of the current launch. -/
def SQ_LAUNCH_ID (r : Nat) : Fld := ⟨8 * (regionB r + 0x8000 + 0x00C) + 0, 32, 0⟩
/-- R311: SQ_FAULT.CODE [3:0], RO/V: 0 none, 1 SQ_ILLEGAL, 2 SQ_RECORD, 3 SQ_WAIT_TIMEOUT, 4 SQ_EVT_TENANT, 5 VU_BUSY, 6 VU_ALIGN, 7 SP_UE, 8 unit fault in MU_FAULT, SV_FAULT or SH_FAULT, 9 SGW_ALIGN, 10 DMA fault. -/
def SQ_FAULT_CODE (r : Nat) : Fld := ⟨8 * (regionB r + 0x8000 + 0x010) + 0, 4, 0⟩
/-- R311: SQ_FAULT.SLOT [6:4], RO/V: slot in Table 10.5 order, 0 MU to 5 control. -/
def SQ_FAULT_SLOT (r : Nat) : Fld := ⟨8 * (regionB r + 0x8000 + 0x010) + 4, 3, 0⟩
/-- R311: SQ_FAULT.CLUSTER [10:8], RO/V: cluster concerned. -/
def SQ_FAULT_CLUSTER (r : Nat) : Fld := ⟨8 * (regionB r + 0x8000 + 0x010) + 8, 3, 0⟩
/-- R311: SQ_FAULT.BUNDLE [28:16], RO/V: bundle index. -/
def SQ_FAULT_BUNDLE (r : Nat) : Fld := ⟨8 * (regionB r + 0x8000 + 0x010) + 16, 13, 0⟩
/-- R311: SQ_FAULT_IC.COUNT [31:0], RO/V: low 32 bits of the launch-relative ic of the fault. -/
def SQ_FAULT_IC_COUNT (r : Nat) : Fld := ⟨8 * (regionB r + 0x8000 + 0x014) + 0, 32, 0⟩
/-- R311: SQ_WAIT_LIMIT.US [31:0], RW: hold limit in µs; 0: no limit. -/
def SQ_WAIT_LIMIT_US (r : Nat) : Fld := ⟨8 * (regionB r + 0x8000 + 0x018) + 0, 32, 1000000⟩
/-- R311: SQ_HOLD_EVT.COUNT [31:0], RO/V: clock periods held by EVWAIT. -/
def SQ_HOLD_EVT_COUNT (r : Nat) : Fld := ⟨8 * (regionB r + 0x8000 + 0x01C) + 0, 32, 0⟩
/-- R311: SQ_HOLD_FENCE.COUNT [31:0], RO/V: clock periods held by FENCE. -/
def SQ_HOLD_FENCE_COUNT (r : Nat) : Fld := ⟨8 * (regionB r + 0x8000 + 0x020) + 0, 32, 0⟩
/-- R311: SQ_HOLD_DMA.COUNT [31:0], RO/V: clock periods held by full DMA queues. -/
def SQ_HOLD_DMA_COUNT (r : Nat) : Fld := ⟨8 * (regionB r + 0x8000 + 0x024) + 0, 32, 0⟩
/-- R311: SQ_ABORT.GO [0:0], W1S: stop the launch under R307; reads 1 until drained. -/
def SQ_ABORT_GO (r : Nat) : Fld := ⟨8 * (regionB r + 0x8000 + 0x028) + 0, 1, 0⟩
/-- R311: SQ_CNT_CLR.CLR [0:0], W1S: clear the region's SQ_ counts; reads 0. -/
def SQ_CNT_CLR_CLR (r : Nat) : Fld := ⟨8 * (regionB r + 0x8000 + 0x02C) + 0, 1, 0⟩
/-- R311: SQ_EVT.VALUE [31:0], RW: event counter n. -/
def SQ_EVT_VALUE (r n : Nat) : Fld := ⟨8 * (regionB r + 0x8000 + 0x100+4 * n) + 0, 32, 0⟩
/-- R311: SQ_VU_SAT.COUNT [31:0], RO/V: SAT events of the VU of cluster c. -/
def SQ_VU_SAT_COUNT (r c : Nat) : Fld := ⟨8 * (regionB r + 0x8000 + 0x200+0x10 * c) + 0, 32, 0⟩
/-- R311: SQ_VU_UFLOW.COUNT [31:0], RO/V: UFLOW events. -/
def SQ_VU_UFLOW_COUNT (r c : Nat) : Fld := ⟨8 * (regionB r + 0x8000 + 0x204+0x10 * c) + 0, 32, 0⟩
/-- R311: SQ_VU_INFCLAMP.COUNT [31:0], RO/V: INF_CLAMP events. -/
def SQ_VU_INFCLAMP_COUNT (r c : Nat) : Fld := ⟨8 * (regionB r + 0x8000 + 0x208+0x10 * c) + 0, 32, 0⟩
/-- R311: SQ_VU_NANBLK.COUNT [31:0], RO/V: NAN_BLOCK events. -/
def SQ_VU_NANBLK_COUNT (r c : Nat) : Fld := ⟨8 * (regionB r + 0x8000 + 0x20C+0x10 * c) + 0, 32, 0⟩
/-- R586: DMA_SAT.COUNT [31:0], RO/V: SAT events of channel c. -/
def DMA_SAT_COUNT (d c : Nat) : Fld := ⟨8 * (dieB d + 0x1C000 + 0x000+0x10 * c) + 0, 32, 0⟩
/-- R586: DMA_INFCLAMP.COUNT [31:0], RO/V: INF_CLAMP events. -/
def DMA_INFCLAMP_COUNT (d c : Nat) : Fld := ⟨8 * (dieB d + 0x1C000 + 0x004+0x10 * c) + 0, 32, 0⟩
/-- R586: DMA_NANBLK.COUNT [31:0], RO/V: NAN_BLOCK events. -/
def DMA_NANBLK_COUNT (d c : Nat) : Fld := ⟨8 * (dieB d + 0x1C000 + 0x008+0x10 * c) + 0, 32, 0⟩
/-- R586: DMA_UFLOW.COUNT [31:0], RO/V: UFLOW events. -/
def DMA_UFLOW_COUNT (d c : Nat) : Fld := ⟨8 * (dieB d + 0x1C000 + 0x00C+0x10 * c) + 0, 32, 0⟩
/-- R586: DMA_CNT_CLR.CLR [0:0], W1S: clear the die's DMA_ counts; reads 0. -/
def DMA_CNT_CLR_CLR (d : Nat) : Fld := ⟨8 * (dieB d + 0x1C000 + 0x100) + 0, 1, 0⟩
/-- R348: HBM_STAT.STATE [2:0], RO/V: 0 untrained, 1 training, 2 ready, 3 self-refresh, 4 zeroising, 5 LOST. -/
def HBM_STAT_STATE (k : Nat) : Fld := ⟨8 * (stackB k + 0x000) + 0, 3, 0⟩
/-- R348: HBM_STAT.RATE [5:4], RO/V: 0 6.4, 1 5.6, 2 4.8 Gb/s. -/
def HBM_STAT_RATE (k : Nat) : Fld := ⟨8 * (stackB k + 0x000) + 4, 2, 0⟩
/-- R348: HBM_STAT.HOT [6:6], RO/V: 1: refresh rate doubled. -/
def HBM_STAT_HOT (k : Nat) : Fld := ⟨8 * (stackB k + 0x000) + 6, 1, 0⟩
/-- R348: HBM_STAT.TEMP [15:8], RO/V: stack temperature in °C. -/
def HBM_STAT_TEMP (k : Nat) : Fld := ⟨8 * (stackB k + 0x000) + 8, 8, 0⟩
/-- R348: HBM_CFG.FORCE2X [0:0], RW: 1: refresh rate doubled at any temperature. -/
def HBM_CFG_FORCE2X (k : Nat) : Fld := ⟨8 * (stackB k + 0x004) + 0, 1, 0⟩
/-- R348: HBM_CFG.CAL_PERIOD [15:8], RW: calibration period per channel in ms; values below 16 act as 16. -/
def HBM_CFG_CAL_PERIOD (k : Nat) : Fld := ⟨8 * (stackB k + 0x004) + 8, 8, 64⟩
/-- R348: HBM_CFG.MAXRATE [17:16], RW: highest rate tried at the next training, coded as RATE. -/
def HBM_CFG_MAXRATE (k : Nat) : Fld := ⟨8 * (stackB k + 0x004) + 16, 2, 0⟩
/-- R348: HBM_CE_CNT.COUNT [31:0], RO/V: words corrected. -/
def HBM_CE_CNT_COUNT (k : Nat) : Fld := ⟨8 * (stackB k + 0x008) + 0, 32, 0⟩
/-- R348: HBM_UE_CNT.COUNT [31:0], RO/V: uncorrectable HBM reads. -/
def HBM_UE_CNT_COUNT (k : Nat) : Fld := ⟨8 * (stackB k + 0x00C) + 0, 32, 0⟩
/-- R348: HBM_ODECC_CNT.COUNT [31:0], RO/V: on-die ECC severity reports. -/
def HBM_ODECC_CNT_COUNT (k : Nat) : Fld := ⟨8 * (stackB k + 0x010) + 0, 32, 0⟩
/-- R348: HBM_HOLE_CNT.COUNT [31:0], RO/V: accesses that reached the hole. -/
def HBM_HOLE_CNT_COUNT (k : Nat) : Fld := ⟨8 * (stackB k + 0x014) + 0, 32, 0⟩
/-- R348: HBM_CAL_CNT.COUNT [31:0], RO/V: channel calibrations run. -/
def HBM_CAL_CNT_COUNT (k : Nat) : Fld := ⟨8 * (stackB k + 0x018) + 0, 32, 0⟩
/-- R348: HBM_CAL_FAIL.COUNT [31:0], RO/V: calibrations that needed retraining. -/
def HBM_CAL_FAIL_COUNT (k : Nat) : Fld := ⟨8 * (stackB k + 0x01C) + 0, 32, 0⟩
/-- R348: HBM_ZERO_CTL.GO [0:0], W1S: zeroise the stack; reads 1 until done. -/
def HBM_ZERO_CTL_GO (k : Nat) : Fld := ⟨8 * (stackB k + 0x020) + 0, 1, 0⟩
/-- R348: HBM_ZERO_STAT.STATUS [1:0], RO/V: 0 done, 1 running, 2 WP_ACTIVE, 3 STACK_BUSY. -/
def HBM_ZERO_STAT_STATUS (k : Nat) : Fld := ⟨8 * (stackB k + 0x024) + 0, 2, 0⟩
/-- R348: HBM_ZERO_STAT.DONE_CNT [31:16], RO/V: zeroisations completed since reset. -/
def HBM_ZERO_STAT_DONE_CNT (k : Nat) : Fld := ⟨8 * (stackB k + 0x024) + 16, 16, 0⟩
/-- R348: HBM_UE_LOG.GRANULE [27:0], RO/V: granule g of event n; entry 0 is the newest. -/
def HBM_UE_LOG_GRANULE (k n : Nat) : Fld := ⟨8 * (stackB k + 0x040+4 * n) + 0, 28, 0⟩
/-- R348: HBM_UE_LOG.KIND [29:28], RO/V: 1 HBM read, 2 dirty cache line. -/
def HBM_UE_LOG_KIND (k n : Nat) : Fld := ⟨8 * (stackB k + 0x040+4 * n) + 28, 2, 0⟩
/-- R348: HBM_UE_LOG.VALID [31:31], RO/V: 1: entry holds an event. -/
def HBM_UE_LOG_VALID (k n : Nat) : Fld := ⟨8 * (stackB k + 0x040+4 * n) + 31, 1, 0⟩
/-- R348: HBM_CNT_CLR.CLR [0:0], W1S: clear counts and log; reads 0. -/
def HBM_CNT_CLR_CLR (k : Nat) : Fld := ⟨8 * (stackB k + 0x080) + 0, 1, 0⟩
/-- R348: HC_HIT_LO.COUNT [31:0], RO/V: hits and misses, bits [31:0] and [47:32]. -/
def HC_HIT_LO_COUNT (d : Nat) : Fld := ⟨8 * (dieB d + 0x10000 + 0x000) + 0, 32, 0⟩
/-- R348: HC_HIT_HI.COUNT [15:0], RO/V: hits and misses, bits [31:0] and [47:32]. -/
def HC_HIT_HI_COUNT (d : Nat) : Fld := ⟨8 * (dieB d + 0x10000 + 0x004) + 0, 16, 0⟩
/-- R348: HC_MISS_LO.COUNT [31:0], RO/V: hits and misses, bits [31:0] and [47:32]. -/
def HC_MISS_LO_COUNT (d : Nat) : Fld := ⟨8 * (dieB d + 0x10000 + 0x008) + 0, 32, 0⟩
/-- R348: HC_MISS_HI.COUNT [15:0], RO/V: hits and misses, bits [31:0] and [47:32]. -/
def HC_MISS_HI_COUNT (d : Nat) : Fld := ⟨8 * (dieB d + 0x10000 + 0x00C) + 0, 16, 0⟩
/-- R348: HC_WB_CNT.COUNT [31:0], RO/V: dirty lines written back. -/
def HC_WB_CNT_COUNT (d : Nat) : Fld := ⟨8 * (dieB d + 0x10000 + 0x010) + 0, 32, 0⟩
/-- R348: HC_CE_CNT.COUNT [31:0], RO/V: cache words corrected. -/
def HC_CE_CNT_COUNT (d : Nat) : Fld := ⟨8 * (dieB d + 0x10000 + 0x014) + 0, 32, 0⟩
/-- R348: HC_UE_CNT.CLEAN [15:0], RO/V: clean lines refetched after an uncorrectable error. -/
def HC_UE_CNT_CLEAN (d : Nat) : Fld := ⟨8 * (dieB d + 0x10000 + 0x018) + 0, 16, 0⟩
/-- R348: HC_UE_CNT.DIRTY [31:16], RO/V: dirty lines lost and poisoned. -/
def HC_UE_CNT_DIRTY (d : Nat) : Fld := ⟨8 * (dieB d + 0x10000 + 0x018) + 16, 16, 0⟩
/-- R348: HC_ATOM_CNT.COUNT [31:0], RO/V: atomic operations performed. -/
def HC_ATOM_CNT_COUNT (d : Nat) : Fld := ⟨8 * (dieB d + 0x10000 + 0x01C) + 0, 32, 0⟩
/-- R348: HC_FADD_SAT.COUNT [31:0], RO/V: SAT events of FADD. -/
def HC_FADD_SAT_COUNT (d : Nat) : Fld := ⟨8 * (dieB d + 0x10000 + 0x020) + 0, 32, 0⟩
/-- R348: HC_FADD_UFLOW.COUNT [31:0], RO/V: UFLOW events of FADD. -/
def HC_FADD_UFLOW_COUNT (d : Nat) : Fld := ⟨8 * (dieB d + 0x10000 + 0x024) + 0, 32, 0⟩
/-- R348: HC_FLUSH.STACKS [2:0], RW: bit s: flush stack 3d + s. -/
def HC_FLUSH_STACKS (d : Nat) : Fld := ⟨8 * (dieB d + 0x10000 + 0x028) + 0, 3, 0⟩
/-- R348: HC_FLUSH.GO [31:31], W1S: start the flush; reads 1 until done. -/
def HC_FLUSH_GO (d : Nat) : Fld := ⟨8 * (dieB d + 0x10000 + 0x028) + 31, 1, 0⟩
/-- R348: HC_WP_CMD.OP [1:0], WO: 1 protect, 2 release; others ignored. -/
def HC_WP_CMD_OP (d : Nat) : Fld := ⟨8 * (dieB d + 0x10000 + 0x100) + 0, 2, 0⟩
/-- R348: HC_WP_CMD.STACK [5:4], WO: stack s of the die. -/
def HC_WP_CMD_STACK (d : Nat) : Fld := ⟨8 * (dieB d + 0x10000 + 0x100) + 4, 2, 0⟩
/-- R348: HC_WP_FIRST.PAGE [14:0], RW: first page p. -/
def HC_WP_FIRST_PAGE (d : Nat) : Fld := ⟨8 * (dieB d + 0x10000 + 0x104) + 0, 15, 0⟩
/-- R348: HC_WP_COUNT.PAGES [14:0], RW: number of pages; ranges beyond page 18,431 end there. -/
def HC_WP_COUNT_PAGES (d : Nat) : Fld := ⟨8 * (dieB d + 0x10000 + 0x108) + 0, 15, 0⟩
/-- R348: HC_WP_STAT.PEND [0:0], RO/V: 1 until the command takes effect. -/
def HC_WP_STAT_PEND (d : Nat) : Fld := ⟨8 * (dieB d + 0x10000 + 0x10C) + 0, 1, 0⟩
/-- R348: HC_WP_STAT.QUEUE [11:8], RO/V: pages in copy queues, largest over the die's stacks. -/
def HC_WP_STAT_QUEUE (d : Nat) : Fld := ⟨8 * (dieB d + 0x10000 + 0x10C) + 8, 4, 0⟩
/-- R348: HC_WP_SLOT_BASE.ADDR [47:0], RW: first staging slot, 2 MiB-aligned, in the populated window of the stack. -/
def HC_WP_SLOT_BASE_ADDR (d s : Nat) : Fld := ⟨8 * (dieB d + 0x10000 + 0x140+0x10 * s) + 0, 48, 0⟩
/-- R348: HC_WP_SLOT_CNT.FREE [15:0], RW: free slots; the copy engine decrements it, the flash writer adds to it. -/
def HC_WP_SLOT_CNT_FREE (d s : Nat) : Fld := ⟨8 * (dieB d + 0x10000 + 0x148+0x10 * s) + 0, 16, 0⟩
/-- R348: HC_WP_COPIED.COUNT [31:0], RO/V: pages copied on first touch. -/
def HC_WP_COPIED_COUNT (d : Nat) : Fld := ⟨8 * (dieB d + 0x10000 + 0x180) + 0, 32, 0⟩
/-- R348: HC_WP_SLOTWAIT.COUNT [31:0], RO/V: first touches that waited for a slot. -/
def HC_WP_SLOTWAIT_COUNT (d : Nat) : Fld := ⟨8 * (dieB d + 0x10000 + 0x184) + 0, 32, 0⟩
/-- R348: HC_WP_STALL_MAX.NS [31:0], RO/V: longest hold of a write, in ns. -/
def HC_WP_STALL_MAX_NS (d : Nat) : Fld := ⟨8 * (dieB d + 0x10000 + 0x188) + 0, 32, 0⟩
/-- R348: HC_CNT_CLR.CLR [0:0], W1S: clear the die's HC_ counts; reads 0. -/
def HC_CNT_CLR_CLR (d : Nat) : Fld := ⟨8 * (dieB d + 0x10000 + 0x200) + 0, 1, 0⟩
/-- R348: HC_WP_BITS [31:0], RO/V: protection bits of pages 32w to 32w + 31. -/
def HC_WP_BITS (d s w : Nat) : Fld := ⟨8 * (dieB d + 0x10000 + 0x1000+0x1000 * s+4 * w) + 0, 32, 0⟩
/-- R348: HC_ATOM_ADDR.ADDR [47:0], RW: device address of the operand. -/
def HC_ATOM_ADDR_ADDR (c : Nat) : Fld := ⟨8 * (iodB + 0xB0000 + 0x100 * c + 0x000) + 0, 48, 0⟩
/-- R348: HC_ATOM_OPND.V [63:0], RW: operand v, in the low bits for narrow operations. -/
def HC_ATOM_OPND_V (c : Nat) : Fld := ⟨8 * (iodB + 0xB0000 + 0x100 * c + 0x008) + 0, 64, 0⟩
/-- R348: HC_ATOM_CMP.C [63:0], RW: compare value c for CAS. -/
def HC_ATOM_CMP_C (c : Nat) : Fld := ⟨8 * (iodB + 0xB0000 + 0x100 * c + 0x010) + 0, 64, 0⟩
/-- R348: HC_ATOM_RES.OLD [63:0], RO/V: returned value. -/
def HC_ATOM_RES_OLD (c : Nat) : Fld := ⟨8 * (iodB + 0xB0000 + 0x100 * c + 0x018) + 0, 64, 0⟩
/-- R348: HC_ATOM_CTL.OP [3:0], RW: operation (Table 12.2). -/
def HC_ATOM_CTL_OP (c : Nat) : Fld := ⟨8 * (iodB + 0xB0000 + 0x100 * c + 0x020) + 0, 4, 0⟩
/-- R348: HC_ATOM_CTL.GO [31:31], W1S: perform the operation; reads 1 until done. -/
def HC_ATOM_CTL_GO (c : Nat) : Fld := ⟨8 * (iodB + 0xB0000 + 0x100 * c + 0x020) + 31, 1, 0⟩
/-- R348: HC_ATOM_STAT.STATUS [2:0], RO/V: 0 done, 2 ALIGN, 3 HOLE, 4 POISON, 5 STACK_LOST, 6 BUSY. -/
def HC_ATOM_STAT_STATUS (c : Nat) : Fld := ⟨8 * (iodB + 0xB0000 + 0x100 * c + 0x024) + 0, 3, 0⟩
/-- R370: CLK_ISL.CAP [3:0], RW: firmware ceiling, in steps of 25 MHz above 350 MHz; values above 0xE act as 0xE. -/
def CLK_ISL_CAP (i : Nat) : Fld := ⟨8 * (iodB + 0x70000 + 0x000+4 * i) + 0, 4, 14⟩
/-- R370: CLK_ISL.CUR [7:4], RO/V: step in force (R350). -/
def CLK_ISL_CUR (i : Nat) : Fld := ⟨8 * (iodB + 0x70000 + 0x000+4 * i) + 4, 4, 14⟩
/-- R370: CLK_ISL.PWR [11:8], RO/V: power manager's target. -/
def CLK_ISL_PWR (i : Nat) : Fld := ⟨8 * (iodB + 0x70000 + 0x000+4 * i) + 8, 4, 14⟩
/-- R370: CLK_ISL.THERM [15:12], RO/V: die's thermal target. -/
def CLK_ISL_THERM (i : Nat) : Fld := ⟨8 * (iodB + 0x70000 + 0x000+4 * i) + 12, 4, 14⟩
/-- R370: CLK_ISL.STATE [17:16], RO/V: 0 running, 1 gated, 2 stopped. -/
def CLK_ISL_STATE (i : Nat) : Fld := ⟨8 * (iodB + 0x70000 + 0x000+4 * i) + 16, 2, 0⟩
/-- R370: CLK_PER_LO.COUNT [31:0], RO/V: oscillator periods of island i, bits [31:0] and [47:32]. -/
def CLK_PER_LO_COUNT (i : Nat) : Fld := ⟨8 * (iodB + 0x70000 + 0x100+8 * i) + 0, 32, 0⟩
/-- R370: CLK_PER_HI.COUNT [15:0], RO/V: oscillator periods of island i, bits [31:0] and [47:32]. -/
def CLK_PER_HI_COUNT (i : Nat) : Fld := ⟨8 * (iodB + 0x70000 + 0x104+8 * i) + 0, 16, 0⟩
/-- R370: CLK_HELD.COUNT [31:0], RO/V: held periods of island i (R351). -/
def CLK_HELD_COUNT (i : Nat) : Fld := ⟨8 * (iodB + 0x70000 + 0x200+4 * i) + 0, 32, 0⟩
/-- R370: CLK_DOM_STAT.RUN [7:0], RO/V: bit k: domain 32 + k running. -/
def CLK_DOM_STAT_RUN : Fld := ⟨8 * (iodB + 0x70000 + 0x280) + 0, 8, 255⟩
/-- R370: CLK_XING_STUCK.COUNT [31:0], RO/V: crossings that held data for more than 100 µs. -/
def CLK_XING_STUCK_COUNT : Fld := ⟨8 * (iodB + 0x70000 + 0x284) + 0, 32, 0⟩
/-- R370: CLK_XING_LOG.SRC [5:0], RO/V: domains of the last such crossing; 0x3F for the fabric. -/
def CLK_XING_LOG_SRC : Fld := ⟨8 * (iodB + 0x70000 + 0x288) + 0, 6, 0⟩
/-- R370: CLK_XING_LOG.DST [13:8], RO/V: domains of the last such crossing; 0x3F for the fabric. -/
def CLK_XING_LOG_DST : Fld := ⟨8 * (iodB + 0x70000 + 0x288) + 8, 6, 0⟩
/-- R370: CLK_XING_LOG.VALID [31:31], RO/V: 1: the log holds an event. -/
def CLK_XING_LOG_VALID : Fld := ⟨8 * (iodB + 0x70000 + 0x288) + 31, 1, 0⟩
/-- R370: CLK_CNT_CLR.CLR [0:0], W1S: clear the CLK_ counts and log; reads 0. -/
def CLK_CNT_CLR_CLR : Fld := ⟨8 * (iodB + 0x70000 + 0x28C) + 0, 1, 0⟩
/-- R370: ARB_CFG.MODE [0:0], RW: 0 leaf-weighted, 1 tenant-weighted. -/
def ARB_CFG_MODE (d : Nat) : Fld := ⟨8 * (dieB d + 0x14000 + 0x000) + 0, 1, 0⟩
/-- R370: ARB_CFG.AGE [15:4], RW: transfers before promotion (R361); 0 acts as 1. -/
def ARB_CFG_AGE (d : Nat) : Fld := ⟨8 * (dieB d + 0x14000 + 0x000) + 4, 12, 256⟩
/-- R370: ARB_CFG.FOREIGN_W [23:16], RW: weight of each ingress leaf; 0 acts as 1. -/
def ARB_CFG_FOREIGN_W (d : Nat) : Fld := ⟨8 * (dieB d + 0x14000 + 0x000) + 16, 8, 8⟩
/-- R370: ARB_STAT.PRIO_ERR [0:0], W1C: sticky: a priority write was ignored (R360). -/
def ARB_STAT_PRIO_ERR (d : Nat) : Fld := ⟨8 * (dieB d + 0x14000 + 0x004) + 0, 1, 0⟩
/-- R370: ARB_REQ_CFG.PRIO [1:0], RW*: requester priority. -/
def ARB_REQ_CFG_PRIO (d n : Nat) : Fld := ⟨8 * (dieB d + 0x14000 + 0x100+4 * n) + 0, 2, arbPrioRst n⟩
/-- R370: ARB_REQ_CFG.TENANT [15:8], RO/V: tenant of the leaf, from the partition table. -/
def ARB_REQ_CFG_TENANT (d n : Nat) : Fld := ⟨8 * (dieB d + 0x14000 + 0x100+4 * n) + 8, 8, 255⟩
/-- R370: ARB_GRANT.COUNT [31:0], RO/V: transfers granted. -/
def ARB_GRANT_COUNT (d n : Nat) : Fld := ⟨8 * (dieB d + 0x14000 + 0x400+4 * n) + 0, 32, 0⟩
/-- R370: ARB_WAIT.COUNT [31:0], RO/V: total wait before grants. -/
def ARB_WAIT_COUNT (d n : Nat) : Fld := ⟨8 * (dieB d + 0x14000 + 0x600+4 * n) + 0, 32, 0⟩
/-- R370: ARB_WAIT_MAX.COUNT [31:0], RO/V: longest single wait. -/
def ARB_WAIT_MAX_COUNT (d n : Nat) : Fld := ⟨8 * (dieB d + 0x14000 + 0x800+4 * n) + 0, 32, 0⟩
/-- R370: ARB_AGE_CNT.COUNT [31:0], RO/V: promotions under R361. -/
def ARB_AGE_CNT_COUNT (d n : Nat) : Fld := ⟨8 * (dieB d + 0x14000 + 0xA00+4 * n) + 0, 32, 0⟩
/-- R370: ARB_CNT_CLR.CLR [0:0], W1S: clear the block's counts and flags; reads 0. -/
def ARB_CNT_CLR_CLR (d : Nat) : Fld := ⟨8 * (dieB d + 0x14000 + 0x008) + 0, 1, 0⟩
/-- R370: ARB_SLOT_ACT [31:0], RO/V: owners of active slots 4w to 4w + 3, slot 4w + j in bits [8j + 7 : 8j]. -/
def ARB_SLOT_ACT (q w : Nat) : Fld := ⟨8 * (iodB + 0x80000 + 0x1000+0x100 * q+4 * w) + 0, 32, arbSlotRst w⟩
/-- R370: ARB_SLOT_SHD [31:0], RW: shadow entries in the same layout; management bytes read 0xFE. -/
def ARB_SLOT_SHD (q w : Nat) : Fld := ⟨8 * (iodB + 0x80000 + 0x2000+0x100 * q+4 * w) + 0, 32, arbSlotRst w⟩
/-- R370: ARB_SLOT_CTL.ARM [0:0], W1S: swap at the next wrap; reads 1 until done. -/
def ARB_SLOT_CTL_ARM (q : Nat) : Fld := ⟨8 * (iodB + 0x80000 + 0x3000+0x10 * q) + 0, 1, 0⟩
/-- R370: ARB_SLOT_STAT.SWAPS [15:0], RO/V: swaps performed. -/
def ARB_SLOT_STAT_SWAPS (q : Nat) : Fld := ⟨8 * (iodB + 0x80000 + 0x3004+0x10 * q) + 0, 16, 0⟩
/-- R370: ARB_SLOT_STAT.LATE [31:16], RO/V: shadow writes ignored while armed. -/
def ARB_SLOT_STAT_LATE (q : Nat) : Fld := ⟨8 * (iodB + 0x80000 + 0x3004+0x10 * q) + 16, 16, 0⟩
/-- R370: ARB_SLOT_LENT.COUNT [31:0], RO/V: slots lent (R366). -/
def ARB_SLOT_LENT_COUNT (q : Nat) : Fld := ⟨8 * (iodB + 0x80000 + 0x3008+0x10 * q) + 0, 32, 0⟩
/-- R370: ARB_SLOT_P0.COUNT [31:0], RO/V: P0 transfers outside management slots. -/
def ARB_SLOT_P0_COUNT (q : Nat) : Fld := ⟨8 * (iodB + 0x80000 + 0x300C+0x10 * q) + 0, 32, 0⟩
/-- R386: OZL_CTL.EN [0:0], RW: 1: the port may leave DISABLED. -/
def OZL_CTL_EN (p : Nat) : Fld := ⟨8 * (iodB + 0x90000 + 0x200 * p + 0x000) + 0, 1, 0⟩
/-- R386: OZL_CTL.RETRAIN [1:1], W1S: start full training; reads 1 until it ends. -/
def OZL_CTL_RETRAIN (p : Nat) : Fld := ⟨8 * (iodB + 0x90000 + 0x200 * p + 0x000) + 1, 1, 0⟩
/-- R386: OZL_CTL.ACCEPT [2:2], W1S: lift the restriction of MISWIRE (R372). -/
def OZL_CTL_ACCEPT (p : Nat) : Fld := ⟨8 * (iodB + 0x90000 + 0x200 * p + 0x000) + 2, 1, 0⟩
/-- R386: OZL_CTL.WAKE_TX [3:3], W1S: send the wake pattern (R385). -/
def OZL_CTL_WAKE_TX (p : Nat) : Fld := ⟨8 * (iodB + 0x90000 + 0x200 * p + 0x000) + 3, 1, 0⟩
/-- R386: OZL_CFG.MAXW [1:0], RW: width cap: 0 sixteen, 1 twelve, 2 eight, 3 four. -/
def OZL_CFG_MAXW (p : Nat) : Fld := ⟨8 * (iodB + 0x90000 + 0x200 * p + 0x004) + 0, 2, 0⟩
/-- R386: OZL_CFG.RETRAIN_MAX [7:4], RW: retrains allowed per second before DOWN. -/
def OZL_CFG_RETRAIN_MAX (p : Nat) : Fld := ⟨8 * (iodB + 0x90000 + 0x200 * p + 0x004) + 4, 4, 8⟩
/-- R386: OZL_CFG.SYM_LIMIT [31:8], RW: pre-FEC symbol errors per lane per 1 ms window. -/
def OZL_CFG_SYM_LIMIT (p : Nat) : Fld := ⟨8 * (iodB + 0x90000 + 0x200 * p + 0x004) + 8, 24, 16384⟩
/-- R386: OZL_STAT.STATE [2:0], RO/V: state code (Table 14.2). -/
def OZL_STAT_STATE (p : Nat) : Fld := ⟨8 * (iodB + 0x90000 + 0x200 * p + 0x008) + 0, 3, 0⟩
/-- R386: OZL_STAT.WIDTH [5:4], RO/V: width in force, coded as MAXW. -/
def OZL_STAT_WIDTH (p : Nat) : Fld := ⟨8 * (iodB + 0x90000 + 0x200 * p + 0x008) + 4, 2, 0⟩
/-- R386: OZL_STAT.MISWIRE [6:6], RO/V: 1: the peer port does not match R371. -/
def OZL_STAT_MISWIRE (p : Nat) : Fld := ⟨8 * (iodB + 0x90000 + 0x200 * p + 0x008) + 6, 1, 0⟩
/-- R386: OZL_STAT.REFCLK [7:7], RO/V: 1: REFCLK_LNK present. -/
def OZL_STAT_REFCLK (p : Nat) : Fld := ⟨8 * (iodB + 0x90000 + 0x200 * p + 0x008) + 7, 1, 0⟩
/-- R386: OZL_LANE_BAD.RX [15:0], RO/V: bad receive lanes. -/
def OZL_LANE_BAD_RX (p : Nat) : Fld := ⟨8 * (iodB + 0x90000 + 0x200 * p + 0x00C) + 0, 16, 0⟩
/-- R386: OZL_LANE_BAD.TX [31:16], RO/V: bad transmit lanes, as reported by the peer. -/
def OZL_LANE_BAD_TX (p : Nat) : Fld := ⟨8 * (iodB + 0x90000 + 0x200 * p + 0x00C) + 16, 16, 0⟩
/-- R386: OZL_LANE_POL.INV [15:0], RO/V: receive lanes inverted at training. -/
def OZL_LANE_POL_INV (p : Nat) : Fld := ⟨8 * (iodB + 0x90000 + 0x200 * p + 0x010) + 0, 16, 0⟩
/-- R386: OZL_LANE_MAP_LO [31:0], RO/V: physical lane of logical lane j in 4-bit field j; LO holds j = 0–7. -/
def OZL_LANE_MAP_LO (p : Nat) : Fld := ⟨8 * (iodB + 0x90000 + 0x200 * p + 0x014) + 0, 32, 0⟩
/-- R386: OZL_LANE_MAP_HI [31:0], RO/V: physical lane of logical lane j in 4-bit field j; LO holds j = 0–7. -/
def OZL_LANE_MAP_HI (p : Nat) : Fld := ⟨8 * (iodB + 0x90000 + 0x200 * p + 0x018) + 0, 32, 0⟩
/-- R386: OZL_PEER_LO [31:0], RO/V: peer serial number, bits [31:0] and [63:32]. -/
def OZL_PEER_LO (p : Nat) : Fld := ⟨8 * (iodB + 0x90000 + 0x200 * p + 0x01C) + 0, 32, 0⟩
/-- R386: OZL_PEER_HI [31:0], RO/V: peer serial number, bits [31:0] and [63:32]. -/
def OZL_PEER_HI (p : Nat) : Fld := ⟨8 * (iodB + 0x90000 + 0x200 * p + 0x020) + 0, 32, 0⟩
/-- R386: OZL_PEER_PORT.PORT [2:0], RO/V: peer port number. -/
def OZL_PEER_PORT_PORT (p : Nat) : Fld := ⟨8 * (iodB + 0x90000 + 0x200 * p + 0x024) + 0, 3, 0⟩
/-- R386: OZL_FEC_CORR.COUNT [31:0], RO/V: codewords corrected. -/
def OZL_FEC_CORR_COUNT (p : Nat) : Fld := ⟨8 * (iodB + 0x90000 + 0x200 * p + 0x028) + 0, 32, 0⟩
/-- R386: OZL_FEC_UNCORR.COUNT [31:0], RO/V: codewords uncorrectable. -/
def OZL_FEC_UNCORR_COUNT (p : Nat) : Fld := ⟨8 * (iodB + 0x90000 + 0x200 * p + 0x02C) + 0, 32, 0⟩
/-- R386: OZL_CRC_ERR.COUNT [31:0], RO/V: flits failing CRC. -/
def OZL_CRC_ERR_COUNT (p : Nat) : Fld := ⟨8 * (iodB + 0x90000 + 0x200 * p + 0x030) + 0, 32, 0⟩
/-- R386: OZL_REPLAY.COUNT [31:0], RO/V: flits resent (R376). -/
def OZL_REPLAY_COUNT (p : Nat) : Fld := ⟨8 * (iodB + 0x90000 + 0x200 * p + 0x034) + 0, 32, 0⟩
/-- R386: OZL_RETRAIN_CNT.COUNT [31:0], RO/V: retrains. -/
def OZL_RETRAIN_CNT_COUNT (p : Nat) : Fld := ⟨8 * (iodB + 0x90000 + 0x200 * p + 0x038) + 0, 32, 0⟩
/-- R386: OZL_DOWN_CNT.COUNT [31:0], RO/V: entries to DOWN. -/
def OZL_DOWN_CNT_COUNT (p : Nat) : Fld := ⟨8 * (iodB + 0x90000 + 0x200 * p + 0x03C) + 0, 32, 0⟩
/-- R386: OZL_WAKE.PATTERN [15:0], RO/V: wake patterns detected. -/
def OZL_WAKE_PATTERN (p : Nat) : Fld := ⟨8 * (iodB + 0x90000 + 0x200 * p + 0x040) + 0, 16, 0⟩
/-- R386: OZL_WAKE.ACTIVITY [31:16], RO/V: activity detections. -/
def OZL_WAKE_ACTIVITY (p : Nat) : Fld := ⟨8 * (iodB + 0x90000 + 0x200 * p + 0x040) + 16, 16, 0⟩
/-- R386: OZL_TX_LO.COUNT [31:0], RO/V: flits sent and delivered, bits [31:0] and [47:32]. -/
def OZL_TX_LO_COUNT (p : Nat) : Fld := ⟨8 * (iodB + 0x90000 + 0x200 * p + 0x044) + 0, 32, 0⟩
/-- R386: OZL_TX_HI.COUNT [15:0], RO/V: flits sent and delivered, bits [31:0] and [47:32]. -/
def OZL_TX_HI_COUNT (p : Nat) : Fld := ⟨8 * (iodB + 0x90000 + 0x200 * p + 0x048) + 0, 16, 0⟩
/-- R386: OZL_RX_LO.COUNT [31:0], RO/V: flits sent and delivered, bits [31:0] and [47:32]. -/
def OZL_RX_LO_COUNT (p : Nat) : Fld := ⟨8 * (iodB + 0x90000 + 0x200 * p + 0x04C) + 0, 32, 0⟩
/-- R386: OZL_RX_HI.COUNT [15:0], RO/V: flits sent and delivered, bits [31:0] and [47:32]. -/
def OZL_RX_HI_COUNT (p : Nat) : Fld := ⟨8 * (iodB + 0x90000 + 0x200 * p + 0x050) + 0, 16, 0⟩
/-- R386: OZL_SYMERR.COUNT [31:0], RO/V: pre-FEC symbol errors on receive lane l. -/
def OZL_SYMERR_COUNT (p l : Nat) : Fld := ⟨8 * (iodB + 0x90000 + 0x200 * p + 0x080+4 * l) + 0, 32, 0⟩
/-- R386: OZL_CNT_CLR.CLR [0:0], W1S: clear the port's counts; reads 0. -/
def OZL_CNT_CLR_CLR (p : Nat) : Fld := ⟨8 * (iodB + 0x90000 + 0x200 * p + 0x0C0) + 0, 1, 0⟩
/-- R386: OZL_COORD.X [3:0], RW: module coordinates. -/
def OZL_COORD_X : Fld := ⟨8 * (iodB + 0x90C00 + 0x000) + 0, 4, 0⟩
/-- R386: OZL_COORD.Y [7:4], RW: module coordinates. -/
def OZL_COORD_Y : Fld := ⟨8 * (iodB + 0x90C00 + 0x000) + 4, 4, 0⟩
/-- R386: OZL_COORD.Z [11:8], RW: module coordinates. -/
def OZL_COORD_Z : Fld := ⟨8 * (iodB + 0x90C00 + 0x000) + 8, 4, 0⟩
/-- R386: OZL_COORD.SX [15:12], RW: torus sizes minus 1. -/
def OZL_COORD_SX : Fld := ⟨8 * (iodB + 0x90C00 + 0x000) + 12, 4, 0⟩
/-- R386: OZL_COORD.SY [19:16], RW: torus sizes minus 1. -/
def OZL_COORD_SY : Fld := ⟨8 * (iodB + 0x90C00 + 0x000) + 16, 4, 0⟩
/-- R386: OZL_COORD.SZ [23:20], RW: torus sizes minus 1. -/
def OZL_COORD_SZ : Fld := ⟨8 * (iodB + 0x90C00 + 0x000) + 20, 4, 0⟩
/-- R420: COL_SUBMIT_LO.ADDR [31:0], WO: record address, bits [31:0]. -/
def COL_SUBMIT_LO_ADDR : Fld := ⟨8 * (iodB + 0x400000 + 0x000) + 0, 32, 0⟩
/-- R420: COL_SUBMIT_HI.ADDR [15:0], WO: record address, bits [47:32]; the write submits. -/
def COL_SUBMIT_HI_ADDR : Fld := ⟨8 * (iodB + 0x400000 + 0x004) + 0, 16, 0⟩
/-- R420: COL_SUBMIT_STAT.CODE [7:0], RO/V: 0 accepted; otherwise the refusal code. -/
def COL_SUBMIT_STAT_CODE : Fld := ⟨8 * (iodB + 0x400000 + 0x008) + 0, 8, 0⟩
/-- R420: COL_SUBMIT_STAT.SLOT [12:8], RO/V: operation slot of an accepted record. -/
def COL_SUBMIT_STAT_SLOT : Fld := ⟨8 * (iodB + 0x400000 + 0x008) + 8, 5, 0⟩
/-- R420: COL_SUBMIT_STAT.DESC [23:16], RO/V: descriptor concerned; 0xFF when none. -/
def COL_SUBMIT_STAT_DESC : Fld := ⟨8 * (iodB + 0x400000 + 0x008) + 16, 8, 0⟩
/-- R420: COL_SUBMIT_STAT.PEND [31:31], RO/V: 1 while the record is being checked. -/
def COL_SUBMIT_STAT_PEND : Fld := ⟨8 * (iodB + 0x400000 + 0x008) + 31, 1, 0⟩
/-- R420: COL_STAT.INFLIGHT [5:0], RO/V: operations in flight. -/
def COL_STAT_INFLIGHT : Fld := ⟨8 * (iodB + 0x400000 + 0x00C) + 0, 6, 0⟩
/-- R420: COL_STAT.HELD [8:8], RO/V: 1: new operations are held (R389, R417). -/
def COL_STAT_HELD : Fld := ⟨8 * (iodB + 0x400000 + 0x00C) + 8, 1, 0⟩
/-- R420: COL_STAT.GROUP_BUSY [9:9], W1C: sticky: a group write was ignored. -/
def COL_STAT_GROUP_BUSY : Fld := ⟨8 * (iodB + 0x400000 + 0x00C) + 9, 1, 0⟩
/-- R420: COL_STAT.QUEUED [22:16], RO/V: operations accepted and waiting for an operation slot, 0–64 (R391). -/
def COL_STAT_QUEUED : Fld := ⟨8 * (iodB + 0x400000 + 0x00C) + 16, 7, 0⟩
/-- R420: COL_ROLE.ROLE [1:0], RW: 0 worker, 1 manager, 2 standby. -/
def COL_ROLE_ROLE : Fld := ⟨8 * (iodB + 0x400000 + 0x010) + 0, 2, 0⟩
/-- R420: COL_ROLE.MGR_EN [4:4], RO: MGR_EN pin. -/
def COL_ROLE_MGR_EN : Fld := ⟨8 * (iodB + 0x400000 + 0x010) + 4, 1, Config.strapMgrEn.toNat⟩
/-- R420: COL_MGR_EPOCH.EPOCH [31:0], RW: current epoch. -/
def COL_MGR_EPOCH_EPOCH : Fld := ⟨8 * (iodB + 0x400000 + 0x014) + 0, 32, 0⟩
/-- R420: COL_MGR_TIMEOUT.US [31:0], RW: heartbeat timeout in µs. -/
def COL_MGR_TIMEOUT_US : Fld := ⟨8 * (iodB + 0x400000 + 0x018) + 0, 32, 10000⟩
/-- R420: COL_MGR_STAT.LOST [0:0], RO/V: 1: no heartbeat within the timeout. -/
def COL_MGR_STAT_LOST : Fld := ⟨8 * (iodB + 0x400000 + 0x01C) + 0, 1, 0⟩
/-- R420: COL_MGR_STAT.AGE [31:8], RO/V: µs since the last heartbeat, saturating. -/
def COL_MGR_STAT_AGE : Fld := ⟨8 * (iodB + 0x400000 + 0x01C) + 8, 24, 0⟩
/-- R420: COL_TIMEOUT.US [31:0], RW: operation timeout in µs. -/
def COL_TIMEOUT_US : Fld := ⟨8 * (iodB + 0x400000 + 0x020) + 0, 32, 1000000⟩
/-- R420: COL_ROUTE_CTL.TABLE [0:0], RW: 1: table routing. -/
def COL_ROUTE_CTL_TABLE : Fld := ⟨8 * (iodB + 0x400000 + 0x024) + 0, 1, 0⟩
/-- R420: COL_ROUTE_CTL.SWAP [1:1], W1S: exchange route tables; reads 1 until done. -/
def COL_ROUTE_CTL_SWAP : Fld := ⟨8 * (iodB + 0x400000 + 0x024) + 1, 1, 0⟩
/-- R420: COL_XORID_EN [31:0], RW: bit j: tenant 32w + j. -/
def COL_XORID_EN (w : Nat) : Fld := ⟨8 * (iodB + 0x400000 + 0x040+4 * w) + 0, 32, 0⟩
/-- R420: COL_XORID_GEN [31:0], RW: bit j: tenant 32w + j. -/
def COL_XORID_GEN (w : Nat) : Fld := ⟨8 * (iodB + 0x400000 + 0x060+4 * w) + 0, 32, 0⟩
/-- R420: COL_XORID_HOLD [31:0], RW: bit j: tenant 32w + j. -/
def COL_XORID_HOLD (w : Nat) : Fld := ⟨8 * (iodB + 0x400000 + 0x080+4 * w) + 0, 32, 0⟩
/-- R420: COL_OPS_DONE.COUNT [31:0], RO/V: operations completed DONE, and otherwise. -/
def COL_OPS_DONE_COUNT : Fld := ⟨8 * (iodB + 0x400000 + 0x100) + 0, 32, 0⟩
/-- R420: COL_OPS_FAULT.COUNT [31:0], RO/V: operations completed DONE, and otherwise. -/
def COL_OPS_FAULT_COUNT : Fld := ⟨8 * (iodB + 0x400000 + 0x104) + 0, 32, 0⟩
/-- R420: COL_SHARD_CNT.COUNT [31:0], RO/V: changed shards passed under SHARD_POL = 1. -/
def COL_SHARD_CNT_COUNT : Fld := ⟨8 * (iodB + 0x400000 + 0x108) + 0, 32, 0⟩
/-- R420: COL_TOKEN_DROP.COUNT [31:0], RO/V: routes dropped for capacity. -/
def COL_TOKEN_DROP_COUNT : Fld := ⟨8 * (iodB + 0x400000 + 0x10C) + 0, 32, 0⟩
/-- R420: COL_ROUTE_BAD.COUNT [31:0], RO/V: routes naming no expert. -/
def COL_ROUTE_BAD_COUNT : Fld := ⟨8 * (iodB + 0x400000 + 0x110) + 0, 32, 0⟩
/-- R420: COL_TX_LO.COUNT [31:0], RO/V: bytes sent, received, forwarded; bits [31:0] and [47:32]. -/
def COL_TX_LO_COUNT : Fld := ⟨8 * (iodB + 0x400000 + 0x114) + 0, 32, 0⟩
/-- R420: COL_TX_HI.COUNT [15:0], RO/V: bytes sent, received, forwarded; bits [31:0] and [47:32]. -/
def COL_TX_HI_COUNT : Fld := ⟨8 * (iodB + 0x400000 + 0x118) + 0, 16, 0⟩
/-- R420: COL_RX_LO.COUNT [31:0], RO/V: bytes sent, received, forwarded; bits [31:0] and [47:32]. -/
def COL_RX_LO_COUNT : Fld := ⟨8 * (iodB + 0x400000 + 0x11C) + 0, 32, 0⟩
/-- R420: COL_RX_HI.COUNT [15:0], RO/V: bytes sent, received, forwarded; bits [31:0] and [47:32]. -/
def COL_RX_HI_COUNT : Fld := ⟨8 * (iodB + 0x400000 + 0x120) + 0, 16, 0⟩
/-- R420: COL_FWD_LO.COUNT [31:0], RO/V: bytes sent, received, forwarded; bits [31:0] and [47:32]. -/
def COL_FWD_LO_COUNT : Fld := ⟨8 * (iodB + 0x400000 + 0x124) + 0, 32, 0⟩
/-- R420: COL_FWD_HI.COUNT [15:0], RO/V: bytes sent, received, forwarded; bits [31:0] and [47:32]. -/
def COL_FWD_HI_COUNT : Fld := ⟨8 * (iodB + 0x400000 + 0x128) + 0, 16, 0⟩
/-- R420: COL_LOG.CODE [7:0], RO/V: status code or 0xFF for a discarded flit; entry 0 is the newest. -/
def COL_LOG_CODE (n : Nat) : Fld := ⟨8 * (iodB + 0x400000 + 0x140+4 * n) + 0, 8, 0⟩
/-- R420: COL_LOG.GROUP [15:8], RO/V: group. -/
def COL_LOG_GROUP (n : Nat) : Fld := ⟨8 * (iodB + 0x400000 + 0x140+4 * n) + 8, 8, 0⟩
/-- R420: COL_LOG.SLOT [20:16], RO/V: operation slot. -/
def COL_LOG_SLOT (n : Nat) : Fld := ⟨8 * (iodB + 0x400000 + 0x140+4 * n) + 16, 5, 0⟩
/-- R420: COL_LOG.VALID [31:31], RO/V: 1: entry holds an event. -/
def COL_LOG_VALID (n : Nat) : Fld := ⟨8 * (iodB + 0x400000 + 0x140+4 * n) + 31, 1, 0⟩
/-- R420: COL_CNT_CLR.CLR [0:0], W1S: clear counts and log; reads 0. -/
def COL_CNT_CLR_CLR : Fld := ⟨8 * (iodB + 0x400000 + 0x180) + 0, 1, 0⟩
/-- R420: COL_GROUP.VALID [0:0], RW: entry in use. -/
def COL_GROUP_VALID (g : Nat) : Fld := ⟨8 * (iodB + 0x400000 + 0x1000+0x10 * g) + 0, 1, 0⟩
/-- R420: COL_GROUP.BUSY [1:1], RO/V: 1 while an operation of the group is in flight. -/
def COL_GROUP_BUSY (g : Nat) : Fld := ⟨8 * (iodB + 0x400000 + 0x1000+0x10 * g) + 1, 1, 0⟩
/-- R420: COL_GROUP.TENANT [15:8], RW: owning tenant. -/
def COL_GROUP_TENANT (g : Nat) : Fld := ⟨8 * (iodB + 0x400000 + 0x1000+0x10 * g) + 8, 8, 255⟩
/-- R420: COL_GROUP.SIZE_M1 [27:16], RW: G − 1. -/
def COL_GROUP_SIZE_M1 (g : Nat) : Fld := ⟨8 * (iodB + 0x400000 + 0x1000+0x10 * g) + 16, 12, 0⟩
/-- R420: COL_GROUP.RANK [43:32], RW: own rank. -/
def COL_GROUP_RANK (g : Nat) : Fld := ⟨8 * (iodB + 0x400000 + 0x1000+0x10 * g) + 32, 12, 0⟩
/-- R420: COL_GROUP.GEN [95:64], RW: group generation. -/
def COL_GROUP_GEN (g : Nat) : Fld := ⟨8 * (iodB + 0x400000 + 0x1000+0x10 * g) + 64, 32, 0⟩
/-- R420: COL_ROUTE_ACT [31:0], RO/V: port of destination 8w + j in bits [4j + 2 : 4j]; bit 4j + 3 reserved. -/
def COL_ROUTE_ACT (w : Nat) : Fld := ⟨8 * (iodB + 0x400000 + 0x2000+4 * w) + 0, 32, 0⟩
/-- R420: COL_ROUTE_SHD [31:0], RW: port of destination 8w + j in bits [4j + 2 : 4j]; bit 4j + 3 reserved. -/
def COL_ROUTE_SHD (w : Nat) : Fld := ⟨8 * (iodB + 0x400000 + 0x2800+4 * w) + 0, 32, 0⟩
/-- R420: COL_MEMBER.X [3:0], RW: coordinates of rank r. -/
def COL_MEMBER_X (g k : Nat) : Fld := ⟨8 * (iodB + 0x400000 + 0x100000+0x2000 * g+2 * k) + 0, 4, 0⟩
/-- R420: COL_MEMBER.Y [7:4], RW: coordinates of rank r. -/
def COL_MEMBER_Y (g k : Nat) : Fld := ⟨8 * (iodB + 0x400000 + 0x100000+0x2000 * g+2 * k) + 4, 4, 0⟩
/-- R420: COL_MEMBER.Z [11:8], RW: coordinates of rank r. -/
def COL_MEMBER_Z (g k : Nat) : Fld := ⟨8 * (iodB + 0x400000 + 0x100000+0x2000 * g+2 * k) + 8, 4, 0⟩
/-- R439: HTP_CTL.EN [0:0], RW: 1: the port may bring its link up. -/
def HTP_CTL_EN : Fld := ⟨8 * (iodB + 0xA0000 + 0x000) + 0, 1, 0⟩
/-- R439: HTP_CFG.VLAN_EN [0:0], RW: 1: accept the tagged VID. -/
def HTP_CFG_VLAN_EN : Fld := ⟨8 * (iodB + 0xA0000 + 0x004) + 0, 1, 0⟩
/-- R439: HTP_CFG.VID [15:4], RW: VLAN identifier. -/
def HTP_CFG_VID : Fld := ⟨8 * (iodB + 0xA0000 + 0x004) + 4, 12, 0⟩
/-- R439: HTP_CFG.RETRY_MAX [23:16], RW: consecutive timeouts before BROKEN; 0 acts as 1. -/
def HTP_CFG_RETRY_MAX : Fld := ⟨8 * (iodB + 0xA0000 + 0x004) + 16, 8, 8⟩
/-- R439: HTP_STAT.LINK [0:0], RO/V: 1: link up. -/
def HTP_STAT_LINK : Fld := ⟨8 * (iodB + 0xA0000 + 0x008) + 0, 1, 0⟩
/-- R439: HTP_STAT.REFCLK [1:1], RO/V: 1: REFCLK_ETH present. -/
def HTP_STAT_REFCLK : Fld := ⟨8 * (iodB + 0xA0000 + 0x008) + 1, 1, 0⟩
/-- R439: HTP_RTO.US [15:0], RW: initial retransmission timeout in µs. -/
def HTP_RTO_US : Fld := ⟨8 * (iodB + 0xA0000 + 0x00C) + 0, 16, 50⟩
/-- R439: HTP_MAC_LO [31:0], RW: MAC address, bits [31:0] and [47:32]. -/
def HTP_MAC_LO : Fld := ⟨8 * (iodB + 0xA0000 + 0x010) + 0, 32, 0⟩
/-- R439: HTP_MAC_HI [15:0], RW: MAC address, bits [31:0] and [47:32]. -/
def HTP_MAC_HI : Fld := ⟨8 * (iodB + 0xA0000 + 0x014) + 0, 16, 0⟩
/-- R439: HTP_ADDR_DATA [31:0], RW: IPv6 address, word 0 least significant. -/
def HTP_ADDR_DATA (w : Nat) : Fld := ⟨8 * (iodB + 0xA0000 + 0x020+4 * w) + 0, 32, 0⟩
/-- R439: HTP_ADDR_MGMT [31:0], RW: IPv6 address, word 0 least significant. -/
def HTP_ADDR_MGMT (w : Nat) : Fld := ⟨8 * (iodB + 0xA0000 + 0x030+4 * w) + 0, 32, 0⟩
/-- R439: HTP_RING_BASE.ADDR [47:0], RW: ring base, 4 KiB-aligned; writes ignored while EN = 1. -/
def HTP_RING_BASE_ADDR (q : Nat) : Fld := ⟨8 * (iodB + 0xA0000 + 0x040+0x20 * q) + 0, 48, 0⟩
/-- R439: HTP_RING_SIZE.ENTRIES [15:0], RW: entries, at least 2; writes ignored while EN = 1. -/
def HTP_RING_SIZE_ENTRIES (q : Nat) : Fld := ⟨8 * (iodB + 0xA0000 + 0x048+0x20 * q) + 0, 16, 0⟩
/-- R439: HTP_RING_HEAD.INDEX [15:0], RO/V: next entry the engine writes. -/
def HTP_RING_HEAD_INDEX (q : Nat) : Fld := ⟨8 * (iodB + 0xA0000 + 0x04C+0x20 * q) + 0, 16, 0⟩
/-- R439: HTP_RING_TAIL.INDEX [15:0], RW: next entry firmware reads. -/
def HTP_RING_TAIL_INDEX (q : Nat) : Fld := ⟨8 * (iodB + 0xA0000 + 0x050+0x20 * q) + 0, 16, 0⟩
/-- R439: HTP_CQ_BASE.ADDR [47:0], RW: completion ring base, 64 B-aligned. -/
def HTP_CQ_BASE_ADDR : Fld := ⟨8 * (iodB + 0xA0000 + 0x080) + 0, 48, 0⟩
/-- R439: HTP_CQ_SIZE.ENTRIES [15:0], RW: completion ring entries. -/
def HTP_CQ_SIZE_ENTRIES : Fld := ⟨8 * (iodB + 0xA0000 + 0x088) + 0, 16, 0⟩
/-- R439: HTP_CQ_HEAD.INDEX [15:0], RO/V: next record the launch unit writes. -/
def HTP_CQ_HEAD_INDEX : Fld := ⟨8 * (iodB + 0xA0000 + 0x08C) + 0, 16, 0⟩
/-- R439: HTP_CQ_TAIL.INDEX [15:0], RW: next record firmware reads (R436). -/
def HTP_CQ_TAIL_INDEX : Fld := ⟨8 * (iodB + 0xA0000 + 0x09C) + 0, 16, 0⟩
/-- R439: HTP_TXQ_ADDR.ADDR [47:0], RW: HBM address of a message to send, header first. -/
def HTP_TXQ_ADDR_ADDR : Fld := ⟨8 * (iodB + 0xA0000 + 0x090) + 0, 48, 0⟩
/-- R439: HTP_TXQ_GO.FLOW [7:0], WO: flow; the write sends the message. -/
def HTP_TXQ_GO_FLOW : Fld := ⟨8 * (iodB + 0xA0000 + 0x098) + 0, 8, 0⟩
/-- R439: HTP_ABORT.ID [31:0], WO: LAUNCH_ID; the write reaches the commit point. -/
def HTP_ABORT_ID : Fld := ⟨8 * (iodB + 0xA0000 + 0x0A0) + 0, 32, 0⟩
/-- R439: HTP_ABORT.TENANT [39:32], WO: tenant of the launch; stored for later ID writes (R437). -/
def HTP_ABORT_TENANT : Fld := ⟨8 * (iodB + 0xA0000 + 0x0A0) + 32, 8, 0⟩
/-- R439: HTP_ABORT_STAT.RESULT [1:0], RO/V: 0 ACCEPTED, 1 TOO_LATE, 2 UNKNOWN. -/
def HTP_ABORT_STAT_RESULT : Fld := ⟨8 * (iodB + 0xA0000 + 0x0A8) + 0, 2, 0⟩
/-- R439: HTP_BROKEN [31:0], W1C: bit j: flow 32w + j is BROKEN. -/
def HTP_BROKEN (w : Nat) : Fld := ⟨8 * (iodB + 0xA0000 + 0x0C0+4 * w) + 0, 32, 0⟩
/-- R439: HTP_CNT_CLR.CLR [0:0], W1S: clear the HTP_ counts; reads 0. -/
def HTP_CNT_CLR_CLR : Fld := ⟨8 * (iodB + 0xA0000 + 0x180) + 0, 1, 0⟩
/-- R439: HTP_FLOW.VALID [0:0], RW: 1: entry in use; setting it resets the sequences. -/
def HTP_FLOW_VALID (f : Nat) : Fld := ⟨8 * (iodB + 0xA0000 + 0x1000+0x20 * f) + 0, 1, 0⟩
/-- R439: HTP_FLOW.MGMT [1:1], RW: 1: bound to HTP_ADDR_MGMT. -/
def HTP_FLOW_MGMT (f : Nat) : Fld := ⟨8 * (iodB + 0xA0000 + 0x1000+0x20 * f) + 1, 1, 0⟩
/-- R439: HTP_FLOW.PRIO [3:2], RW: priority P1–P3 of the flow's puts and gets; 0 acts as 2; management flows run at P0. -/
def HTP_FLOW_PRIO (f : Nat) : Fld := ⟨8 * (iodB + 0xA0000 + 0x1000+0x20 * f) + 2, 2, 2⟩
/-- R439: HTP_FLOW.TENANT [15:8], RW: tenant, or 0xFE for management. -/
def HTP_FLOW_TENANT (f : Nat) : Fld := ⟨8 * (iodB + 0xA0000 + 0x1000+0x20 * f) + 8, 8, 255⟩
/-- R439: HTP_FLOW.PORT [31:16], RW: host UDP port. -/
def HTP_FLOW_PORT (f : Nat) : Fld := ⟨8 * (iodB + 0xA0000 + 0x1000+0x20 * f) + 16, 16, 0⟩
/-- R439: HTP_FLOW.WINDOW [47:32], RW: largest advertised window in packets. -/
def HTP_FLOW_WINDOW (f : Nat) : Fld := ⟨8 * (iodB + 0xA0000 + 0x1000+0x20 * f) + 32, 16, 1024⟩
/-- R439: HTP_FLOW.HOST [255:128], RW: host IPv6 address. -/
def HTP_FLOW_HOST (f : Nat) : Fld := ⟨8 * (iodB + 0xA0000 + 0x1000+0x20 * f) + 128, 128, 0⟩
/-- R457: MOD_ID.CAP [1:0], RO: Root cellar capacity: 1 2 TiB, 2 4 TiB (R2); 0 and 3 mark an unprogrammed or damaged fuse, in which case firmware uses only the -F2 layout of Table 19.1 and reports the module degraded (Table 17.6). -/
def MOD_ID_CAP : Fld := ⟨8 * (iodB + 0x000) + 0, 2, Config.fuseCap.toNat⟩
/-- R457: MOD_ID.STEP [11:8], RO: silicon stepping. -/
def MOD_ID_STEP : Fld := ⟨8 * (iodB + 0x000) + 8, 4, Config.fuseStep.toNat⟩
/-- R457: MOD_SERIAL_LO [31:0], RO: serial number, bits [31:0] and [63:32]. -/
def MOD_SERIAL_LO : Fld := ⟨8 * (iodB + 0x008) + 0, 32, Config.fuseSerialLo.toNat⟩
/-- R457: MOD_SERIAL_HI [31:0], RO: serial number, bits [31:0] and [63:32]. -/
def MOD_SERIAL_HI : Fld := ⟨8 * (iodB + 0x00C) + 0, 32, Config.fuseSerialHi.toNat⟩
/-- R457: MOD_STRAP.SLOT_ID [5:0], RO: SLOT_ID pins. -/
def MOD_STRAP_SLOT_ID : Fld := ⟨8 * (iodB + 0x010) + 0, 6, Config.strapSlotId.toNat⟩
/-- R457: MOD_STRAP.MGR_EN [8:8], RO: MGR_EN pin. -/
def MOD_STRAP_MGR_EN : Fld := ⟨8 * (iodB + 0x010) + 8, 1, Config.strapMgrEn.toNat⟩
/-- R457: MOD_STRAP.FEED_ID [15:12], RO: FEED_ID pins. -/
def MOD_STRAP_FEED_ID : Fld := ⟨8 * (iodB + 0x010) + 12, 4, Config.strapFeedId.toNat⟩
/-- R457: MOD_RESET_CAUSE.POR [0:0], W1C: power-on, MOD_RESET_N, watchdog. -/
def MOD_RESET_CAUSE_POR : Fld := ⟨8 * (iodB + 0x020) + 0, 1, 0⟩
/-- R457: MOD_RESET_CAUSE.PIN [1:1], W1C: power-on, MOD_RESET_N, watchdog. -/
def MOD_RESET_CAUSE_PIN : Fld := ⟨8 * (iodB + 0x020) + 1, 1, 0⟩
/-- R457: MOD_RESET_CAUSE.WDT [2:2], W1C: power-on, MOD_RESET_N, watchdog. -/
def MOD_RESET_CAUSE_WDT : Fld := ⟨8 * (iodB + 0x020) + 2, 1, 0⟩
/-- R457: MOD_RESET_CAUSE.CORE [6:4], RO/V: core of the last watchdog or parity cause. -/
def MOD_RESET_CAUSE_CORE : Fld := ⟨8 * (iodB + 0x020) + 4, 3, 0⟩
/-- R457: MOD_RESET_CAUSE.PARITY [8:8], W1C: causes of R442, R441 and R455, R452. -/
def MOD_RESET_CAUSE_PARITY : Fld := ⟨8 * (iodB + 0x020) + 8, 1, 0⟩
/-- R457: MOD_RESET_CAUSE.IOD [9:9], W1C: causes of R442, R441 and R455, R452. -/
def MOD_RESET_CAUSE_IOD : Fld := ⟨8 * (iodB + 0x020) + 9, 1, 0⟩
/-- R457: MOD_RESET_CAUSE.SOFT [10:10], W1C: causes of R442, R441 and R455, R452. -/
def MOD_RESET_CAUSE_SOFT : Fld := ⟨8 * (iodB + 0x020) + 10, 1, 0⟩
/-- R457: MOD_RESET_CAUSE.BOOT [11:11], W1C: causes of R442, R441 and R455, R452. -/
def MOD_RESET_CAUSE_BOOT : Fld := ⟨8 * (iodB + 0x020) + 11, 1, 0⟩
/-- R457: MOD_RESET_CTL.WARM [0:0], W1S: request a warm reset with cause SOFT. -/
def MOD_RESET_CTL_WARM : Fld := ⟨8 * (iodB + 0x024) + 0, 1, 0⟩
/-- R457: MOD_BOOT.STAGE [3:0], RO/V: stage of Table 17.4; 8 recovery; 15 ROM halted. -/
def MOD_BOOT_STAGE : Fld := ⟨8 * (iodB + 0x030) + 0, 4, 0⟩
/-- R457: MOD_BOOT.SLOT [4:4], RO/V: as in Table 17.6. -/
def MOD_BOOT_SLOT : Fld := ⟨8 * (iodB + 0x030) + 4, 1, 0⟩
/-- R457: MOD_BOOT.TRIAL [5:5], RO/V: as in Table 17.6. -/
def MOD_BOOT_TRIAL : Fld := ⟨8 * (iodB + 0x030) + 5, 1, 0⟩
/-- R457: MOD_BOOT.ROLLED_BACK [6:6], RO/V: as in Table 17.6. -/
def MOD_BOOT_ROLLED_BACK : Fld := ⟨8 * (iodB + 0x030) + 6, 1, 0⟩
/-- R457: MOD_BOOT.TRIES [9:8], RO/V: TRIES of the boot state record. -/
def MOD_BOOT_TRIES : Fld := ⟨8 * (iodB + 0x030) + 8, 2, 0⟩
/-- R457: MOD_BOOT.MS [31:12], RO/V: ms since reset release, saturating. -/
def MOD_BOOT_MS : Fld := ⟨8 * (iodB + 0x030) + 12, 20, 0⟩
/-- R457: MOD_BOOT_LIMIT.S [15:0], RW: boot limit in s; 0 acts as 90. -/
def MOD_BOOT_LIMIT_S : Fld := ⟨8 * (iodB + 0x034) + 0, 16, 90⟩
/-- R457: MOD_SVN.MIN [6:0], RO: lowest SVN accepted. -/
def MOD_SVN_MIN : Fld := ⟨8 * (iodB + 0x038) + 0, 7, Config.fuseSvnMin.toNat⟩
/-- R457: MOD_FW_VER.VERSION [31:0], RO/V: VERSION of the running firmware. -/
def MOD_FW_VER_VERSION : Fld := ⟨8 * (iodB + 0x03C) + 0, 32, 0⟩
/-- R457: MOD_READY.STATUS [1:0], RW: 0 not ready, 1 ready, 2 degraded, 3 recovery. -/
def MOD_READY_STATUS : Fld := ⟨8 * (iodB + 0x040) + 0, 2, 0⟩
/-- R457: MOD_READY_REGIONS.MASK [31:0], RW: as REGIONS of Table 17.6. -/
def MOD_READY_REGIONS_MASK : Fld := ⟨8 * (iodB + 0x044) + 0, 32, 0⟩
/-- R457: MOD_READY_STACKS.MASK [11:0], RW: as STACKS of Table 17.6. -/
def MOD_READY_STACKS_MASK : Fld := ⟨8 * (iodB + 0x048) + 0, 12, 0⟩
/-- R457: MOD_CC_RUN.RUN [7:0], RW: bit c: core c released. -/
def MOD_CC_RUN_RUN : Fld := ⟨8 * (iodB + 0x050) + 0, 8, 1⟩
/-- R457: MOD_CSRAM_CE.COUNT [31:0], RO/V: events of R440 and R442. -/
def MOD_CSRAM_CE_COUNT : Fld := ⟨8 * (iodB + 0x060) + 0, 32, 0⟩
/-- R457: MOD_CSRAM_UE.COUNT [31:0], RO/V: events of R440 and R442. -/
def MOD_CSRAM_UE_COUNT : Fld := ⟨8 * (iodB + 0x064) + 0, 32, 0⟩
/-- R457: MOD_CC_PARITY.COUNT [31:0], RO/V: events of R440 and R442. -/
def MOD_CC_PARITY_COUNT : Fld := ⟨8 * (iodB + 0x068) + 0, 32, 0⟩
/-- R457: MOD_WDT.PERIOD [15:0], RW: period in ms; 0 acts as 1. -/
def MOD_WDT_PERIOD (c : Nat) : Fld := ⟨8 * (iodB + 0x100+0x10 * c) + 0, 16, 1000⟩
/-- R457: MOD_WDT.EN [31:31], W1S: armed until the next reset. -/
def MOD_WDT_EN (c : Nat) : Fld := ⟨8 * (iodB + 0x100+0x10 * c) + 31, 1, 0⟩
/-- R457: MOD_WDT_KICK.KEY [7:0], WO: 0x5A restarts the count. -/
def MOD_WDT_KICK_KEY (c : Nat) : Fld := ⟨8 * (iodB + 0x104+0x10 * c) + 0, 8, 0⟩
/-- R457: MOD_WDT_LEFT.MS [15:0], RO/V: ms before expiry. -/
def MOD_WDT_LEFT_MS (c : Nat) : Fld := ⟨8 * (iodB + 0x108+0x10 * c) + 0, 16, 0⟩
/-- R457: MOD_LAUNCH_LO.ADDR [31:0], WO: launch record address, bits [31:0]. -/
def MOD_LAUNCH_LO_ADDR (c : Nat) : Fld := ⟨8 * (iodB + 0x200+0x10 * c) + 0, 32, 0⟩
/-- R457: MOD_LAUNCH_HI.ADDR [15:0], WO: bits [47:32]; the write submits. -/
def MOD_LAUNCH_HI_ADDR (c : Nat) : Fld := ⟨8 * (iodB + 0x204+0x10 * c) + 0, 16, 0⟩
/-- R457: MOD_LAUNCH_STAT.PEND [31:31], RO/V: 1 until acceptance or refusal is committed. -/
def MOD_LAUNCH_STAT_PEND (c : Nat) : Fld := ⟨8 * (iodB + 0x208+0x10 * c) + 31, 1, 0⟩
/-- R480: SEC_ID_PUB [31:0], RO/V: public key bytes 4w to 4w + 3, little-endian; bytes 57–63 read 0. -/
def SEC_ID_PUB (w : Nat) : Fld := ⟨8 * (iodB + 0x30000 + 0x000+4 * w) + 0, 32, 0⟩
/-- R480: SEC_ROOT_HASH [31:0], RO: digest of the Aqelo root key. -/
def SEC_ROOT_HASH (w : Nat) : Fld := ⟨8 * (iodB + 0x30000 + 0x040+4 * w) + 0, 32, (Config.fuseRootHash w).toNat⟩
/-- R480: SEC_MEAS [31:0], RO/V: register m, bytes 4w to 4w + 3. -/
def SEC_MEAS (m w : Nat) : Fld := ⟨8 * (iodB + 0x30000 + 0x100+0x40 * m+4 * w) + 0, 32, 0⟩
/-- R480: SEC_MEAS_IN [31:0], WO: value D to extend with. -/
def SEC_MEAS_IN (w : Nat) : Fld := ⟨8 * (iodB + 0x30000 + 0x300+4 * w) + 0, 32, 0⟩
/-- R480: SEC_MEAS_CTL.IDX [2:0], WO: register to extend. -/
def SEC_MEAS_CTL_IDX : Fld := ⟨8 * (iodB + 0x30000 + 0x340) + 0, 3, 0⟩
/-- R480: SEC_MEAS_CTL.GO [8:8], W1S: extend; reads 1 until done. -/
def SEC_MEAS_CTL_GO : Fld := ⟨8 * (iodB + 0x30000 + 0x340) + 8, 1, 0⟩
/-- R480: SEC_MEAS_CTL.ERR [9:9], W1C: sticky: write to a locked register. -/
def SEC_MEAS_CTL_ERR : Fld := ⟨8 * (iodB + 0x30000 + 0x340) + 9, 1, 0⟩
/-- R480: SEC_MEAS_LOCK.LOCK [7:0], W1S: bit m: register m locked. -/
def SEC_MEAS_LOCK_LOCK : Fld := ⟨8 * (iodB + 0x30000 + 0x344) + 0, 8, 8⟩
/-- R480: SEC_DBG_STAT.STATE [0:0], RO/V: 1 unlocked. -/
def SEC_DBG_STAT_STATE : Fld := ⟨8 * (iodB + 0x30000 + 0x400) + 0, 1, 0⟩
/-- R480: SEC_DBG_STAT.EVER [1:1], RO/V: 1: unlocked since the last reset. -/
def SEC_DBG_STAT_EVER : Fld := ⟨8 * (iodB + 0x30000 + 0x400) + 1, 1, 0⟩
/-- R480: SEC_DBG_FAIL.COUNT [7:0], RO/V: consecutive failures. -/
def SEC_DBG_FAIL_COUNT : Fld := ⟨8 * (iodB + 0x30000 + 0x404) + 0, 8, 0⟩
/-- R480: SEC_DBG_FAIL.WAIT_S [31:16], RO/V: s of lockout remaining. -/
def SEC_DBG_FAIL_WAIT_S : Fld := ⟨8 * (iodB + 0x30000 + 0x404) + 16, 16, 0⟩
/-- R480: SEC_DBG_KEYSET.KEYS [3:0], RO: bit k: key slot k programmed. -/
def SEC_DBG_KEYSET_KEYS : Fld := ⟨8 * (iodB + 0x30000 + 0x408) + 0, 4, Config.fuseDbgKeys.toNat⟩
/-- R480: SEC_DBG_KEYSET.PWD [4:4], RO: password programmed. -/
def SEC_DBG_KEYSET_PWD : Fld := ⟨8 * (iodB + 0x30000 + 0x408) + 4, 1, Config.fuseDbgPwd.toNat⟩
/-- R480: SEC_FW_REVOKE.KEYS [3:0], W1S: bit k: image key k revoked. -/
def SEC_FW_REVOKE_KEYS : Fld := ⟨8 * (iodB + 0x30000 + 0x40C) + 0, 4, Config.fuseRevoke.toNat⟩
/-- R480: TEN_REGION.OWNER [7:0], RW: owning tenant. -/
def TEN_REGION_OWNER (r : Nat) : Fld := ⟨8 * (iodB + 0x40000 + 0x000+4 * r) + 0, 8, 255⟩
/-- R480: TEN_REGION.PEND [8:8], RO/V: 1 while a reassignment scrubs. -/
def TEN_REGION_PEND (r : Nat) : Fld := ⟨8 * (iodB + 0x40000 + 0x000+4 * r) + 8, 1, 0⟩
/-- R480: TEN_REGION.STATUS [11:9], RO/V: 0 done, 1 BUSY, 2 VALUE. -/
def TEN_REGION_STATUS (r : Nat) : Fld := ⟨8 * (iodB + 0x40000 + 0x000+4 * r) + 9, 3, 0⟩
/-- R480: TEN_STACK.OWNER [7:0], RW: owner; 0xFE management. -/
def TEN_STACK_OWNER (k : Nat) : Fld := ⟨8 * (iodB + 0x40000 + 0x080+4 * k) + 0, 8, 254⟩
/-- R480: TEN_STACK.PEND [8:8], RO/V: 1 while a reassignment scrubs. -/
def TEN_STACK_PEND (k : Nat) : Fld := ⟨8 * (iodB + 0x40000 + 0x080+4 * k) + 8, 1, 0⟩
/-- R480: TEN_STACK.STATUS [11:9], RO/V: 0 done, 1 BUSY, 3 WP, 4 STASH; 2 is never set (R469). -/
def TEN_STACK_STATUS (k : Nat) : Fld := ⟨8 * (iodB + 0x40000 + 0x080+4 * k) + 9, 3, 0⟩
/-- R480: TEN_SHARE.SHARE [7:0], RW: s_t (R466). -/
def TEN_SHARE_SHARE (t : Nat) : Fld := ⟨8 * (iodB + 0x40000 + 0x100+4 * t) + 0, 8, 1⟩
/-- R480: TEN_MREC_BASE.ADDR [47:0], RW: ring base, 256 B-aligned, in a management stack. -/
def TEN_MREC_BASE_ADDR : Fld := ⟨8 * (iodB + 0x40000 + 0x800) + 0, 48, 0⟩
/-- R480: TEN_MREC_SIZE.ENTRIES [15:0], RW: entries; 0 holds records in the meter (R471). -/
def TEN_MREC_SIZE_ENTRIES : Fld := ⟨8 * (iodB + 0x40000 + 0x808) + 0, 16, 0⟩
/-- R480: TEN_MREC_HEAD.INDEX [15:0], RO/V: next entry the meter writes. -/
def TEN_MREC_HEAD_INDEX : Fld := ⟨8 * (iodB + 0x40000 + 0x80C) + 0, 16, 0⟩
/-- R480: TEN_MREC_TAIL.INDEX [15:0], RW: next entry firmware reads. -/
def TEN_MREC_TAIL_INDEX : Fld := ⟨8 * (iodB + 0x40000 + 0x810) + 0, 16, 0⟩
/-- R480: TEN_MSEQ_LO [31:0], RO/V: next SEQ, bits [31:0] and [63:32]. -/
def TEN_MSEQ_LO : Fld := ⟨8 * (iodB + 0x40000 + 0x820) + 0, 32, 0⟩
/-- R480: TEN_MSEQ_HI [31:0], RO/V: next SEQ, bits [31:0] and [63:32]. -/
def TEN_MSEQ_HI : Fld := ⟨8 * (iodB + 0x40000 + 0x824) + 0, 32, 0⟩
/-- R480: TEN_ZERO_CNT.COUNT [31:0], RO/V: reassignment scrubs completed. -/
def TEN_ZERO_CNT_COUNT : Fld := ⟨8 * (iodB + 0x40000 + 0x828) + 0, 32, 0⟩
/-- R504: SNP_CTL.OP [2:0], WO: 1 START, 2 COMMIT, 3 ABORT, 4 RESTORE; others ignored. -/
def SNP_CTL_OP : Fld := ⟨8 * (iodB + 0x50000 + 0x000) + 0, 3, 0⟩
/-- R504: SNP_CTL.JSLOT [6:4], WO: job slot. -/
def SNP_CTL_JSLOT : Fld := ⟨8 * (iodB + 0x50000 + 0x000) + 4, 3, 0⟩
/-- R504: SNP_CTL.SRC [9:8], WO: RESTORE source (R500). -/
def SNP_CTL_SRC : Fld := ⟨8 * (iodB + 0x50000 + 0x000) + 8, 2, 0⟩
/-- R504: SNP_CTL_STAT.CODE [3:0], RO/V: 0 accepted, 1 SNP_STATE, 2 SNP_PARAM, 3 SNP_STASH, 4 SNP_STAGING, 5 SNP_LAYOUT, 6 SNP_NO_IMAGE, 7 SNP_CRC. -/
def SNP_CTL_STAT_CODE : Fld := ⟨8 * (iodB + 0x50000 + 0x004) + 0, 4, 0⟩
/-- R504: SNP_CTL_STAT.PEND [31:31], RO/V: 1 while a command is checked. -/
def SNP_CTL_STAT_PEND : Fld := ⟨8 * (iodB + 0x50000 + 0x004) + 31, 1, 0⟩
/-- R504: SNP_RISK.THRESH [7:0], RW: risk threshold (R487). -/
def SNP_RISK_THRESH : Fld := ⟨8 * (iodB + 0x50000 + 0x008) + 0, 8, 192⟩
/-- R504: SNP_RISK.HYST [15:8], RW: re-arm margin. -/
def SNP_RISK_HYST : Fld := ⟨8 * (iodB + 0x50000 + 0x008) + 8, 8, 16⟩
/-- R504: SNP_RISK.SCORE [23:16], RO/V: current health risk score. -/
def SNP_RISK_SCORE : Fld := ⟨8 * (iodB + 0x50000 + 0x008) + 16, 8, 0⟩
/-- R504: SNP_RISK.ARMED [24:24], RO/V: 1: a rise to THRESH sets DUE. -/
def SNP_RISK_ARMED : Fld := ⟨8 * (iodB + 0x50000 + 0x008) + 24, 1, 1⟩
/-- R504: SNP_PARTNER.STATE [1:0], RO/V: 0 none, 1 confirmed, 2 copying, 3 current. -/
def SNP_PARTNER_STATE : Fld := ⟨8 * (iodB + 0x50000 + 0x00C) + 0, 2, 0⟩
/-- R504: SNP_PARTNER.TIER2 [2:2], RO/V: 1: pairing forced. -/
def SNP_PARTNER_TIER2 : Fld := ⟨8 * (iodB + 0x50000 + 0x00C) + 2, 1, 0⟩
/-- R504: SNP_PARTNER.FEED [7:4], RO/V: partner's FEED_ID. -/
def SNP_PARTNER_FEED : Fld := ⟨8 * (iodB + 0x50000 + 0x00C) + 4, 4, 0⟩
/-- R504: SNP_PARTNER.LAG_S [31:8], RO/V: partner lag in s, saturating. -/
def SNP_PARTNER_LAG_S : Fld := ⟨8 * (iodB + 0x50000 + 0x00C) + 8, 24, 0⟩
/-- R504: SNP_PARTNER_SER_LO [31:0], RO/V: partner serial, bits [31:0] and [63:32]. -/
def SNP_PARTNER_SER_LO : Fld := ⟨8 * (iodB + 0x50000 + 0x010) + 0, 32, 0⟩
/-- R504: SNP_PARTNER_SER_HI [31:0], RO/V: partner serial, bits [31:0] and [63:32]. -/
def SNP_PARTNER_SER_HI : Fld := ⟨8 * (iodB + 0x50000 + 0x014) + 0, 32, 0⟩
/-- R504: SNP_DONE_CNT.COUNT [31:0], RO/V: snapshots committed; snapshots ended with ERR ≠ 0. -/
def SNP_DONE_CNT_COUNT : Fld := ⟨8 * (iodB + 0x50000 + 0x020) + 0, 32, 0⟩
/-- R504: SNP_FAIL_CNT.COUNT [31:0], RO/V: snapshots committed; snapshots ended with ERR ≠ 0. -/
def SNP_FAIL_CNT_COUNT : Fld := ⟨8 * (iodB + 0x50000 + 0x024) + 0, 32, 0⟩
/-- R504: SNP_REPLAY_OK.COUNT [31:0], RO/V: replays VERIFIED; replays MISMATCH. -/
def SNP_REPLAY_OK_COUNT : Fld := ⟨8 * (iodB + 0x50000 + 0x028) + 0, 32, 0⟩
/-- R504: SNP_REPLAY_BAD.COUNT [31:0], RO/V: replays VERIFIED; replays MISMATCH. -/
def SNP_REPLAY_BAD_COUNT : Fld := ⟨8 * (iodB + 0x50000 + 0x02C) + 0, 32, 0⟩
/-- R504: SNP_HELD_CNT.COUNT [31:0], RO/V: launches and operations held under R491. -/
def SNP_HELD_CNT_COUNT : Fld := ⟨8 * (iodB + 0x50000 + 0x030) + 0, 32, 0⟩
/-- R504: SNP_FLASH_LO [31:0], RO/V: bytes written to areas, bits [31:0] and [47:32]. -/
def SNP_FLASH_LO : Fld := ⟨8 * (iodB + 0x50000 + 0x034) + 0, 32, 0⟩
/-- R504: SNP_FLASH_HI [15:0], RO/V: bytes written to areas, bits [31:0] and [47:32]. -/
def SNP_FLASH_HI : Fld := ⟨8 * (iodB + 0x50000 + 0x038) + 0, 16, 0⟩
/-- R504: SNP_CNT_CLR.CLR [0:0], W1S: clear the SNP_ counts; reads 0. -/
def SNP_CNT_CLR_CLR : Fld := ⟨8 * (iodB + 0x50000 + 0x080) + 0, 1, 0⟩
/-- R504: SNP_JOB_CFG.VALID [0:0], RW: 1: slot configured. -/
def SNP_JOB_CFG_VALID (j : Nat) : Fld := ⟨8 * (iodB + 0x50000 + 0x100+0x40 * j) + 0, 1, 0⟩
/-- R504: SNP_JOB_CFG.VERIFY [1:1], RW: 1: replay compares the loss. -/
def SNP_JOB_CFG_VERIFY (j : Nat) : Fld := ⟨8 * (iodB + 0x50000 + 0x100+0x40 * j) + 1, 1, 0⟩
/-- R504: SNP_JOB_CFG.LOSS_FMT [7:4], RW: 0 or 14. -/
def SNP_JOB_CFG_LOSS_FMT (j : Nat) : Fld := ⟨8 * (iodB + 0x50000 + 0x100+0x40 * j) + 4, 4, 0⟩
/-- R504: SNP_JOB_CFG.TENANT [15:8], RW: tenant. -/
def SNP_JOB_CFG_TENANT (j : Nat) : Fld := ⟨8 * (iodB + 0x50000 + 0x100+0x40 * j) + 8, 8, 255⟩
/-- R504: SNP_JOB_CFG.JOB [63:32], RW: job number. -/
def SNP_JOB_CFG_JOB (j : Nat) : Fld := ⟨8 * (iodB + 0x50000 + 0x100+0x40 * j) + 32, 32, 0⟩
/-- R504: SNP_JOB_CURSOR.ADDR [47:0], RW: cursor block, 64 B-aligned. -/
def SNP_JOB_CURSOR_ADDR (j : Nat) : Fld := ⟨8 * (iodB + 0x50000 + 0x108+0x40 * j) + 0, 48, 0⟩
/-- R504: SNP_JOB_LOSS.ADDR [47:0], RW: loss word, 8 B-aligned. -/
def SNP_JOB_LOSS_ADDR (j : Nat) : Fld := ⟨8 * (iodB + 0x50000 + 0x110+0x40 * j) + 0, 48, 0⟩
/-- R504: SNP_JOB_STEP.STEP [31:0], RW: step S for the next START. -/
def SNP_JOB_STEP_STEP (j : Nat) : Fld := ⟨8 * (iodB + 0x50000 + 0x118+0x40 * j) + 0, 32, 0⟩
/-- R504: SNP_JOB_MTBF.S [31:0], RW: M in s (R486). -/
def SNP_JOB_MTBF_S (j : Nat) : Fld := ⟨8 * (iodB + 0x50000 + 0x11C+0x40 * j) + 0, 32, 0⟩
/-- R504: SNP_JOB_INTERVAL.S [31:0], RW: interval in s; 0: no timer. -/
def SNP_JOB_INTERVAL_S (j : Nat) : Fld := ⟨8 * (iodB + 0x50000 + 0x120+0x40 * j) + 0, 32, 0⟩
/-- R504: SNP_JOB_ELAPSED.MS [31:0], RO/V: ms of domain 39 since the last START, saturating. -/
def SNP_JOB_ELAPSED_MS (j : Nat) : Fld := ⟨8 * (iodB + 0x50000 + 0x124+0x40 * j) + 0, 32, 0⟩
/-- R504: SNP_JOB_STAT.STATE [2:0], RO/V: Table 19.3. -/
def SNP_JOB_STAT_STATE (j : Nat) : Fld := ⟨8 * (iodB + 0x50000 + 0x128+0x40 * j) + 0, 3, 0⟩
/-- R504: SNP_JOB_STAT.DUE [4:4], RO/V: 1: snapshot due. -/
def SNP_JOB_STAT_DUE (j : Nat) : Fld := ⟨8 * (iodB + 0x50000 + 0x128+0x40 * j) + 4, 1, 0⟩
/-- R504: SNP_JOB_STAT.CAUSE [6:5], RO/V: 1 timer, 2 risk. -/
def SNP_JOB_STAT_CAUSE (j : Nat) : Fld := ⟨8 * (iodB + 0x50000 + 0x128+0x40 * j) + 5, 2, 0⟩
/-- R504: SNP_JOB_STAT.LATEST [9:8], RO/V: 0 none, 1 A, 2 B. -/
def SNP_JOB_STAT_LATEST (j : Nat) : Fld := ⟨8 * (iodB + 0x50000 + 0x128+0x40 * j) + 8, 2, 0⟩
/-- R504: SNP_JOB_STAT.ERR [15:12], RO/V: 0 none, 1 ABORTED, 2 SNP_FLASH, 3 SNP_CRC, 4 MISMATCH, 5 FAILED. -/
def SNP_JOB_STAT_ERR (j : Nat) : Fld := ⟨8 * (iodB + 0x50000 + 0x128+0x40 * j) + 12, 4, 0⟩
/-- R504: SNP_JOB_STAT.TARGET [17:16], RO/V: area being written, coded as LATEST. -/
def SNP_JOB_STAT_TARGET (j : Nat) : Fld := ⟨8 * (iodB + 0x50000 + 0x128+0x40 * j) + 16, 2, 0⟩
/-- R504: SNP_JOB_SEQ.SEQ [31:0], RO/V: SEQ of the latest snapshot. -/
def SNP_JOB_SEQ_SEQ (j : Nat) : Fld := ⟨8 * (iodB + 0x50000 + 0x12C+0x40 * j) + 0, 32, 0⟩
/-- R504: SNP_JOB_LEFT.UNITS [19:0], RO/V: pages and handle chunks still to write. -/
def SNP_JOB_LEFT_UNITS (j : Nat) : Fld := ⟨8 * (iodB + 0x50000 + 0x130+0x40 * j) + 0, 20, 0⟩
/-- R523: PWR_MODE.REQ [1:0], RW: 0 none, 1 Cold frame, 2 Soil probe, 3 off; acted on at WAIT (R511). -/
def PWR_MODE_REQ : Fld := ⟨8 * (iodB + 0x10000 + 0x000) + 0, 2, 0⟩
/-- R523: PWR_STAT.STATE [2:0], RO/V: 0 ACTIVE, 1 entering, 2 Cold frame, 3 Soil probe, 4 exiting. -/
def PWR_STAT_STATE : Fld := ⟨8 * (iodB + 0x10000 + 0x004) + 0, 3, 0⟩
/-- R523: PWR_STAT.LAST [6:4], RO/V: last module-wide state entered, coded as REQ. -/
def PWR_STAT_LAST : Fld := ⟨8 * (iodB + 0x10000 + 0x004) + 4, 3, 0⟩
/-- R523: PWR_STAT.WAKE_BIT [12:8], RO/V: PWR_WAKE_EN bit of the source that woke the module; 0x1F none. -/
def PWR_STAT_WAKE_BIT : Fld := ⟨8 * (iodB + 0x10000 + 0x004) + 8, 5, 31⟩
/-- R523: PWR_MSG.CODE [3:0], RO/V: 1 entry refused, 2 entry aborted, 3 gating done, 4 gating aborted, 5 islands at the floor (R21). -/
def PWR_MSG_CODE : Fld := ⟨8 * (iodB + 0x10000 + 0x008) + 0, 4, 0⟩
/-- R523: PWR_MSG.REGION [12:8], RO/V: region of codes 3 and 4. -/
def PWR_MSG_REGION : Fld := ⟨8 * (iodB + 0x10000 + 0x008) + 8, 5, 0⟩
/-- R523: PWR_MSG.PEND [31:31], W1C: 1: message pending; holds WAIT condition 4. -/
def PWR_MSG_PEND : Fld := ⟨8 * (iodB + 0x10000 + 0x008) + 31, 1, 0⟩
/-- R523: PWR_JOBS [31:0], RW: bit j: tenant 32w + j has a job not completed. -/
def PWR_JOBS (w : Nat) : Fld := ⟨8 * (iodB + 0x10000 + 0x010+4 * w) + 0, 32, 0⟩
/-- R523: PWR_RGATE.REQ [31:0], W1S: bit r: gate region r; reads 1 while pending. -/
def PWR_RGATE_REQ : Fld := ⟨8 * (iodB + 0x10000 + 0x040) + 0, 32, 0⟩
/-- R523: PWR_RSTATE.GATED [31:0], RO/V: bit r: region r gated. -/
def PWR_RSTATE_GATED : Fld := ⟨8 * (iodB + 0x10000 + 0x044) + 0, 32, 0⟩
/-- R523: PWR_RWAKE.WAKE [31:0], W1S: bit r: wake region r; reads 1 until awake. -/
def PWR_RWAKE_WAKE : Fld := ⟨8 * (iodB + 0x10000 + 0x048) + 0, 32, 0⟩
/-- R523: PWR_DRAIN_TIMEOUT.US [15:0], RW: drain limit in µs; 0 acts as 1. -/
def PWR_DRAIN_TIMEOUT_US : Fld := ⟨8 * (iodB + 0x10000 + 0x04C) + 0, 16, 50⟩
/-- R523: PWR_WAKE_EN [24:0], RW: sources of Table 20.3; other bits reserved. -/
def PWR_WAKE_EN : Fld := ⟨8 * (iodB + 0x10000 + 0x050) + 0, 25, 3145728⟩
/-- R523: PWR_WAKE_POL.A [0:0], RW: 0 active low, 1 active high. -/
def PWR_WAKE_POL_A : Fld := ⟨8 * (iodB + 0x10000 + 0x054) + 0, 1, 0⟩
/-- R523: PWR_WAKE_POL.B [1:1], RW: 0 active low, 1 active high. -/
def PWR_WAKE_POL_B : Fld := ⟨8 * (iodB + 0x10000 + 0x054) + 1, 1, 0⟩
/-- R523: PWR_WAKE_DEB.US [7:0], RW: pin debounce in µs; 0 acts as 1. -/
def PWR_WAKE_DEB_US : Fld := ⟨8 * (iodB + 0x10000 + 0x058) + 0, 8, 10⟩
/-- R523: PWR_WAKE_SRC [24:0], W1C: sources seen, layout of PWR_WAKE_EN; bits 20 and 21 are the pin edge latches. -/
def PWR_WAKE_SRC : Fld := ⟨8 * (iodB + 0x10000 + 0x05C) + 0, 25, 0⟩
/-- R523: PWR_RET_STACK.MASK [11:0], RW: bit s: HSs retained in Cold frame. -/
def PWR_RET_STACK_MASK : Fld := ⟨8 * (iodB + 0x10000 + 0x060) + 0, 12, 4095⟩
/-- R523: PWR_PROBE_PERIOD.MS [15:0], RW: probe period in ms; values below 20 act as 20. -/
def PWR_PROBE_PERIOD_MS : Fld := ⟨8 * (iodB + 0x10000 + 0x064) + 0, 16, 100⟩
/-- R523: PWR_PROBE_CMP.SRC [8:0], RW: 0x000–0x0FF sensor d × 64 + n of CDd, °C; 0x100, 0x101 feed A and feed B, 0.1 V; 0x102 input power, W; 0x110 + s stack s, °C. -/
def PWR_PROBE_CMP_SRC (k : Nat) : Fld := ⟨8 * (iodB + 0x10000 + 0x080+4 * k) + 0, 9, 0⟩
/-- R523: PWR_PROBE_CMP.OP [11:10], RW: 0 off, 1 above, 2 below, 3 reserved. -/
def PWR_PROBE_CMP_OP (k : Nat) : Fld := ⟨8 * (iodB + 0x10000 + 0x080+4 * k) + 10, 2, 0⟩
/-- R523: PWR_PROBE_CMP.THRESH [31:16], RW: signed threshold in the source's unit. -/
def PWR_PROBE_CMP_THRESH (k : Nat) : Fld := ⟨8 * (iodB + 0x10000 + 0x080+4 * k) + 16, 16, 0⟩
/-- R523: PWR_PROBE_VAL.VALUE [15:0], RO/V: last sample, signed. -/
def PWR_PROBE_VAL_VALUE (k : Nat) : Fld := ⟨8 * (iodB + 0x10000 + 0x0A0+4 * k) + 0, 16, 0⟩
/-- R523: PWR_PROBE_VAL.MATCH [31:31], W1C: sticky: comparator k matched. -/
def PWR_PROBE_VAL_MATCH (k : Nat) : Fld := ⟨8 * (iodB + 0x10000 + 0x0A0+4 * k) + 31, 1, 0⟩
/-- R523: PWR_REFUSED.COUNT [31:0], RO/V: entries refused at check; entries aborted in drain or by wake. -/
def PWR_REFUSED_COUNT : Fld := ⟨8 * (iodB + 0x10000 + 0x100) + 0, 32, 0⟩
/-- R523: PWR_ABORTED.COUNT [31:0], RO/V: entries refused at check; entries aborted in drain or by wake. -/
def PWR_ABORTED_COUNT : Fld := ⟨8 * (iodB + 0x10000 + 0x104) + 0, 32, 0⟩
/-- R523: PWR_GATE_CNT.COUNT [31:0], RO/V: region gatings completed; region wakes. -/
def PWR_GATE_CNT_COUNT : Fld := ⟨8 * (iodB + 0x10000 + 0x108) + 0, 32, 0⟩
/-- R523: PWR_WAKE_CNT.COUNT [31:0], RO/V: region gatings completed; region wakes. -/
def PWR_WAKE_CNT_COUNT : Fld := ⟨8 * (iodB + 0x10000 + 0x10C) + 0, 32, 0⟩
/-- R523: PWR_WAKE_MAX.NS [31:0], RO/V: longest region wake. -/
def PWR_WAKE_MAX_NS : Fld := ⟨8 * (iodB + 0x10000 + 0x110) + 0, 32, 0⟩
/-- R523: PWR_REFUSE_LOG.KIND [3:0], RO/V: Table 20.4; entry 0 is the newest. -/
def PWR_REFUSE_LOG_KIND (n : Nat) : Fld := ⟨8 * (iodB + 0x10000 + 0x140+4 * n) + 0, 4, 0⟩
/-- R523: PWR_REFUSE_LOG.INDEX [15:4], RO/V: Table 20.4. -/
def PWR_REFUSE_LOG_INDEX (n : Nat) : Fld := ⟨8 * (iodB + 0x10000 + 0x140+4 * n) + 4, 12, 0⟩
/-- R523: PWR_REFUSE_LOG.DIE [17:16], RO/V: die, where the kind has one. -/
def PWR_REFUSE_LOG_DIE (n : Nat) : Fld := ⟨8 * (iodB + 0x10000 + 0x140+4 * n) + 16, 2, 0⟩
/-- R523: PWR_REFUSE_LOG.STATE [20:18], RO/V: 1 Cold frame, 2 Soil probe, 3 off, 4 region gating. -/
def PWR_REFUSE_LOG_STATE (n : Nat) : Fld := ⟨8 * (iodB + 0x10000 + 0x140+4 * n) + 18, 3, 0⟩
/-- R523: PWR_REFUSE_LOG.REGION [25:21], RO/V: region, for STATE 4. -/
def PWR_REFUSE_LOG_REGION (n : Nat) : Fld := ⟨8 * (iodB + 0x10000 + 0x140+4 * n) + 21, 5, 0⟩
/-- R523: PWR_REFUSE_LOG.ABORTED [26:26], RO/V: 0 refused at check, 1 aborted. -/
def PWR_REFUSE_LOG_ABORTED (n : Nat) : Fld := ⟨8 * (iodB + 0x10000 + 0x140+4 * n) + 26, 1, 0⟩
/-- R523: PWR_REFUSE_LOG.VALID [31:31], RO/V: 1: entry holds an event. -/
def PWR_REFUSE_LOG_VALID (n : Nat) : Fld := ⟨8 * (iodB + 0x10000 + 0x140+4 * n) + 31, 1, 0⟩
/-- R523: PWR_CNT_CLR.CLR [0:0], W1S: clear the PWR_ counts and log; reads 0. -/
def PWR_CNT_CLR_CLR : Fld := ⟨8 * (iodB + 0x10000 + 0x180) + 0, 1, 0⟩
/-- R523: PWR_RET_BANK_LO [31:0], RW: banks 0–31 and 32–63 of cluster c retained in gating and Cold frame. -/
def PWR_RET_BANK_LO (c : Nat) : Fld := ⟨8 * (iodB + 0x10000 + 0x1000+8 * c) + 0, 32, 4294967295⟩
/-- R523: PWR_RET_BANK_HI [31:0], RW: banks 0–31 and 32–63 of cluster c retained in gating and Cold frame. -/
def PWR_RET_BANK_HI (c : Nat) : Fld := ⟨8 * (iodB + 0x10000 + 0x1004+8 * c) + 0, 32, 4294967295⟩
/-- R557: HLT_FEED.A_USED [0:0], RO/V: 1: feed used. -/
def HLT_FEED_A_USED : Fld := ⟨8 * (iodB + 0x20000 + 0x400) + 0, 1, 0⟩
/-- R557: HLT_FEED.B_USED [8:8], RO/V: 1: feed used. -/
def HLT_FEED_B_USED : Fld := ⟨8 * (iodB + 0x20000 + 0x400) + 8, 1, 0⟩
/-- R557: HLT_FEED.A_INRANGE [1:1], RO/V: 1: 60–78 V. -/
def HLT_FEED_A_INRANGE : Fld := ⟨8 * (iodB + 0x20000 + 0x400) + 1, 1, 0⟩
/-- R557: HLT_FEED.B_INRANGE [9:9], RO/V: 1: 60–78 V. -/
def HLT_FEED_B_INRANGE : Fld := ⟨8 * (iodB + 0x20000 + 0x400) + 9, 1, 0⟩
/-- R557: HLT_FEED.A_ISO [3:2], RO/V: 0 none, 1 OV, 2 OC. -/
def HLT_FEED_A_ISO : Fld := ⟨8 * (iodB + 0x20000 + 0x400) + 2, 2, 0⟩
/-- R557: HLT_FEED.B_ISO [11:10], RO/V: 0 none, 1 OV, 2 OC. -/
def HLT_FEED_B_ISO : Fld := ⟨8 * (iodB + 0x20000 + 0x400) + 10, 2, 0⟩
/-- R557: HLT_FEED.REV_A [16:16], W1C: sticky: feed reversed. -/
def HLT_FEED_REV_A : Fld := ⟨8 * (iodB + 0x20000 + 0x400) + 16, 1, 0⟩
/-- R557: HLT_FEED.REV_B [17:17], W1C: sticky: feed reversed. -/
def HLT_FEED_REV_B : Fld := ⟨8 * (iodB + 0x20000 + 0x400) + 17, 1, 0⟩
/-- R557: HLT_FEED.LOSS_A [18:18], W1C: sticky: feed became absent. -/
def HLT_FEED_LOSS_A : Fld := ⟨8 * (iodB + 0x20000 + 0x400) + 18, 1, 0⟩
/-- R557: HLT_FEED.LOSS_B [19:19], W1C: sticky: feed became absent. -/
def HLT_FEED_LOSS_B : Fld := ⟨8 * (iodB + 0x20000 + 0x400) + 19, 1, 0⟩
/-- R557: HLT_FEED.OUT_A [20:20], W1C: sticky: feed out of range. -/
def HLT_FEED_OUT_A : Fld := ⟨8 * (iodB + 0x20000 + 0x400) + 20, 1, 0⟩
/-- R557: HLT_FEED.OUT_B [21:21], W1C: sticky: feed out of range. -/
def HLT_FEED_OUT_B : Fld := ⟨8 * (iodB + 0x20000 + 0x400) + 21, 1, 0⟩
/-- R557: HLT_FEED.ISO_A [22:22], W1C: sticky: feed isolated. -/
def HLT_FEED_ISO_A : Fld := ⟨8 * (iodB + 0x20000 + 0x400) + 22, 1, 0⟩
/-- R557: HLT_FEED.ISO_B [23:23], W1C: sticky: feed isolated. -/
def HLT_FEED_ISO_B : Fld := ⟨8 * (iodB + 0x20000 + 0x400) + 23, 1, 0⟩
/-- R557: HLT_FEED.PRES [24:24], RO/V: 1: PRES_N low. -/
def HLT_FEED_PRES : Fld := ⟨8 * (iodB + 0x20000 + 0x400) + 24, 1, 0⟩
/-- R557: HLT_PIN_FAULT.SHORT_LO [3:0], W1C: sticky: ALERT_N, PWR_GOOD, THERM_TRIP_N, TDO shorted low. -/
def HLT_PIN_FAULT_SHORT_LO : Fld := ⟨8 * (iodB + 0x20000 + 0x404) + 0, 4, 0⟩
/-- R557: HLT_PIN_FAULT.SHORT_HI [7:4], W1C: sticky: the same pins shorted high. -/
def HLT_PIN_FAULT_SHORT_HI : Fld := ⟨8 * (iodB + 0x20000 + 0x404) + 4, 4, 0⟩
/-- R557: HLT_PIN_FAULT.SCL_STUCK [8:8], W1C: sticky: SMBus line stuck low. -/
def HLT_PIN_FAULT_SCL_STUCK : Fld := ⟨8 * (iodB + 0x20000 + 0x404) + 8, 1, 0⟩
/-- R557: HLT_PIN_FAULT.SDA_STUCK [9:9], W1C: sticky: SMBus line stuck low. -/
def HLT_PIN_FAULT_SDA_STUCK : Fld := ⟨8 * (iodB + 0x20000 + 0x404) + 9, 1, 0⟩
/-- R557: HLT_PIN_FAULT.SLOT_OPEN [21:16], RO: SLOT_ID pins found open. -/
def HLT_PIN_FAULT_SLOT_OPEN : Fld := ⟨8 * (iodB + 0x20000 + 0x404) + 16, 6, Config.strapSlotOpen.toNat⟩
/-- R557: HLT_PIN_FAULT.MGR_OPEN [22:22], RO: MGR_EN found open. -/
def HLT_PIN_FAULT_MGR_OPEN : Fld := ⟨8 * (iodB + 0x20000 + 0x404) + 22, 1, Config.strapMgrOpen.toNat⟩
/-- R557: HLT_PIN_FAULT.FEED_OPEN [27:24], RO: FEED_ID pins found open. -/
def HLT_PIN_FAULT_FEED_OPEN : Fld := ⟨8 * (iodB + 0x20000 + 0x404) + 24, 4, Config.strapFeedOpen.toNat⟩
/-- R557: HLT_RAIL_FAULT.RAIL [7:0], RO/V: 0x00–0x1F VISLi; 0x20 + d VCDd; 0x24 + d VMTd; 0x28 VIOD; 0x29 VSER; 0x2A VSERH; 0x2B VFLASH; 0x2C VBUS; 0x30 + s rails of stack s; 0x3E IOD thermal trip. -/
def HLT_RAIL_FAULT_RAIL : Fld := ⟨8 * (iodB + 0x20000 + 0x408) + 0, 8, 0⟩
/-- R557: HLT_RAIL_FAULT.KIND [9:8], RO/V: 1 under, 2 over, 3 thermal. -/
def HLT_RAIL_FAULT_KIND : Fld := ⟨8 * (iodB + 0x20000 + 0x408) + 8, 2, 0⟩
/-- R557: HLT_RAIL_FAULT.STRIKES [13:12], RO/V: rail faults within the last 60 s (R535). -/
def HLT_RAIL_FAULT_STRIKES : Fld := ⟨8 * (iodB + 0x20000 + 0x408) + 12, 2, 0⟩
/-- R557: HLT_RAIL_FAULT.VALID [31:31], W1C: 1: a recorded fault. -/
def HLT_RAIL_FAULT_VALID : Fld := ⟨8 * (iodB + 0x20000 + 0x408) + 31, 1, 0⟩
/-- R578: HLT_RISK.SCORE [7:0], RO/V: risk score (R560). -/
def HLT_RISK_SCORE : Fld := ⟨8 * (iodB + 0x20000 + 0x000) + 0, 8, 0⟩
/-- R578: HLT_RISK_BIAS.BIAS [7:0], RW: added to the score. -/
def HLT_RISK_BIAS_BIAS : Fld := ⟨8 * (iodB + 0x20000 + 0x004) + 0, 8, 0⟩
/-- R578: HLT_LOG_HEAD.INDEX [7:0], RO/V: ring indices. -/
def HLT_LOG_HEAD_INDEX : Fld := ⟨8 * (iodB + 0x20000 + 0x010) + 0, 8, 0⟩
/-- R578: HLT_LOG_TAIL.INDEX [7:0], RW: ring indices. -/
def HLT_LOG_TAIL_INDEX : Fld := ⟨8 * (iodB + 0x20000 + 0x014) + 0, 8, 0⟩
/-- R578: HLT_LOG_LOST.COUNT [31:0], RO/V: unread entries overwritten. -/
def HLT_LOG_LOST_COUNT : Fld := ⟨8 * (iodB + 0x20000 + 0x018) + 0, 32, 0⟩
/-- R578: HLT_STEST_CTL.REGION [4:0], WO: region to test. -/
def HLT_STEST_CTL_REGION : Fld := ⟨8 * (iodB + 0x20000 + 0x020) + 0, 5, 0⟩
/-- R578: HLT_STEST_CTL.MODE [8:8], WO: 0 LOGIC, 1 FULL. -/
def HLT_STEST_CTL_MODE : Fld := ⟨8 * (iodB + 0x20000 + 0x020) + 8, 1, 0⟩
/-- R578: HLT_STEST_CTL.GO [16:16], W1S: request the test; end it. -/
def HLT_STEST_CTL_GO : Fld := ⟨8 * (iodB + 0x20000 + 0x020) + 16, 1, 0⟩
/-- R578: HLT_STEST_CTL.ABORT [17:17], W1S: request the test; end it. -/
def HLT_STEST_CTL_ABORT : Fld := ⟨8 * (iodB + 0x20000 + 0x020) + 17, 1, 0⟩
/-- R578: HLT_STEST_STAT.PEND [31:0], RO/V: bit r: request pending for region r. -/
def HLT_STEST_STAT_PEND : Fld := ⟨8 * (iodB + 0x20000 + 0x024) + 0, 32, 0⟩
/-- R578: HLT_STEST_STAT.RUN [63:32], RO/V: bit r: test running in region r. -/
def HLT_STEST_STAT_RUN : Fld := ⟨8 * (iodB + 0x20000 + 0x024) + 32, 32, 0⟩
/-- R578: HLT_STEST_ERR.ASSIGNED [0:0], W1C: sticky: a FULL request named an assigned region (R565). -/
def HLT_STEST_ERR_ASSIGNED : Fld := ⟨8 * (iodB + 0x20000 + 0x02C) + 0, 1, 0⟩
/-- R578: HLT_STEST_RES.RESULT [1:0], RO/V: 0 none, 1 PASS, 2 FAIL, 3 ABORTED. -/
def HLT_STEST_RES_RESULT (r : Nat) : Fld := ⟨8 * (iodB + 0x20000 + 0x100+4 * r) + 0, 2, 0⟩
/-- R578: HLT_STEST_RES.UNIT [7:4], RO/V: 1 bank, 2 MU, 3 VU, 4 Sieve, 5 Shears, 6 sequencer. -/
def HLT_STEST_RES_UNIT (r : Nat) : Fld := ⟨8 * (iodB + 0x20000 + 0x100+4 * r) + 4, 4, 0⟩
/-- R578: HLT_STEST_RES.CLUSTER [10:8], RO/V: cluster of the failure. -/
def HLT_STEST_RES_CLUSTER (r : Nat) : Fld := ⟨8 * (iodB + 0x20000 + 0x100+4 * r) + 8, 3, 0⟩
/-- R578: HLT_STEST_RES.ROWS [31:16], RO/V: rows mapped out by the last FULL test. -/
def HLT_STEST_RES_ROWS (r : Nat) : Fld := ⟨8 * (iodB + 0x20000 + 0x100+4 * r) + 16, 16, 0⟩
/-- R578: HLT_REGION.SAT [31:0], RO/V: counts of R562. -/
def HLT_REGION_SAT (r : Nat) : Fld := ⟨8 * (iodB + 0x20000 + 0x200+0x10 * r) + 0, 32, 0⟩
/-- R578: HLT_REGION.UFLOW [63:32], RO/V: counts of R562. -/
def HLT_REGION_UFLOW (r : Nat) : Fld := ⟨8 * (iodB + 0x20000 + 0x200+0x10 * r) + 32, 32, 0⟩
/-- R578: HLT_REGION.FTZ [95:64], RO/V: counts of R562. -/
def HLT_REGION_FTZ (r : Nat) : Fld := ⟨8 * (iodB + 0x20000 + 0x200+0x10 * r) + 64, 32, 0⟩
/-- R578: HLT_REGION.OVF [127:96], RO/V: counts of R562. -/
def HLT_REGION_OVF (r : Nat) : Fld := ⟨8 * (iodB + 0x20000 + 0x200+0x10 * r) + 96, 32, 0⟩
/-- R578: HLT_CNT_CLR.CLR [0:0], W1S: clear HLT_REGION and HLT_LOG_LOST; reads 0. -/
def HLT_CNT_CLR_CLR : Fld := ⟨8 * (iodB + 0x20000 + 0x030) + 0, 1, 0⟩
/-- R578: DBG_CTL.SCAN_REGION [4:0], RW: region of DBG_SCAN. -/
def DBG_CTL_SCAN_REGION : Fld := ⟨8 * (iodB + 0x60000 + 0x000) + 0, 5, 0⟩
/-- R578: DBG_HALT.MASK [31:0], RW: bit r: halt region r. -/
def DBG_HALT_MASK : Fld := ⟨8 * (iodB + 0x60000 + 0x004) + 0, 32, 0⟩
/-- R578: DBG_STEP.REGION [4:0], WO: issue one bundle of a halted region. -/
def DBG_STEP_REGION : Fld := ⟨8 * (iodB + 0x60000 + 0x008) + 0, 5, 0⟩
/-- R578: DBG_ADDR.REGION [4:0], RW: region and cluster. -/
def DBG_ADDR_REGION : Fld := ⟨8 * (iodB + 0x60000 + 0x010) + 0, 5, 0⟩
/-- R578: DBG_ADDR.CLUSTER [7:5], RW: region and cluster. -/
def DBG_ADDR_CLUSTER : Fld := ⟨8 * (iodB + 0x60000 + 0x010) + 5, 3, 0⟩
/-- R578: DBG_ADDR.SPACE [11:8], RW: 0 index registers, 1 VU registers, 2 operand slots, 3 pages, 4 zero-map registers, 5 accumulator tiles, 6 kernel store. -/
def DBG_ADDR_SPACE : Fld := ⟨8 * (iodB + 0x60000 + 0x010) + 8, 4, 0⟩
/-- R578: DBG_ADDR.OFFSET [31:12], RW: offset in 8-byte words. -/
def DBG_ADDR_OFFSET : Fld := ⟨8 * (iodB + 0x60000 + 0x010) + 12, 20, 0⟩
/-- R578: DBG_DATA_LO [31:0], RW: data word; a write of HI performs the write. -/
def DBG_DATA_LO : Fld := ⟨8 * (iodB + 0x60000 + 0x018) + 0, 32, 0⟩
/-- R578: DBG_DATA_HI [31:0], RW: data word; a write of HI performs the write. -/
def DBG_DATA_HI : Fld := ⟨8 * (iodB + 0x60000 + 0x01C) + 0, 32, 0⟩
/-- R578: DBG_INJ.TARGET [2:0], RW: 0 none, 1 scratchpad, 2 HBM, 3 HBM cache, 4 CSRAM, 5 Ozpel lane. -/
def DBG_INJ_TARGET : Fld := ⟨8 * (iodB + 0x60000 + 0x020) + 0, 3, 0⟩
/-- R578: DBG_INJ.BITS [4:4], RW: 0 one bit, 1 two bits. -/
def DBG_INJ_BITS : Fld := ⟨8 * (iodB + 0x60000 + 0x020) + 4, 1, 0⟩
/-- R578: DBG_INJ.ARM [31:31], W1S: arm; reads 1 until injected. -/
def DBG_INJ_ARM : Fld := ⟨8 * (iodB + 0x60000 + 0x020) + 31, 1, 0⟩
/-- R578: DBG_INJ_ADDR_LO [31:0], RW: device address; for TARGET 5, port in [2:0] and lane in [7:4]. -/
def DBG_INJ_ADDR_LO : Fld := ⟨8 * (iodB + 0x60000 + 0x028) + 0, 32, 0⟩
/-- R578: DBG_INJ_ADDR_HI [15:0], RW: device address; for TARGET 5, port in [2:0] and lane in [7:4]. -/
def DBG_INJ_ADDR_HI : Fld := ⟨8 * (iodB + 0x60000 + 0x02C) + 0, 16, 0⟩
/-- R127: SP_HT.VALID [0:0], RW: 1: entry in use. -/
def SP_HT_VALID (r h : Nat) : Fld := ⟨8 * (regionB r + 0x4000+16 * h) + 0, 1, 0⟩
/-- R127: SP_HT.KIND [1:1], RW: 0: the same offset in each cluster of the region, each cluster using its own banks; 1: one fixed cluster. -/
def SP_HT_KIND (r h : Nat) : Fld := ⟨8 * (regionB r + 0x4000+16 * h) + 1, 1, 0⟩
/-- R127: SP_HT.ACC [2:2], RW: 1: the entry lies in the accumulator window. -/
def SP_HT_ACC (r h : Nat) : Fld := ⟨8 * (regionB r + 0x4000+16 * h) + 2, 1, 0⟩
/-- R127: SP_HT.PERSIST [3:3], RW: 1: the buffer is kept in snapshots. -/
def SP_HT_PERSIST (r h : Nat) : Fld := ⟨8 * (regionB r + 0x4000+16 * h) + 3, 1, 0⟩
/-- R127: SP_HT.BUSY [4:4], RO/V: 1 while a launch holds the entry. -/
def SP_HT_BUSY (r h : Nat) : Fld := ⟨8 * (regionB r + 0x4000+16 * h) + 4, 1, 0⟩
/-- R127: SP_HT.CLUSTER [15:8], RW: module-wide cluster index, when KIND = 1. -/
def SP_HT_CLUSTER (r h : Nat) : Fld := ⟨8 * (regionB r + 0x4000+16 * h) + 8, 8, 0⟩
/-- R127: SP_HT.TENANT [23:16], RW: owning tenant; 0xFF: none. -/
def SP_HT_TENANT (r h : Nat) : Fld := ⟨8 * (regionB r + 0x4000+16 * h) + 16, 8, 255⟩
/-- R127: SP_HT.OFFSET [58:32], RW: byte offset in the cluster window, a multiple of 256. -/
def SP_HT_OFFSET (r h : Nat) : Fld := ⟨8 * (regionB r + 0x4000+16 * h) + 32, 27, 0⟩
/-- R127: SP_HT.EXTENT [90:64], RW: byte extent, a multiple of 256, at least 256. -/
def SP_HT_EXTENT (r h : Nat) : Fld := ⟨8 * (regionB r + 0x4000+16 * h) + 64, 27, 0⟩
/-- R263: STD_ENT.STATE [2:0], RO/V: 0 FREE, 1 OPEN, 2 STASHED, 3 NOT_STASHED. -/
def STD_ENT_STATE (d e : Nat) : Fld := ⟨8 * (dieB d + 0x0000+0x20 * e) + 0, 3, 0⟩
/-- R263: STD_ENT.LFMT [7:4], RO/V: live format of the stashed tensor. -/
def STD_ENT_LFMT (d e : Nat) : Fld := ⟨8 * (dieB d + 0x0000+0x20 * e) + 4, 4, 0⟩
/-- R263: STD_ENT.SFMT [11:8], RO/V: stash format, paired with LFMT by Table 2.6. -/
def STD_ENT_SFMT (d e : Nat) : Fld := ⟨8 * (dieB d + 0x0000+0x20 * e) + 8, 4, 0⟩
/-- R263: STD_ENT.MAPS [12:12], RO/V: 1: zero maps are stashed with the image. -/
def STD_ENT_MAPS (d e : Nat) : Fld := ⟨8 * (dieB d + 0x0000+0x20 * e) + 12, 1, 0⟩
/-- R263: STD_ENT.BUSY [13:13], RO/V: 1 while a launch names the entry. -/
def STD_ENT_BUSY (d e : Nat) : Fld := ⟨8 * (dieB d + 0x0000+0x20 * e) + 13, 1, 0⟩
/-- R263: STD_ENT.REASON [18:16], RO/V: for NOT_STASHED: 1 POOL, 2 RANGE, 3 COUNT, 4 FORCED, 5 LOST (R267). -/
def STD_ENT_REASON (d e : Nat) : Fld := ⟨8 * (dieB d + 0x0000+0x20 * e) + 16, 3, 0⟩
/-- R263: STD_ENT.STACK [21:20], RO/V: pool s. -/
def STD_ENT_STACK (d e : Nat) : Fld := ⟨8 * (dieB d + 0x0000+0x20 * e) + 20, 2, 0⟩
/-- R263: STD_ENT.TENANT [31:24], RO/V: owning tenant. -/
def STD_ENT_TENANT (d e : Nat) : Fld := ⟨8 * (dieB d + 0x0000+0x20 * e) + 24, 8, 255⟩
/-- R263: STD_ENT.GEN [63:32], RO/V: incremented by each OPEN, modulo 2^32. -/
def STD_ENT_GEN (d e : Nat) : Fld := ⟨8 * (dieB d + 0x0000+0x20 * e) + 32, 32, 0⟩
/-- R263: STD_ENT.BASE [111:64], RO/V: HBM device address of the image. -/
def STD_ENT_BASE (d e : Nat) : Fld := ⟨8 * (dieB d + 0x0000+0x20 * e) + 64, 48, 0⟩
/-- R263: STD_ENT.ROWS [159:128], RO/V: rows R of the tensor. -/
def STD_ENT_ROWS (d e : Nat) : Fld := ⟨8 * (dieB d + 0x0000+0x20 * e) + 128, 32, 0⟩
/-- R263: STD_ENT.COLS [191:160], RO/V: columns C of the tensor. -/
def STD_ENT_COLS (d e : Nat) : Fld := ⟨8 * (dieB d + 0x0000+0x20 * e) + 160, 32, 0⟩
/-- R263: STD_ENT.SIZE [223:192], RO/V: image size in 64-byte units. -/
def STD_ENT_SIZE (d e : Nat) : Fld := ⟨8 * (dieB d + 0x0000+0x20 * e) + 192, 32, 0⟩
/-- R263: STD_ENT.TILES [255:224], RO/V: 64×64 tiles written. -/
def STD_ENT_TILES (d e : Nat) : Fld := ⟨8 * (dieB d + 0x0000+0x20 * e) + 224, 32, 0⟩
/-- R58: STREAM.KEY [63:0], RW: stream key. -/
def STREAM_KEY (n : Nat) : Fld := ⟨8 * (iodB + 0xC0000 + 0x20 * n) + 0, 64, 0⟩
/-- R58: STREAM.CTR [191:64], RW: counter of the next unused block. -/
def STREAM_CTR (n : Nat) : Fld := ⟨8 * (iodB + 0xC0000 + 0x20 * n) + 64, 128, 0⟩
/-- R58: STREAM.OWNER [199:192], RW: tenant owning the stream; 0xFF: no owner. -/
def STREAM_OWNER (n : Nat) : Fld := ⟨8 * (iodB + 0xC0000 + 0x20 * n) + 192, 8, 255⟩
/-- R58: STREAM.BUSY [208:208], RO/V: 1 while a launch holds the stream. -/
def STREAM_BUSY (n : Nat) : Fld := ⟨8 * (iodB + 0xC0000 + 0x20 * n) + 208, 1, 0⟩
/-- R58: STREAM.EN [209:209], RW: 1: the stream may be named by a launch. -/
def STREAM_EN (n : Nat) : Fld := ⟨8 * (iodB + 0xC0000 + 0x20 * n) + 209, 1, 0⟩
/-- R370: ARBP_CNT_CLR.CLR [0:0], W1S: clear the block counts and flags; reads 0. -/
def ARBP_CNT_CLR_CLR : Fld := ⟨8 * (iodB + 0x80000 + 0x3100) + 0, 1, 0⟩
/-- R439: HTP_DROP_L2.COUNT [31:0], RO/V: transport count. -/
def HTP_DROP_L2_COUNT : Fld := ⟨8 * (iodB + 0xA0000 + 0x100) + 0, 32, 0⟩
/-- R439: HTP_DROP_L3.COUNT [31:0], RO/V: transport count. -/
def HTP_DROP_L3_COUNT : Fld := ⟨8 * (iodB + 0xA0000 + 0x104) + 0, 32, 0⟩
/-- R439: HTP_DROP_FLOW.COUNT [31:0], RO/V: transport count. -/
def HTP_DROP_FLOW_COUNT : Fld := ⟨8 * (iodB + 0xA0000 + 0x108) + 0, 32, 0⟩
/-- R439: HTP_DROP_HDR.COUNT [31:0], RO/V: transport count. -/
def HTP_DROP_HDR_COUNT : Fld := ⟨8 * (iodB + 0xA0000 + 0x10C) + 0, 32, 0⟩
/-- R439: HTP_DROP_WIN.COUNT [31:0], RO/V: transport count. -/
def HTP_DROP_WIN_COUNT : Fld := ⟨8 * (iodB + 0xA0000 + 0x110) + 0, 32, 0⟩
/-- R439: HTP_DUP.COUNT [31:0], RO/V: transport count. -/
def HTP_DUP_COUNT : Fld := ⟨8 * (iodB + 0xA0000 + 0x114) + 0, 32, 0⟩
/-- R439: HTP_RETX.COUNT [31:0], RO/V: transport count. -/
def HTP_RETX_COUNT : Fld := ⟨8 * (iodB + 0xA0000 + 0x118) + 0, 32, 0⟩
/-- R439: HTP_RING_FULL.COUNT [31:0], RO/V: transport count. -/
def HTP_RING_FULL_COUNT : Fld := ⟨8 * (iodB + 0xA0000 + 0x11C) + 0, 32, 0⟩
/-- R439: HTP_LINK_DOWN.COUNT [31:0], RO/V: transport count. -/
def HTP_LINK_DOWN_COUNT : Fld := ⟨8 * (iodB + 0xA0000 + 0x120) + 0, 32, 0⟩
/-- R439: HTP_FEC_CORR.COUNT [31:0], RO/V: transport count. -/
def HTP_FEC_CORR_COUNT : Fld := ⟨8 * (iodB + 0xA0000 + 0x124) + 0, 32, 0⟩
/-- R439: HTP_FEC_UNCORR.COUNT [31:0], RO/V: transport count. -/
def HTP_FEC_UNCORR_COUNT : Fld := ⟨8 * (iodB + 0xA0000 + 0x128) + 0, 32, 0⟩
/-- R559: HLT_LOG.KIND [7:0], RO/V: event kind. -/
def HLT_LOG_KIND (n : Nat) : Fld := ⟨8 * (iodB + 0x20000 + 0x800+0x10 * n) + 0, 8, 0⟩
/-- R559: HLT_LOG.UNIT [15:8], RO/V: unit. -/
def HLT_LOG_UNIT (n : Nat) : Fld := ⟨8 * (iodB + 0x20000 + 0x800+0x10 * n) + 8, 8, 0⟩
/-- R559: HLT_LOG.DETAIL [63:16], RO/V: detail. -/
def HLT_LOG_DETAIL (n : Nat) : Fld := ⟨8 * (iodB + 0x20000 + 0x800+0x10 * n) + 16, 48, 0⟩
/-- R559: HLT_LOG.MS [127:64], RO/V: domain-39 ms of the event. -/
def HLT_LOG_MS (n : Nat) : Fld := ⟨8 * (iodB + 0x20000 + 0x800+0x10 * n) + 64, 64, 0⟩

end Reg
end Sys2Proof.Machine
end

