-- ==== Sys2Proof/Machine/Inner.lean ====
section
/-!
DEFINITION. Scalar state that the spec describes without a register: one field each, in the model's own key range (log 5).
-/

namespace Sys2Proof.Machine
namespace In

/-- Field `i` of kind `k`, of width `w` and reset value `rst`. Kinds 32 to 47 are kept by every reset (fuses, the Root cellar, pins),
kinds 48 to 79 lie in domain 39 (R447, R514). -/
def fld (k i w rst : Nat) : Fld := ⟨8 * (Reg.intB + 0x100000 * k + 0x20 * i), w, rst⟩

/-- R508: 1 while the banks of region r drain on the way to gating. -/
def gateDrain (r : Nat) : Fld := fld 0 r 1 0
/-- R508: how many accesses had been numbered when the ingress of region r closed; later ones wait in their crossings. -/
def gateFrom (r : Nat) : Fld := fld 0 (32 + r) 64 0
/-- R345: how many pages of stack k's copy queue have been counted as waiting for a staging slot. -/
def slotWaits (k : Nat) : Fld := fld 5 k 32 0
/-- R437: 1 when an abort came for the record that core c has submitted and that is not yet accepted. -/
def subAbort (c : Nat) : Fld := fld 1 c 1 0

/-- R310: 1 when a completion record has been committed since core c last read MOD_CC_WAITCAUSE. -/
def ccDone (c : Nat) : Fld := fld 2 c 1 0

/-- Milliseconds of domain 39 since the last cold reset (R464, R559). -/
def ms39 : Fld := fld 48 0 64 0
/-- Counter `c` of Table 18.5 (0 REGION_PERIODS to 6 ENERGY_MJ) of tenant `t`. -/
def meter (c t : Nat) : Fld := fld 49 (256 * c + t) 64 0
/-- R566: 1 while the last decisive self-test of region r failed. -/
def testBad (r : Nat) : Fld := fld 12 r 1 0

/-- R50, R397: events of the collective engine's conversions and sums (0 SAT, 1 INF_CLAMP, 2 NAN_BLOCK, 3 UFLOW, 4 ACC_FTZ,
5 ACC_OVF); the COL_ block has no register for them. -/
def colEv (k : Nat) : Fld := fld 15 k 32 0

/-- R50: events of the conversions of cluster k's move engine (0 SAT, 1 INF_CLAMP, 2 NAN_BLOCK, 3 UFLOW, 4 ACC_FTZ, 5 ACC_OVF); no
block has a register for them. -/
def moveEv (k e : Nat) : Fld := fld 10 (8 * k + e) 32 0

/-- R473: the tenant whose access woke region r last, or is about to; 0xFE management. -/
def waker (r : Nat) : Fld := fld 73 r 8 0xFE

/-- R236: the job number of tenant t's last JOB. -/
def jobNum (t : Nat) : Fld := fld 16 t 32 0
/-- R236: its mask schedule (Table 8.5). -/
def jobSched (t : Nat) : Fld := fld 17 t 128 0
/-- R236: the step that its launches belong to, as firmware counts it. -/
def jobStep (t : Nat) : Fld := fld 18 t 32 0

/-- Why the module is held: bit 0 MOD_RESET_N low (R448), 1 a TAP instruction (R570), 2 shut down (R526), 3 off (R518),
4 halted in the boot ROM (R452). -/
def hold : Fld := fld 38 0 5 0
/-- Milliseconds that the model has ticked, across resets, against which R535 counts its 60 s. -/
def wall : Fld := fld 39 0 64 0
/-- R496: 1 when a debug-touched launch of tenant t has completed since the last START of its slot. -/
def jobDbg (t : Nat) : Fld := fld 88 t 1 0
/-- R560: events since the last score: 0 data-word rebuilds, 1 words corrected in HBM and its caches, 2 uncorrectable events. -/
def riskEv (k : Nat) : Fld := fld 69 k 32 0

end In
end Sys2Proof.Machine
end

