-- ==== Sys2Proof/Machine/Numeric.lean ====
section
/-!
DEFINITION. Number formats and conversions (spec/02_numeric_formats.md): the value of every code, exact arithmetic on
dyadic numbers, rounding to every format with the events of R50, ACC40, the block scale of R40, and the block function of
the random streams (R60).
-/

namespace Sys2Proof.Machine

/-- A value as every engine sees it: NaN carries nothing (R35); a finite value is `(-1)^neg * m * 2^e`, and `m = 0` is a
signed zero. -/
inductive FVal where
  | nan
  | inf (neg : Bool)
  | fin (neg : Bool) (m : Nat) (e : Int)
  deriving DecidableEq, Repr

/-- The events of R50. -/
inductive Ev where
  | sat | infClamp | nanBlock | uflow | accFtz | accOvf
  deriving DecidableEq, Repr

namespace FVal

/-- Positive zero. -/
def zero : FVal := .fin false 0 0
/-- One. -/
def one : FVal := .fin false 1 0

/-- A zero of either sign. -/
def isZero : FVal → Bool
  | .fin _ 0 _ => true
  | _ => false
/-- Neither NaN nor Inf. -/
def isFinite : FVal → Bool
  | .fin _ _ _ => true
  | _ => false
/-- NaN. -/
def isNan : FVal → Bool
  | .nan => true
  | _ => false
/-- The sign; NaN has none. -/
def sign : FVal → Bool
  | .nan => false
  | .inf n => n
  | .fin n _ _ => n

/-- The magnitude. -/
def abs : FVal → FVal
  | .nan => .nan
  | .inf _ => .inf false
  | .fin _ m e => .fin false m e

/-- The value with its sign changed. -/
def neg : FVal → FVal
  | .nan => .nan
  | .inf n => .inf (!n)
  | .fin n m e => .fin (!n) m e

/-- A finite value times `2^k` (the block scale of R36). -/
def scale (k : Int) : FVal → FVal
  | .fin n m e => .fin n m (e + k)
  | v => v

/-- The signed integer `m * 2^(e - q)` of a finite value, for `q ≤ e`. -/
def intAt (n : Bool) (m : Nat) (e q : Int) : Int :=
  let v : Int := (m * 2 ^ (e - q).toNat : Nat)
  if n then -v else v

/-- The exact sum. An exact zero is +0 unless both terms are -0 (IEEE 754, to nearest even). -/
def add : FVal → FVal → FVal
  | .nan, _ => .nan
  | _, .nan => .nan
  | .inf a, .inf b => if a = b then .inf a else .nan
  | .inf a, _ => .inf a
  | _, .inf b => .inf b
  | .fin na ma ea, .fin nb mb eb =>
    let q := min ea eb
    let v := intAt na ma ea q + intAt nb mb eb q
    if v = 0 then .fin (na && nb) 0 0 else .fin (decide (v < 0)) v.natAbs q

/-- The exact product. -/
def mul : FVal → FVal → FVal
  | .nan, _ => .nan
  | _, .nan => .nan
  | .inf a, .inf b => .inf (a != b)
  | .inf a, .fin n m _ => if m = 0 then .nan else .inf (a != n)
  | .fin n m _, .inf b => if m = 0 then .nan else .inf (n != b)
  | .fin na ma ea, .fin nb mb eb => .fin (na != nb) (ma * mb) (ea + eb)

/-- `a < b`; false when either is NaN. -/
def lt : FVal → FVal → Bool
  | .nan, _ => false
  | _, .nan => false
  | .inf a, .inf b => a && !b
  | .inf a, .fin _ _ _ => a
  | .fin _ _ _, .inf b => !b
  | .fin na ma ea, .fin nb mb eb =>
    let q := min ea eb
    decide (intAt na ma ea q < intAt nb mb eb q)

/-- The order of magnitudes used for ranking (R183, R224): NaN above Inf above every finite value. -/
def magLt : FVal → FVal → Bool
  | .nan, _ => false
  | _, .nan => true
  | a, b => lt a.abs b.abs

/-- The maximum of R291: NaN when either is NaN, +0 above -0. -/
def max (a b : FVal) : FVal :=
  if a.isNan || b.isNan then .nan
  else if lt a b then b else if lt b a then a
  else if a.sign then b else a

/-- The minimum of R291: NaN when either is NaN, -0 below +0. -/
def min (a b : FVal) : FVal :=
  if a.isNan || b.isNan then .nan
  else if lt a b then a else if lt b a then b
  else if a.sign then a else b

end FVal

/-- The parameters of one element format (Table 2.2): exponent and fraction widths, bias, the code of the largest finite
magnitude, whether Inf exists, and the canonical NaN where one exists (R35). -/
structure EFmt where
  eb : Nat
  mb : Nat
  bias : Nat
  maxCode : Nat
  hasInf : Bool
  nan : Option Nat
  deriving DecidableEq, Repr

namespace EFmt
/-- Width of an element in bits. -/
def width (f : EFmt) : Nat := f.eb + f.mb + 1
/-- Exponent of the spacing of subnormals. -/
def qmin (f : EFmt) : Int := 1 - (f.bias : Int) - (f.mb : Int)
end EFmt

/-- Table 2.2 by format code; codes 9 to 13 and 15 have no element format. Code 14 is the fraction layout of ACC40, whose
zeros and limits R43 and R44 give. -/
def efmt : Nat → EFmt
  | 0 => ⟨8, 23, 127, 0x7F7FFFFF, true, some 0x7FC00000⟩
  | 1 => ⟨8, 7, 127, 0x7F7F, true, some 0x7FC0⟩
  | 2 => ⟨5, 10, 15, 0x7BFF, true, some 0x7E00⟩
  | 3 => ⟨4, 3, 7, 0x7E, false, some 0x7F⟩
  | 4 => ⟨5, 2, 15, 0x7B, true, some 0x7E⟩
  | 5 => ⟨4, 3, 7, 0x7E, false, some 0x7F⟩
  | 6 => ⟨3, 2, 3, 0x1F, false, none⟩
  | 7 => ⟨2, 3, 1, 0x1F, false, none⟩
  | 8 => ⟨2, 1, 1, 0x7, false, none⟩
  | _ => ⟨9, 30, 255, 0x7FBFFFFFFF, true, some 0x7FE0000000⟩

/-- Codes 5 to 8 (Table 2.1). -/
def isBlock (fmt : Nat) : Bool := decide (5 ≤ fmt) && decide (fmt ≤ 8)
/-- A code that Table 2.1 does not reserve. -/
def fmtValid (fmt : Nat) : Bool := decide (fmt ≤ 8) || fmt == 14 || fmt == 15
/-- Storage bytes of one element of codes 0 to 4, 14 and 15 (Table 2.1). -/
def elemBytes : Nat → Nat
  | 0 => 4 | 1 => 2 | 2 => 2 | 3 => 1 | 4 => 1 | 14 => 8 | 15 => 4 | _ => 0
/-- Bytes of one block of 32 elements (R37). -/
def blockBytes : Nat → Nat
  | 5 => 32 | 6 => 24 | 7 => 24 | 8 => 16 | _ => 0
/-- Element width in bits (Table 2.1). -/
def elemBits : Nat → Nat
  | 14 => 40 | 15 => 32 | f => (efmt f).width
/-- `emax` of R40. -/
def emaxOf : Nat → Int
  | 5 => 8 | 6 => 4 | _ => 2

/-- The value of an element code of an element format (R33). -/
def decodeElem (f : EFmt) (c : Nat) : FVal :=
  let s := c.testBit (f.eb + f.mb)
  let e := bitsOf c (f.eb + f.mb - 1) f.mb
  let m := c % 2 ^ f.mb
  if c % 2 ^ (f.eb + f.mb) > f.maxCode then
    (if f.hasInf && m == 0 && e == 2 ^ f.eb - 1 then .inf s else .nan)
  else if e = 0 then .fin s m f.qmin
  else .fin s (2 ^ f.mb + m) (f.qmin + (e : Int) - 1)

/-- The value of an ACC40 word (R43): E = 0 is a signed zero whatever F holds. -/
def decodeAcc (c : Nat) : FVal :=
  let s := c.testBit 39
  let e := bitsOf c 38 30
  let m := c % 2 ^ 30
  if e = 511 then (if m = 0 then .inf s else .nan)
  else if e = 0 then .fin s 0 0
  else .fin s (2 ^ 30 + m) ((e : Int) - 285)

/-- The value of an element of format `fmt` with scale byte `sc` (R33, R36, R38); scales apply to block formats only. -/
def decodeFmt (fmt c sc : Nat) : FVal :=
  if fmt = 14 then decodeAcc c
  else if isBlock fmt then
    if sc = 255 then .nan else (decodeElem (efmt fmt) c).scale ((sc : Int) - 127)
  else decodeElem (efmt fmt) c

/-- `⌊log2⌋` of a nonzero finite magnitude. -/
def ilog (m : Nat) (e : Int) : Int := (Nat.log2 m : Int) + e

/-- How a rounded conversion rounds: to nearest even, or stochastically with a 24-bit draw (R47, R51). -/
inductive Rnd where
  | rne
  | sr (u : Nat)
  deriving DecidableEq, Repr

/-- `m * 2^e` in units of `2^q`, rounded. -/
def roundAt (r : Rnd) (m : Nat) (e q : Int) : Nat :=
  if q ≤ e then m * 2 ^ (e - q).toNat
  else
    let k := (q - e).toNat
    let t := m >>> k
    let rem := m % 2 ^ k
    match r with
    | .rne => if 2 * rem > 2 ^ k || (2 * rem == 2 ^ k && t % 2 == 1) then t + 1 else t
    | .sr u => if u < rem * 2 ^ 24 / 2 ^ k then t + 1 else t

/-- The exponent of the spacing of format `f` at magnitude `m * 2^e`. -/
def spacing (f : EFmt) (m : Nat) (e : Int) : Int := Max.max (ilog m e - (f.mb : Int)) f.qmin

/-- The code of magnitude `n * 2^q`, for `n` at most `2^(mb+1)` and `q` the spacing there. -/
def codeAt (f : EFmt) (n : Nat) (q : Int) : Nat := n + (q - f.qmin).toNat * 2 ^ f.mb

/-- Whether magnitude `m * 2^e` is above the range of `f`: after rounding to nearest even at unbounded exponent, or exactly
under stochastic rounding (R48). -/
def aboveRange (f : EFmt) (r : Rnd) (m : Nat) (e : Int) : Bool :=
  let q := spacing f m e
  match r with
  | .rne => decide (codeAt f (roundAt .rne m e q) q > f.maxCode)
  | .sr _ =>
    let t := roundAt (.sr (2 ^ 24)) m e q
    let c := codeAt f t q
    decide (c > f.maxCode) || (c == f.maxCode && decide (e < q) && decide (t * 2 ^ (q - e).toNat ≠ m))

/-- The sign bit of a format, in place. -/
def signBit (f : EFmt) (neg : Bool) : Nat := b2n neg * 2 ^ (f.eb + f.mb)

/-- A rounded conversion of a value to an element format, with its events (R47, R48, Table 2.5). `sat` is the SAT
attribute; formats without Inf clamp as the table's columns say. -/
def roundElem (f : EFmt) (r : Rnd) (sat : Bool) : FVal → Nat × List Ev
  | .nan => (f.nan.getD 0, [])
  | .inf n =>
    if f.hasInf then (signBit f n + (f.maxCode + 1), []) else (signBit f n + f.maxCode, [.infClamp])
  | .fin n 0 _ => (signBit f n, [])
  | .fin n m e =>
    if aboveRange f r m e then
      (signBit f n + (if f.hasInf && !sat then f.maxCode + 1 else f.maxCode), [.sat])
    else
      let q := spacing f m e
      let c := codeAt f (roundAt r m e q) q
      (signBit f n + c, if c = 0 then [.uflow] else [])

/-- The ACC40 code of an exact value (R43, R46, R136): rounded to 30 fraction bits at unbounded exponent, flushed below 2^-254
with ACC_FTZ, Inf above the largest finite value with ACC_OVF. A zero keeps its sign. -/
def roundAcc : FVal → Nat × List Ev
  | .nan => (0x7FE0000000, [])
  | .inf n => (b2n n * 2 ^ 39 + 0x7FC0000000, [])
  | .fin n 0 _ => (b2n n * 2 ^ 39, [])
  | .fin n m e =>
    let q := ilog m e - 30
    let r := roundAt .rne m e q
    let q' := if r = 2 ^ 31 then q + 1 else q
    let r' := if r = 2 ^ 31 then 2 ^ 30 else r
    if q' + 30 < -254 then (b2n n * 2 ^ 39, [.accFtz])
    else if q' + 30 > 255 then (b2n n * 2 ^ 39 + 0x7FC0000000, [.accOvf])
    else (b2n n * 2 ^ 39 + (q' + 285).toNat * 2 ^ 30 + r' % 2 ^ 30, [])

/-- An ACC40 addition (R44): an exact sum of zero is +0. -/
def accSum (a b : FVal) : Nat × List Ev :=
  let v := a.add b
  if v.isZero then (0, []) else roundAcc v

/-- The default SAT attribute of a target (R48). -/
def satDefault (fmt : Nat) : Bool := decide (3 ≤ fmt) && decide (fmt ≤ 8)

/-- Whether every finite value of `src` is representable in `dst` (Table 2.4); block copies are apart (R46). -/
def exactConv (src dst : Nat) : Bool :=
  (dst == 14 && (decide (src ≤ 8) || src == 14)) ||
  (src == dst && decide (src ≤ 4)) ||
  (src == 3 && decide (dst ≤ 2)) || (src == 4 && decide (dst ≤ 2)) ||
  (src == 2 && dst == 0) || (src == 1 && dst == 0)

/-- Conversion of one value to a code 0 to 4 or 14 (R46 to R49): SAT is 1 when the source is a block format. -/
def convElem (srcFmt dst : Nat) (r : Rnd) (v : FVal) : Nat × List Ev :=
  if dst = 14 then roundAcc v
  else roundElem (efmt dst) (if exactConv srcFmt dst then .rne else r) (satDefault dst || isBlock srcFmt) v

/-- The scale byte of R40 for the present elements, 255 for a NaN block (R41). -/
def blockScale (fmt : Nat) (vs : List FVal) : Nat :=
  if vs.any (fun v => !v.isFinite) then 255
  else
    let logs := vs.filterMap fun v => match v with
      | .fin _ 0 _ => none
      | .fin _ m e => some (ilog m e)
      | _ => none
    match logs with
    | [] => 0
    | l :: ls => (min 127 (Max.max (-127) (ls.foldl Max.max l - emaxOf fmt)) + 127).toNat

/-- One element under a chosen scale (R40 step 4); in a NaN block every element is written as 0. -/
def blockElem (fmt sc : Nat) (r : Rnd) (v : FVal) : Nat × List Ev :=
  if sc = 255 then (0, []) else roundElem (efmt fmt) r true (v.scale (127 - (sc : Int)))

/-- A block conversion (R40, R41): the scale and the element codes of the present elements, with one NAN_BLOCK for a NaN
block. Each element comes with its rounding. -/
def convBlock (fmt : Nat) (vs : List (FVal × Rnd)) : Nat × List Nat × List Ev :=
  let sc := blockScale fmt (vs.map (·.1))
  let cs := vs.map fun p => blockElem fmt sc p.2 p.1
  (sc, cs.map (·.1), (if sc = 255 then [.nanBlock] else []) ++ (cs.flatMap (·.2)))

/-- The pad value in a consumer's format, as the value it supplies (R72). -/
def padValue (fmt pad : Nat) : FVal :=
  let v := decodeElem (efmt 0) pad
  if fmt = 15 then .fin false pad 0
  else if fmt = 14 then decodeAcc (roundAcc v).1
  else if isBlock fmt then
    let sc := blockScale fmt [v]
    decodeFmt fmt (blockElem fmt sc .rne v).1 sc
  else decodeElem (efmt fmt) (roundElem (efmt fmt) .rne true v).1

/-- The value of an FP32 code. -/
def f32 (c : Nat) : FVal := decodeElem (efmt 0) c
/-- An exact value rounded to FP32 with SAT = 0. -/
def toF32 (v : FVal) : Nat × List Ev := roundElem (efmt 0) .rne false v
/-- An exact value rounded to FP32, as a value. -/
def rnd32 (v : FVal) : FVal := f32 (toF32 v).1

/-- The three-pass split of R56: hi in BF16 with SAT = 1, lo the rest in BF16; Inf and NaN give lo = 0. -/
def split3 (v : FVal) : FVal × FVal :=
  if !v.isFinite then (v, .zero)
  else
    let hi := decodeElem (efmt 1) (roundElem (efmt 1) .rne true v).1
    (hi, decodeElem (efmt 1) (roundElem (efmt 1) .rne false (v.add hi.neg)).1)

/-- The mixing function of R60. -/
def rngMix (z : Nat) : Nat :=
  let m := 0x0000100001000001
  let z1 := (z ^^^ (z >>> 32)) * m % 2 ^ 64
  let z2 := (z1 ^^^ (z1 >>> 28)) * m % 2 ^ 64
  z2 ^^^ (z2 >>> 32)

/-- The block function of R60: (y1, y0). -/
def rngBlock (key ctr : Nat) : Nat × Nat :=
  let chi := (ctr >>> 64) % 2 ^ 64
  let clo := ctr % 2 ^ 64
  let rot := (key % 2 ^ 32) * 2 ^ 32 + (key >>> 32) % 2 ^ 32
  let s := rngMix (chi ^^^ rot ^^^ 0x9E3779B97F4A7C15)
  let y0 := rngMix (clo ^^^ key ^^^ s)
  (rngMix (y0 ^^^ s ^^^ 0x6A09E667F3BCC908), y0)

/-- The draw word of element index `i` with stream key `key`, counter `c` at launch start and block offset `b` (R61,
R62). -/
def drawWord (key c b i : Nat) : Nat :=
  let y := rngBlock key ((c + b + i / 4) % 2 ^ 128)
  match i % 4 with
  | 0 => y.2 % 2 ^ 32
  | 1 => y.2 >>> 32
  | 2 => y.1 % 2 ^ 32
  | _ => y.1 >>> 32

/-- The rounding of one element: bits [31:8] of its draw word when the operation rounds stochastically (R51), to nearest
even otherwise. `st` is the stream's key, its counter at launch start and the block offset. -/
def rndOf (st : Option (Nat × Nat × Nat)) (i : Nat) : Rnd :=
  match st with
  | none => .rne
  | some (key, c, b) => .sr (drawWord key c b i >>> 8)

end Sys2Proof.Machine
end

