-- ==== Sys2Proof/Machine/Tbl.lean ====
section
/-!
DEFINITION. Sparse tables: lists of (key, value) pairs with strictly rising keys, no entry equal to what an unlisted key
reads as. Memory and every indexed piece of state are such tables, so equal tables are equal data.
-/

namespace Sys2Proof.Machine

/-- A sparse table. -/
abbrev Tbl (α : Type) := List (Nat × α)

namespace Tbl

/-- The value at key `k`; `d` where the table lists none. -/
def get {α : Type} (d : α) : Tbl α → Nat → α
  | [], _ => d
  | (j, x) :: t, k => if j = k then x else get d t k

/-- The table with key `k` listed as `v`, whatever `v` is. -/
def put {α : Type} : Tbl α → Nat → α → Tbl α
  | [], k, v => [(k, v)]
  | (j, x) :: t, k, v =>
    if k < j then (k, v) :: (j, x) :: t else if k = j then (k, v) :: t else (j, x) :: put t k v

/-- The table without key `k`. -/
def del {α : Type} (t : Tbl α) (k : Nat) : Tbl α := t.filter fun p => p.1 != k

/-- The table reading `v` at key `k`, in canonical form: an entry equal to the default `d` is not listed. -/
def set {α : Type} [DecidableEq α] (d : α) (t : Tbl α) (k : Nat) (v : α) : Tbl α :=
  if v = d then del t k else put t k v

/-- Every listed value mapped by `f`, in canonical form. -/
def mapv {α : Type} [DecidableEq α] (d : α) (f : α → α) (t : Tbl α) : Tbl α :=
  t.filterMap fun p => if f p.2 = d then none else some (p.1, f p.2)

/-- The table without the keys from `lo` to `hi − 1`. -/
def cut {α : Type} (t : Tbl α) (lo hi : Nat) : Tbl α :=
  t.filter fun p => !(decide (lo ≤ p.1) && decide (p.1 < hi))

/-- The entries with keys from `lo` to `hi − 1`. -/
def between {α : Type} (t : Tbl α) (lo hi : Nat) : Tbl α :=
  t.filter fun p => decide (lo ≤ p.1) && decide (p.1 < hi)

/-- The entries from `src` to `src + n − 1` copied to `dst` and up; what stood there goes. -/
def copy {α : Type} [DecidableEq α] (d : α) (t : Tbl α) (src dst n : Nat) : Tbl α :=
  ((between t src (src + n)).foldl (fun u p => set d u (p.1 - src + dst) p.2) (cut t dst (dst + n)))

/-- Strictly rising keys, all above `lo`, and no entry that satisfies `bad`. -/
def wfFrom {α : Type} (bad : Nat → α → Bool) : Nat → Tbl α → Bool
  | _, [] => true
  | lo, (j, x) :: t => decide (lo ≤ j) && (!bad j x) && wfFrom bad (j + 1) t

/-- The canonical form of a table whose unlisted keys read `d`. -/
def wf {α : Type} [DecidableEq α] (d : α) (t : Tbl α) : Bool := wfFrom (fun _ x => decide (x = d)) 0 t

end Tbl
end Sys2Proof.Machine
end

