-- ==== Sys2Proof/Machine/State.lean ====
section
/-!
DEFINITION. The state of the block: every register of the address map, memory, the contents of every unit, the work in
progress, and the queue of commands. Plain data.
-/

namespace Sys2Proof.Machine

/-- What is loaded in one part of an operand slot: a whole tile, a half or a quarter (R135, R192, R243). `vals` holds the
element codes with their scale bytes, row-major as loaded; `trans` is applied as the slot feeds the array (R135); `void` says that an
extent of its descriptor other than the contraction's is zero (R98). -/
structure SlotPart where
  fmt   : Nat
  rows  : Nat
  trans : Bool
  vals  : List (Nat × Nat)
  ready : Nat
  void  : Bool
  deriving DecidableEq, Repr

/-- An empty part. -/
def SlotPart.empty : SlotPart := ⟨0, 0, false, [], 0, false⟩

/-- The header fields a page was built from, for the check of R249. -/
structure TileTag where
  tfmt   : Nat
  scount : Nat
  ver    : Nat
  deriving DecidableEq, Repr

/-- One accumulator tile (R147): its 4096 ACC40 words (element (i, j) at 64i + j), the chain count of R143, the ic values of
Table 5.2 from which it is complete, open to an accumulate operation, and free, and for a tile written by an SGW the weight
tile of its page (R248, R249). -/
structure AccTile where
  vals   : Tbl Nat
  cnt    : Nat
  doneAt : Nat
  accAt  : Nat
  freeAt : Nat
  sgw    : Option TileTag
  deriving DecidableEq, Repr

/-- A tile of +0. -/
def AccTile.zero : AccTile := ⟨[], 0, 0, 0, 0, none⟩

/-- One entry of the Sieve's index memory (R189, R198): presented position (k, j), value slot, stored position, value and
half-row scale. -/
structure PageEntry where
  k    : Nat
  j    : Nat
  slot : Nat
  row  : Nat
  col  : Nat
  code : Nat
  sc   : Nat
  deriving DecidableEq, Repr

/-- One tile position of a page half (R189, R198, R201). `built` is false when the position is empty. -/
structure Page where
  built   : Bool
  dense   : Bool
  fmt     : Nat
  entries : List PageEntry
  tag     : TileTag
  ready   : Nat
  deriving DecidableEq, Repr

/-- An empty position. -/
def Page.empty : Page := ⟨false, false, 0, [], ⟨0, 0, 0⟩, 0⟩

/-- A zero-map register position (R189): 4096 bits once an SV.ZMAP loaded it. -/
structure ZMap where
  bits  : Option Nat
  ready : Nat
  busy  : Nat
  deriving DecidableEq, Repr

/-- An unloaded zero-map register. -/
def ZMap.empty : ZMap := ⟨none, 0, 0⟩

/-- One matrix unit. Slots: 0 A0, 1 A1, 2 B0, 3 B1, each with parts 0 to 3 keyed 4·slot + part. Pages: 2·half + u. Zero maps:
2·register + u. `port` lists the spans of ic in which the accumulator port serves window accesses (R147); the remaining fields are the
ic values from which a resource is free. -/
structure Mu where
  slots    : Tbl SlotPart
  slotBusy : Tbl Nat
  tiles    : Tbl AccTile
  pages    : Tbl Page
  halfBusy : Tbl Nat
  zmaps    : Tbl ZMap
  array    : Nat
  drain    : Nat
  rake     : Nat
  insert   : Nat
  port     : List (Nat × Nat)
  deriving DecidableEq, Repr

/-- A matrix unit at reset. -/
def Mu.empty : Mu := ⟨[], [], [], [], [], [], 0, 0, 0, 0, []⟩

/-- The tile a VU buffers for VSTS (R290): its array's descriptor, pointer-list entry and tile, and the buffered slots. -/
structure VstsBuf where
  rcd   : Nat
  entry : Nat
  tile  : Nat
  lanes : Tbl Nat
  deriving DecidableEq, Repr

/-- One cluster: four MUs, vector registers (word w of Vn at 256n + w), the transcendental pipe, the VSTS buffer, the mask
path, the Shears engines with the slot ranges of groups in progress, and the move engine. -/
structure Clu where
  mus    : Tbl Mu
  vregs  : Tbl Nat
  vtr    : Nat
  vsts   : Option VstsBuf
  mask   : List Nat
  shears : Nat
  groups : List (Nat × Nat × Nat)
  move   : Nat
  deriving DecidableEq, Repr

/-- A cluster at reset. -/
def Clu.empty : Clu := ⟨[], [], 0, none, [], 0, [], 0⟩

/-- One ic's bank accesses of one cluster, as 64-byte units of its window read and written (R108), the banks in which a data
word was rebuilt (R114), and whether they are a Shears pass's own (R235). -/
structure Wave where
  ic       : Nat
  cl       : Nat
  own      : Bool
  reads    : List Nat
  writes   : List Nat
  rebuilds : List Nat
  deriving DecidableEq, Repr

/-- Work that a region has issued and that acts at a later ic. -/
inductive Act where
  /-- plain byte writes at device addresses; a value `b + 256·k` keeps the bits of `k` as they stand when it lands (R186) -/
  | bytes (ws : List (Nat × Nat))
  /-- accumulating writes (R124): element format and (device address, element code) -/
  | accum (fmt : Nat) (ws : List (Nat × Nat))
  /-- a vector register receives its words -/
  | vreg (v : Nat) (ws : List Nat)
  /-- a read wave: the unit of slot `slot` takes device units for fetch `fid` (R110) -/
  | capture (slot fid : Nat) (us : List Nat)
  /-- the bytes of fetch `fid` have come, and the operation issued in ic `t0` goes on with them: MU loads, VU loads and stores,
  Sieve loads, MOVE, a drain's bias or saved row, a Shears group -/
  | takeMu (fid t0 : Nat) (op : MuOp)
  | takeVu (fid t0 : Nat) (op : VuOp)
  | takeSv (fid t0 : Nat) (op : SvOp)
  | takeMv (fid t0 : Nat) (op : MvOp)
  | takeBias (fid rcd e rt ct : Nat)
  | takeRow (fid num mu tile rcd drec e rt ct row : Nat)
  | takeGroup (fid rcd n : Nat)
  /-- a product of the Sieve whose page or map was not ready runs at the end of its hold (R208), whose last `ahead` periods its look-ups
  have used already (R209) -/
  | product (op : MuOp) (ahead : Nat)
  /-- the drain number `num` treats row `row` of a tile (R153, R258) -/
  | drainRow (num mu tile rcd : Nat) (drec : Option Nat) (e rt ct row : Nat)
  /-- the drain number `num` writes its zero map (R156) -/
  | drainMap (num mu tile rcd : Nat) (e rt ct : Nat) (map : Nat)
  /-- a stash row handed to the stash writer (R153, R266): record, entry of the directory, pointer-list entry, tile
  (m, jt), row, source format and the row's codes with scales -/
  | stash (rcd dirEnt e m jt row srcFmt : Nat) (vals : List (Option (Nat × Nat)))
  /-- Shears starts group `n` of the pass of a record (R234) -/
  | group (rcd n : Nat)
  /-- Shears refuses a group (R220, R222): its number and the kind of SH_REFUSE_LOG -/
  | refuse (tileNo kind : Nat)
  /-- an access of slot `slot` made by bundle `bundle` is found uncorrectable (R113, R117) -/
  | ue (slot bundle : Nat)
  /-- a build finds its tile malformed, or entries that it drops (R198, R199): (stored row, column, kind) -/
  | drops (mu : Nat) (ds : List (Nat × Nat × Nat))
  /-- an event increment leaves once the writes it covers are complete (R306): scope, region, counter, amount -/
  | event (scope dst ctr imm : Nat)
  deriving DecidableEq, Repr

/-- An `Act` with the ic at which it acts, its rank in that ic (R109: 0 reads, 1 to 4 the MUs, 5 VU, 6 Sieve, 7 Shears,
8 move, 9 event increments, 10 products after a hold, 11 uncorrectable accesses) and its cluster. -/
structure Pend where
  due  : Nat
  rank : Nat
  cl   : Nat
  act  : Act
  deriving DecidableEq, Repr

/-- A row that a transfer hands to the stash writer (R266): entry, tile (m, jt), row, source format, and its codes with scales and
their rounding. -/
structure StashPart where
  entry  : Nat
  m      : Nat
  jt     : Nat
  row    : Nat
  srcFmt : Nat
  vals   : List (Option ((Nat × Nat) × Rnd))
  deriving DecidableEq, Repr

/-- A transfer in a DMA channel queue (R295): region, record and the tile coordinates read at issue. `phase` is 0 while it
waits for its turn, 1 while its scratchpad source is read, 2 while its data goes out; `buf` holds the source bytes that have come,
`out` the bytes for HBM, and `rows` the stash rows that wait for a unit (R267). `fault` is the completion code that its accesses met. -/
structure Xfer where
  region : Nat
  rcd    : Nat
  e      : Nat
  rt     : Nat
  ct     : Nat
  phase  : Nat
  buf    : List (Nat × Nat)
  out    : List (Nat × Nat)
  rows   : List StashPart
  fault  : Option Nat
  deriving DecidableEq, Repr

/-- A transfer that waits for its turn. -/
def Xfer.queued (r rcd e rt ct : Nat) : Xfer := ⟨r, rcd, e, rt, ct, 0, [], [], [], none⟩

/-- Why an island is held and for what it waits (Table 10.14). The `upto` of a fence is 0 until the writes of its own ic have
issued, and then 1 more than the number of writes given out (R305). -/
inductive Hold where
  | event (ctr imm : Nat)
  | fence (scope upto : Nat)
  | dma (ch : Nat) (x : Xfer)
  | stash
  deriving DecidableEq, Repr

/-- The look-ups of an SMMA or SGW (R207): the ic at which its budget ends, its cluster and MU, the periods of look-ups that will
then be left, and whether its occupancy exceeds its budget. -/
structure Look where
  ends   : Nat
  cl     : Nat
  mu     : Nat
  left   : Nat
  beyond : Bool
  deriving DecidableEq, Repr

/-- One region sequencer. `next` is the index of the bundle that issues next, `cur` that of the last bundle issued; `plists` holds the pointer lists read at
validation (R97) by descriptor; `ctrs` the key and counter at launch start of each named stream (R62); `cens` the census
numbers of R210 by 256·cluster + record; `last` the latest result ic of an issued operation; `bufs` the bytes that have come for a
fetch, by its number, and `asks` the work that waits for a fetch's remote reads; `looks` the Sieve's look-ups in progress; `biases`
the bias codes of drains by number, and by fetch the accumulator rows that wait for theirs; `ended` the holds that a fault or an abort ended and whose periods
HOLD_END has not counted. -/
structure Seq where
  launch  : Option Nat
  kern    : List Nat
  param   : List Nat
  plists  : Tbl (List Nat)
  spoff   : List Nat
  slice   : List Nat
  ctrs    : List (Nat × Nat × Nat)
  ix      : List Nat
  next    : Nat
  cur     : Nat
  ic      : Nat
  started : Bool
  halted  : Bool
  stopped : Bool
  holds   : List Hold
  ended   : List Hold
  pend    : List Pend
  waves   : List Wave
  cens    : Tbl Nat
  last    : Nat
  bufs    : Tbl (List (Nat × Nat))
  asks    : Tbl (List Pend)
  looks   : List Look
  biases  : Tbl (List Nat)
  deriving DecidableEq, Repr

/-- An idle sequencer. -/
def Seq.idle : Seq :=
  ⟨none, [], [], [], [], [], [], [], 0, 0, 0, false, false, false, [], [], [], [], [], 0, [], [], [], []⟩

/-- The fault that ended a launch: its completion code and where it arose (Table 16.7). -/
structure LFault where
  code    : Nat
  region  : Nat
  cluster : Nat
  bundle  : Nat
  ic      : Nat
  deriving DecidableEq, Repr

/-- A launch record (Table 10.1); `rsvd` is nonzero when a reserved field is. -/
structure LRec where
  kernel  : Nat
  klen    : Nat
  phase   : Nat
  evo     : Bool
  dgrad   : Bool
  xgen    : Bool
  cscope  : Nat
  tenant  : Nat
  regions : Nat
  param   : Nat
  plen    : Nat
  id      : Nat
  rsvd    : Nat
  deriving DecidableEq, Repr

/-- An accepted launch, from its record (Table 10.1) and parameter block (R276). `stores` are the device ranges its
descriptors write, `whandles` the handles its store sides name (R491), `stacks` the stacks its descriptors
address; `done` the regions that completed and `lastR` the last of them; `win` is set for a window of a launch that firmware re-tiles (R319): its
record, the loops that its windows split as (extent, PLAN), and the window's number. -/
structure Launch where
  id      : Nat
  tenant  : Nat
  regions : Nat
  phase   : Nat
  evo     : Bool
  dgrad   : Bool
  xgen    : Bool
  cscope  : Nat
  core    : Nat
  handles : List Nat
  streams : List (Nat × Nat)
  stashes : List Nat
  stores  : List (Nat × Nat)
  whandles : List Nat
  stackSet  : Nat
  done    : Nat
  lastR   : Nat
  fault   : Option LFault
  aborted : Bool
  debug   : Bool
  held    : Bool
  win     : Option (LRec × List (Nat × Nat) × Nat)
  deriving DecidableEq, Repr

/-- A remote access of one 64-byte unit on its way (R130, R353): its number; the issuing region, or 32 plus the DMA channel as
16·die + channel; the issuing cluster; the cluster (or 256 plus the stack) reached; the unit; for a read the fetch that it serves;
and for a write whether it accumulates and in which format, and its bytes or elements. -/
structure Remote where
  wid    : Nat
  src    : Nat
  via    : Nat
  cl     : Nat
  unit   : Nat
  fetch  : Option Nat
  accFmt : Option Nat
  ws     : List (Nat × Nat)
  deriving DecidableEq, Repr

/-- A stash row in a die's stash writer (R267): its number, region, entry, bytes and the events of its conversion, and the DMA
channel (1 plus 16·die + channel) whose transfer handed it over, 0 for a drain. -/
structure StashRow where
  wid    : Nat
  region : Nat
  entry  : Nat
  ws     : List (Nat × Nat)
  evs    : List Ev
  chan   : Nat
  deriving DecidableEq, Repr

/-- An event increment on its way (R306): it leaves once the writes numbered up to `upto` at its scope are complete. -/
structure EvInc where
  src   : Nat
  scope : Nat
  upto  : Nat
  dst   : Nat
  ctr   : Nat
  imm   : Nat
  deriving DecidableEq, Repr

/-- One set of a die's HBM cache (R328, R329): ways 0 to 15 as (line number + 1, dirty), and the 15 tree pseudo-LRU bits. -/
structure CacheSet where
  ways : List (Nat × Bool)
  plru : Nat
  deriving DecidableEq, Repr

/-- An empty set. -/
def CacheSet.empty : CacheSet := ⟨List.replicate 16 (0, false), 0⟩

/-- An atomic operation of Table 12.2 held on a protected page: its OP, address, operand and compare value. -/
structure HeldAtom where
  op   : Nat
  addr : Nat
  v    : Nat
  c    : Nat
  deriving DecidableEq, Repr

/-- A write held at a home cache because its page is protected (R344): the agent it came from (0 to 7 a control core, 64 the
collective engine, 128 + f flow f of the host transport, 255 another agent), its bytes, its class at the cache (R329), and the operations
of an atomic one in turn. -/
structure HeldWrite where
  src   : Nat
  ws    : List (Nat × Nat)
  alloc : Bool
  atoms : List HeldAtom
  deriving DecidableEq, Repr

/-- A leaf that waits at an arbiter (R359, R361): its requester number, the die (4 the IOD) and the number of the requester whose
transfer it is, the 64-byte unit it goes to, its own priority, how far aging has promoted it, the transfers granted to others since
it began to wait or was promoted, the cycles of domain 36 it has waited, and the transfers of its burst. -/
structure Waiter where
  leaf  : Fin 97
  die   : Nat
  req   : Nat
  unit  : Nat
  prio  : Fin 4
  up    : Nat
  seen  : Nat
  wait  : Nat
  burst : Nat
  deriving DecidableEq, Repr

/-- One arbiter tree (R358 to R362): for every input of the root (0 to 40) and of the region nodes (64 + leaf) its `cur` and,
by 4·input + priority, the weight latched at the node's last cycle; the leaves that wait; the burst lock with its priority, the
transfers left and the unit of the next; and whether a P0 transfer has followed the last transfer granted below P0. -/
structure Arb where
  cur   : Tbl Int
  w     : Tbl Nat
  waits : List Waiter
  lock  : Option (Fin 97 × Fin 4 × Nat × Nat)
  p0    : Bool
  deriving DecidableEq, Repr

/-- An idle arbiter. -/
def Arb.idle : Arb := ⟨[], [], [], none, false⟩

/-- A flit (R375, Table 14.1): its 128-bit header and its payload. -/
structure Flit where
  hdr : Nat
  pay : List Nat
  deriving DecidableEq, Repr

/-- One Ozpel port's link layer (R376, R377): flits waiting to be sent, sent flits not yet acknowledged (oldest first) and how
many of those are to be resent, the SEQ given out last, the highest SEQ received in order, whether arrivals are discarded until
the resend begins, credits held and credits to be returned; flits reported LINK_DOWN that the engine has not taken (R384); the
milliseconds passed and those at which retrains began within the last second (R384); whether a NAK is owed (R376); and what the
last slot put on the wire, with its CRC (R375). -/
structure Link where
  outq    : List Flit
  replay  : List Flit
  resend  : Nat
  txSeq   : Nat
  rxSeq   : Nat
  discard : Bool
  credits : Nat
  freed   : Nat
  lost    : List Flit
  ms      : Nat
  retr    : List Nat
  nak     : Bool
  wire    : Option (Flit × Nat)
  deriving DecidableEq, Repr

/-- A link before training. -/
def Link.idle : Link := ⟨[], [], 0, 0, 0, false, 0, 0, [], 0, [], false, none⟩

/-- A READY that has arrived (R394): group, operation identifier, the sender's rank, its OP, GEN, byte and element counts and
operation slot. -/
structure Ready where
  group : Nat
  opid  : Nat
  rank  : Nat
  op    : Nat
  gen   : Nat
  bytes : Nat
  elems : Nat
  slot  : Nat
  deriving DecidableEq, Repr

/-- A message that the collective engine or the manager's role has handed to the links (R394, R412, R416, R419), as the spec
names it. -/
inductive ColMsg where
  /-- READY to a rank -/
  | ready (rank : Nat) (x : Ready)
  /-- NOT_READY to a rank -/
  | notReady (rank group opid : Nat)
  /-- (GROUP, OPID) reported to the manager with the status -/
  | report (group opid code : Nat)
  /-- the manager's heartbeat -/
  | heartbeat (epoch : Nat)
  /-- the acknowledgement of a switch of a tenant's job -/
  | switched (tenant : Nat)
  /-- the committed sections of a job slot to the partner (R499) -/
  | sections (slot : Nat)
  /-- the manager's order of a snapshot (R488) -/
  | snapOrder (slot step : Nat)
  deriving DecidableEq, Repr

/-- A collective operation in flight or queued (R391 to R395): its record, parameter block and pointer lists, the region whose
handle table it uses, its streams with key and counter at acceptance and with the declared counts, the handles it holds, the
ranges its destinations cover and those a PERMUTE reaches only in its second phase, whether it is held (R389, R417), the READYs that have arrived, the codes it has sent, and once
decided its status: code, COUNT, ACC and SUMSQ. -/
structure ColOp where
  rcd     : Nat
  param   : List Nat
  plists  : Tbl (List Nat)
  region  : Option Nat
  ctrs    : List (Nat × Nat × Nat)
  streams : List (Nat × Nat)
  handles : List Nat
  dests   : List (Nat × Nat)
  late    : List (Nat × Nat)
  held    : Bool
  readys  : List Ready
  sent    : List Nat
  res     : Option (Nat × Nat × Nat × Nat)
  deriving DecidableEq, Repr

/-- A DATA packet that a flow sends (R424, R426): its SEQ, FIRST and LAST, payload, and the flow's µs when last sent. -/
structure Pkt where
  seq    : Nat
  first  : Bool
  last   : Bool
  pay    : List Nat
  lastTx : Nat
  deriving DecidableEq, Repr

/-- A message received whole (R428): the SEQs of its first and last packets and its bytes. -/
structure Msg where
  seq  : Nat
  last : Nat
  data : List Nat
  deriving DecidableEq, Repr

/-- The transport state of a flow (R423 to R428). Receiving: the next SEQ for assembly, packets held out of order as (SEQ, FIRST,
LAST, payload), the message being assembled, whole messages that wait for their turn, and whether the first of them is a CMD
withheld for a full ring; `done` is the outcome so far of a first message that reached memory and of which writes are held (R344): status,
elements performed, old value. Sending: the next SEQ, packets not yet sent, packets sent and not acknowledged (oldest first), the
peer's WINDOW, consecutive timeouts, whether the flow is BROKEN, and the µs passed. -/
structure Flow where
  rx       : Nat
  held     : List (Nat × Bool × Bool × List Nat)
  asm      : Option (Nat × List Nat)
  msgs     : List Msg
  withheld : Bool
  tx       : Nat
  unsent   : List Pkt
  unacked  : List Pkt
  peerWin  : Nat
  timeouts : Nat
  broken   : Bool
  clock    : Nat
  done     : Option (Nat × Nat × Nat)
  deriving DecidableEq, Repr

/-- A flow before its first packet. The peer's WINDOW is taken as 1,024 until its first header says it (log 18). -/
def Flow.idle : Flow := ⟨0, [], none, [], false, 0, [], [], 1024, 0, false, 0, none⟩

/-- What waits for the signing engine (R460): an attestation report with the reply it goes into, a debug event record likewise,
or a metering record. -/
inductive SignReq where
  | report (flow tag : Nat) (bytes : List Nat)
  | receipt (flow tag : Nat) (bytes : List Nat)
  | meter (bytes : List Nat)
  deriving DecidableEq, Repr

/-- A snapshot in progress (R489 to R495): tenant, step S, VERIFY at its start, stacks and regions imaged, the staging range of each
stack as (stack, first page, pages), the cursor block, the loss word once taken, and what the record's sections take at the protection
point: how many streams, the persistent handles as (region, handle), and the bytes by their places. -/
structure Snap where
  tenant  : Nat
  step    : Nat
  verify  : Bool
  stackSet  : Nat
  regions : Nat
  staging : List (Nat × Nat × Nat)
  cursor  : List Nat
  loss    : Nat
  streams : Nat
  handles : List (Nat × Nat)
  secs    : List (Nat × List Nat)
  deriving DecidableEq, Repr

/-- One second of the risk score's windows (R560): the second of domain 39, rebuilds, words corrected, uncorrectable events. -/
structure Bucket where
  sec      : Nat
  rebuilds : Nat
  fixed    : Nat
  ues      : Nat
  deriving DecidableEq, Repr

/-- Why a run stops with a fault. No command of this block raises one: every fault the spec describes is an effect on the
state (a launch, an operation or a link ends, and the block goes on). -/
inductive Fault where
  /-- Raised by no command; kept so that the type has a member. Safe: nothing reaches it. -/
  | none
  deriving DecidableEq, Repr

/-- Why a command has no meaning. -/
inductive Refusal where
  /-- The command has no meaning yet; raised by Dispatch alone. Safe: nothing is claimed of it. -/
  | notModelled (mnemonic : String)
  deriving DecidableEq, Repr

/-- What writes of a store with ALIAS_OK = 1 have done at one address (R91): the store's number (launch and descriptor, log 183); for
STORE_MODE = 1 what the element held before, the sum written last, and the contributions as (place in element order, code) in that
order; for STORE_MODE = 0 `last` is the place in element order of the write that remains. -/
structure AliasCell where
  store : Nat
  base  : Nat
  last  : Nat
  parts : List (Nat × Nat)
  deriving DecidableEq, Repr

/-- No such write. -/
def AliasCell.none : AliasCell := ⟨0, 0, 0, []⟩

/-- The state of the block. -/
structure State where
  /-- commands waiting, first in, first out -/
  pending  : List Instr
  /-- registers of the address map, control-core registers and the model's scalar internal fields -/
  regs     : Tbl Nat
  /-- HBM by device address; scratchpad by physical row; CSRAM; boot ROM; an unlisted byte reads 0 (log 4) -/
  mem      : List Host.Cell
  /-- clusters by module-wide index -/
  clus     : Tbl Clu
  /-- sequencers by module-wide region index -/
  seqs     : Tbl Seq
  /-- launches by acceptance number -/
  launches : Tbl Launch
  /-- remote bank accesses in flight, oldest first -/
  remotes  : List Remote
  /-- event increments in flight, oldest first -/
  events   : List EvInc
  /-- DMA channel queues by 16·die + channel; the first is in progress -/
  dmaq     : Tbl (List Xfer)
  /-- stash rows waiting for HBM, by die, oldest first -/
  stashq   : Tbl (List StashRow)
  /-- latent errors: bad words of scratchpad rows (physical row key → word number, bad bits) -/
  spErr    : Tbl (List (Nat × Nat))
  /-- poisoned scratchpad rows (physical row key) -/
  spPoison : Tbl Nat
  /-- sets of the HBM caches by 2^17·die + set -/
  cache    : Tbl CacheSet
  /-- latent errors of HBM words: device address of the 8-byte word → bad bits -/
  hbmErr   : Tbl Nat
  /-- latent errors of words held in cache lines -/
  lineErr  : Tbl Nat
  /-- poisoned 256-byte granules: device address / 256 -/
  poison   : Tbl Nat
  /-- copy queues of protected pages by stack, first touched first (module-wide page indices) -/
  copyq    : Tbl (List Nat)
  /-- writes held on protected pages, oldest first -/
  heldw    : List HeldWrite
  /-- staging slots in use: slot device address → 1 plus the page copied there, plus 2^18 times its place in time -/
  staged   : Tbl Nat
  /-- latent errors of CSRAM words: address of the 8-byte word → bad bits -/
  csErr    : Tbl Nat
  /-- handles protected by a snapshot: 1024·region + handle → 1 plus the job slot (R490) -/
  protH    : Tbl Nat
  /-- decided completion records waiting for room in the completion ring, as 512-bit numbers (R436) -/
  pendRecs : List Nat
  /-- arbiter trees by 256·die + resource (R358) -/
  arbs     : Tbl Arb
  /-- link layers of the Ozpel ports, and as port 6 the host egress queue -/
  links    : Tbl Link
  /-- flows of the host transport -/
  flows    : Tbl Flow
  /-- collective operations in flight, by operation slot -/
  cols     : Tbl (Option ColOp)
  /-- collective operations that wait for a slot, oldest first -/
  colQueue : List ColOp
  /-- READYs for operations not yet submitted -/
  readys   : List Ready
  /-- messages of the collective engine, oldest first -/
  colOut   : List ColMsg
  /-- requests to sign, oldest first -/
  signq    : List SignReq
  /-- signed metering records that wait for room in their ring, oldest first -/
  meterq   : List (List Nat)
  /-- snapshots in progress, by job slot -/
  snaps    : Tbl (Option Snap)
  /-- the risk score's windows, newest first -/
  buckets  : List Bucket
  /-- by address, what stores with ALIAS_OK = 1 of unfinished launches have written (R91) -/
  aliased  : Tbl AliasCell
  /-- numbers of writes and launches given out so far -/
  wid      : Nat
  /-- free values used so far (the MODEL's own field, log 6) -/
  free     : Nat
  deriving DecidableEq, Repr

/-- The canonical form of memory: addresses strictly rising, and no entry equal to what an unlisted address reads as (log 4). -/
abbrev Memory.wf (m : List Host.Cell) : Bool := Tbl.wf (0 : BitVec 8) m

/-- The block right after reset: every register at its reset value, nothing listed in memory, every unit empty. -/
def State.reset : State :=
  { pending := [], regs := [], mem := [], clus := [], seqs := [], launches := [], remotes := [], events := [],
    dmaq := [], stashq := [], spErr := [], spPoison := [], cache := [], hbmErr := [], lineErr := [],
    poison := [], copyq := [], heldw := [], staged := [], csErr := [], protH := [], pendRecs := [],
    arbs := [], links := [], flows := [], cols := [], colQueue := [], readys := [], colOut := [], signq := [], meterq := [],
    snaps := [], buckets := [], aliased := [], wid := 0, free := 0 }

end Sys2Proof.Machine
end

