-- ==== Sys2Proof/Machine/Ops.lean ====
section
/-!
DEFINITION. The named operations over registers and memory: register fields, saturating counts, the places of Table 17.1 and
of the scratchpad (R107, R119), the row check of Table 4.5, the HBM cache, poison and page protection (spec/12).
-/

namespace Sys2Proof.Machine
namespace State

/-- The value of a register field, within its width. -/
def rd (s : State) (f : Fld) : Nat := Tbl.get f.rst s.regs f.bit % 2 ^ f.w

/-- A register field written with `v`, cut to its width. -/
def wr (s : State) (f : Fld) (v : Nat) : State :=
  { s with regs := Tbl.set f.rst s.regs f.bit (v % 2 ^ f.w) }

/-- A count raised by `n`, stopping at its all-ones value (R50). -/
def inc (s : State) (f : Fld) (n : Nat) : State := s.wr f (satAdd f.w (s.rd f) n)

/-- A field returned to its reset value. -/
def clr (s : State) (f : Fld) : State := s.wr f f.rst

/-- Fields written in order. -/
def wrs (s : State) : List (Fld × Nat) → State
  | [] => s
  | p :: l => wrs (s.wr p.1 p.2) l

/-- Counts and flags cleared to 0. -/
def zeros (s : State) : List Fld → State
  | [] => s
  | f :: l => zeros (s.wr f 0) l

/-- A field at 1 read as a Bool. -/
def on (s : State) (f : Fld) : Bool := s.rd f != 0

/-- Whether domain 36 runs and nothing holds the module, so that cores, engines and registers act (R447, R513). -/
def awake (s : State) : Bool := s.rd In.hold == 0 && (s.rd Reg.CLK_DOM_STAT_RUN).testBit 4

/-- A command that domain 36 carries out: nothing happens while that domain is stopped or the module is held. -/
def clocked (s t : State) : State := if s.awake then t else s

/-- A 64-bit count held in two registers, raised with saturation (a LO of 32 bits and a HI of 16, R163). -/
def inc48 (s : State) (lo hi : Fld) (n : Nat) : State :=
  let v := satAdd 48 (s.rd lo + s.rd hi * 2 ^ 32) n
  (s.wr lo v).wr hi (v / 2 ^ 32)

/-- A newest-first log of `k` entries: entry i moves to i + 1 and the new fields go to entry 0. `fs i` lists the fields of
entry i in the order of `vs`. -/
def logPush (s : State) (k : Nat) (fs : Nat → List Fld) (vs : List Nat) : State :=
  let moved := (List.range (k - 1)).foldl
    (fun t i => let j := k - 2 - i
      t.wrs ((fs (j + 1)).zip ((fs j).map t.rd))) s
  moved.wrs ((fs 0).zip vs)

/-- An entry of the health log (R558, R559). A full ring drops its oldest unread entry and counts it. -/
def hltLog (s : State) (kind unit detail : Nat) : State :=
  let h := s.rd Reg.HLT_LOG_HEAD_INDEX
  let s1 := s.wrs [(Reg.HLT_LOG_KIND h, kind), (Reg.HLT_LOG_UNIT h, unit), (Reg.HLT_LOG_DETAIL h, detail),
    (Reg.HLT_LOG_MS h, s.rd In.ms39), (Reg.HLT_LOG_HEAD_INDEX, h + 1)]
  if (h + 1) % 256 = s.rd Reg.HLT_LOG_TAIL_INDEX then
    (s1.wr Reg.HLT_LOG_TAIL_INDEX (h + 2)).inc Reg.HLT_LOG_LOST_COUNT 1
  else s1

/-- `n` events of kind `k` for the risk score (R560). -/
def risk (s : State) (k n : Nat) : State := s.inc (In.riskEv k) n

/-- The launches that `p` picks, marked as debug-touched (R576). -/
def touchDebug (s : State) (p : Launch → Bool) : State :=
  { s with launches := s.launches.map fun q => if p q.2 then (q.1, { q.2 with debug := true }) else q }

/-- The meter's counter `c` of tenant `t` raised by `n` (R470); 0xFF, no tenant, counts to management. -/
def charge (s : State) (c t n : Nat) : State := s.inc (In.meter c (if t = 0xFF then 0xFE else t)) n

/-- Cluster `c`. -/
def clu (s : State) (c : Nat) : Clu := Tbl.get Clu.empty s.clus c
/-- Cluster `c` replaced. -/
def setClu (s : State) (c : Nat) (x : Clu) : State := { s with clus := Tbl.set Clu.empty s.clus c x }
/-- MU `m` of cluster `c`. -/
def muOf (s : State) (c m : Nat) : Mu := Tbl.get Mu.empty (s.clu c).mus m
/-- MU `m` of cluster `c` replaced. -/
def setMu (s : State) (c m : Nat) (x : Mu) : State :=
  s.setClu c { s.clu c with mus := Tbl.set Mu.empty (s.clu c).mus m x }
/-- The sequencer of region `r`. -/
def seq (s : State) (r : Nat) : Seq := Tbl.get Seq.idle s.seqs r
/-- The sequencer of region `r` replaced. -/
def setSeq (s : State) (r : Nat) (x : Seq) : State := { s with seqs := Tbl.set Seq.idle s.seqs r x }
/-- The accumulator tile `t` of MU `m` of cluster `c`. -/
def tile (s : State) (c m t : Nat) : AccTile := Tbl.get AccTile.zero (s.muOf c m).tiles t
/-- An accumulator tile replaced. -/
def setTile (s : State) (c m t : Nat) (x : AccTile) : State :=
  s.setMu c m { s.muOf c m with tiles := Tbl.set AccTile.zero (s.muOf c m).tiles t x }

/-- A byte of memory by its key. -/
def memGet (s : State) (k : Nat) : Nat := (Tbl.get (0 : BitVec 8) s.mem k).toNat
/-- A byte of memory written by its key. -/
def memSet (s : State) (k v : Nat) : State := { s with mem := Tbl.set 0 s.mem k (BitVec.ofNat 8 v) }

end State

/-- Base of the cluster windows (R105). -/
def spBase : Nat := 0x010000000000
/-- Size of a cluster window. -/
def spWin : Nat := 0x08000000
/-- Usable scratchpad of a cluster, 124 MiB. -/
def spSize : Nat := 0x07C00000
/-- End of the accumulator window. -/
def accEnd : Nat := 0x07C80000
/-- Populated bytes of a stack, 36 GiB (R324). -/
def hbmSize : Nat := 0x900000000
/-- Base of CSRAM (Table 17.1). -/
def csramB : Nat := 0x021000000000
/-- Base of the boot ROM. -/
def romB : Nat := 0x021100000000

/-- What an address is (Tables 0.3, 4.2, 12, 17.1). -/
inductive Place where
  | hbm (stack off : Nat)
  | hole (stack : Nat)
  | sp (cl off : Nat)
  | acc (cl mu tile elem byte : Nat)
  | csram (off : Nat)
  | rom (off : Nat)
  | regs
  | unmapped
  deriving DecidableEq, Repr

/-- The place of a device or control-complex address (R105, R324, R444). -/
def place (a : Nat) : Place :=
  if a < 12 * 2 ^ 36 then
    if a % 2 ^ 36 < hbmSize then .hbm (a / 2 ^ 36) (a % 2 ^ 36) else .hole (a / 2 ^ 36)
  else if spBase ≤ a ∧ a < spBase + 256 * spWin then
    let c := (a - spBase) / spWin
    let o := (a - spBase) % spWin
    if o < spSize then .sp c o
    else if o < accEnd then
      let w := o - spSize
      .acc c (w / 0x20000) (w % 0x20000 / 0x8000) (w % 0x8000 / 8) (w % 8)
    else .unmapped
  else if csramB ≤ a ∧ a < csramB + 0x800000 then .csram (a - csramB)
  else if romB ≤ a ∧ a < romB + 0x40000 then .rom (a - romB)
  else if 0x020000000000 ≤ a ∧ a < 0x020005800000 then .regs
  else .unmapped

/-- The bank of granule `g` of a cluster window (R107). -/
def bankOf (g : Nat) : Nat := (g + g / 64) % 64

namespace State

/-- The physical row of logical row `l` in bank `b` of cluster `c`: the spare whose valid remap entry names it, or itself
(R119). -/
def physRow (s : State) (c b l : Nat) : Nat :=
  match firstBelow 256 fun e => s.on (Reg.SP_REMAP_VALID c b e) && s.rd (Reg.SP_REMAP_LROW c b e) == l with
  | some e => 7936 + e
  | none => l

/-- The memory key of byte 0 of physical row `p` of bank `b` of cluster `c`. -/
def rowKey (c b p : Nat) : Nat := spBase + c * spWin + b * 0x200000 + p * 256

/-- The memory key of scratchpad offset `o` of cluster `c` (R107, R119). -/
def spKey (s : State) (c o : Nat) : Nat :=
  rowKey c (bankOf (o / 256)) (s.physRow c (bankOf (o / 256)) (o / 256 / 64)) + o % 256

/-- One byte at a device address as the spec lays memory out: 0 where nothing is mapped, and in bits [63:40] of an
accumulator word (R45). -/
def peek (s : State) (a : Nat) : Nat :=
  match place a with
  | .hbm _ _ => s.memGet a
  | .sp c o => s.memGet (s.spKey c o)
  | .acc c m t e b => if b < 5 then Tbl.get 0 (s.tile c m t).vals e / 2 ^ (8 * b) % 256 else 0
  | .csram _ => s.memGet a
  | .rom _ => s.memGet a
  | _ => 0

/-- One byte written at a device address. A write through the accumulator window sets the tile's chain count to 1 (R143) and
ignores bits [63:40] (R45); the ROM, registers and unmapped addresses take nothing here. -/
def poke (s : State) (a v : Nat) : State :=
  match place a with
  | .hbm _ _ => s.memSet a v
  | .sp c o => s.memSet (s.spKey c o) v
  | .acc c m t e b =>
    let x := s.tile c m t
    let w := if b < 5 then putBits (Tbl.get 0 x.vals e) (8 * b) 8 v else Tbl.get 0 x.vals e
    s.setTile c m t { x with vals := Tbl.set 0 x.vals e w, cnt := 1, sgw := none }
  | .csram _ => s.memSet a v
  | _ => s

/-- `n` bytes from address `a` up. -/
def peeks (s : State) (a : Nat) : Nat → List Nat
  | 0 => []
  | n + 1 => s.peek a :: peeks s (a + 1) n

/-- A little-endian number of `n` bytes. -/
def peekN (s : State) (a n : Nat) : Nat := ofLe (s.peeks a n)

/-- Bytes written at addresses, in order. -/
def pokes (s : State) : List (Nat × Nat) → State
  | [] => s
  | p :: l => pokes (s.poke p.1 p.2) l

end State

/-- Bytes placed from address `a` up. -/
def at' (a : Nat) : List Nat → List (Nat × Nat)
  | [] => []
  | b :: l => (a, b) :: at' (a + 1) l

/-! ### Scratchpad rows (R115 to R118) -/

namespace State

/-- The fields of one SP_ROW_LOG entry. -/
def rowLog (c n : Nat) : List Fld :=
  [Reg.SP_ROW_LOG_ROW c n, Reg.SP_ROW_LOG_BANK c n, Reg.SP_ROW_LOG_KIND c n, Reg.SP_ROW_LOG_VALID c n]

/-- An entry put in front of a cluster's row log; an uncorrectable one is a health event too (Table 22.1). -/
def pushRow (s : State) (c row bank kind : Nat) : State :=
  let s1 := s.logPush 8 (rowLog c) [row, bank, kind, 1]
  if kind = 3 then s1.hltLog 6 (c / 8) (row + bank * 2 ^ 13 + 3 * 2 ^ 19 + 2 ^ 31) else s1

/-- The check of one access of granule `g` of cluster `c` (Table 4.5). `whole` is a write of all 256 bytes, or ZERO, which
checks nothing and clears the row's errors and poison (R116, R118). Answers the state, whether the access is uncorrectable,
and the number of data-word rebuilds. -/
def rowAccess (s : State) (c g : Nat) (whole : Bool) : State × Bool × Nat :=
  let b := bankOf g
  let k := rowKey c b (s.physRow c b (g / 64))
  let clean : State := { s with spErr := Tbl.set [] s.spErr k [], spPoison := Tbl.set 0 s.spPoison k 0 }
  if whole then (clean, false, 0)
  else
    let errs := Tbl.get [] s.spErr k
    let multi := errs.filter fun p => p.2 ≥ 2
    let single := (errs.filter fun p => p.2 == 1).length
    if Tbl.get 0 s.spPoison k = 1 ∨ multi.length ≥ 2 then
      ((({ s with spPoison := Tbl.set 0 s.spPoison k 1 }.inc (Reg.SP_UE_CNT_COUNT c) 1).risk 2 1).pushRow c (g / 64) b 3, true, 0)
    else
      let s1 := clean.inc (Reg.SP_SBE_CNT_COUNT c b) single
      match multi with
      | [] => (s1, false, 0)
      | p :: _ =>
        (((s1.inc (Reg.SP_REBUILD_CNT_COUNT c b) 1).risk 0 (b2n (decide (p.1 < 32)))).pushRow c (g / 64) b (if p.1 < 32 then 1 else 2), false,
          if p.1 < 32 then 1 else 0)

/-- The checks of several granules of one cluster, in order. -/
def rowAccesses (s : State) (c : Nat) : List Nat → State × Bool × Nat
  | [] => (s, false, 0)
  | g :: gs =>
    let x := s.rowAccess c g false
    let y := rowAccesses x.1 c gs
    (y.1, x.2.1 || y.2.1, max x.2.2 y.2.2)

/-! ### HBM, its cache, poison and page protection (spec/12) -/

/-- The die whose cache serves a stack (R325). -/
def homeDie (k : Nat) : Nat := k / 3

/-- A die's busy state of a stack: the status of R335 and R347, 0 when accesses are served. -/
def stackStatus (s : State) (k : Nat) : Nat :=
  if s.rd (Reg.HBM_STAT_STATE k) = 5 then 5 else if s.rd (Reg.HBM_STAT_STATE k) = 4 then 6 else 0

/-- The set of a line (R328). -/
def lineSet (line : Nat) : Nat := (line ^^^ (line / 2 ^ 17)) % 2 ^ 17

/-- The tree pseudo-LRU bits after a use of way `w`: on the path to the way every bit points away from it. -/
def plruUse (bits w : Nat) : Nat :=
  let n1 := 0
  let n2 := 1 + w / 8
  let n3 := 3 + w / 4
  let n4 := 7 + w / 2
  putBits (putBits (putBits (putBits bits n1 1 (1 - w / 8)) n2 1 (1 - w / 4 % 2)) n3 1 (1 - w / 2 % 2)) n4 1 (1 - w % 2)

/-- The way that the tree pseudo-LRU bits point to. -/
def plruVictim (bits : Nat) : Nat :=
  let a := bitsOf bits 0 0
  let b := bitsOf bits (1 + a) (1 + a)
  let c := bitsOf bits (3 + 2 * a + b) (3 + 2 * a + b)
  let d := bitsOf bits (7 + 4 * a + 2 * b + c) (7 + 4 * a + 2 * b + c)
  8 * a + 4 * b + 2 * c + d

/-- The stack of a line; a line number is below 12·2^29. -/
def lineStack (line : Nat) : Nat := line / 2 ^ 29 % 12

/-- The lowest 8-byte word of a line with a latent error in a table, with its bad bits. -/
def lineBad (t : Tbl Nat) (line : Nat) : List (Nat × Nat) :=
  (List.range 16).filterMap fun i => let a := 128 * line + 8 * i
    if Tbl.get 0 t a = 0 then none else some (a, Tbl.get 0 t a)

/-- A granule put under the poison mark, counted and logged (R332): `kind` 1 for an HBM read, 2 for a dirty line. -/
def poisonGranule (s : State) (g kind : Nat) : State :=
  let k := lineStack (2 * g)
  let s1 : State := { s with poison := Tbl.set 0 s.poison g 1 }
  let s2 := if kind = 1 then s1.inc (Reg.HBM_UE_CNT_COUNT k) 1 else s1.inc (Reg.HC_UE_CNT_DIRTY (homeDie k)) 1
  ((s2.risk 2 1).logPush 4 (fun n => [Reg.HBM_UE_LOG_GRANULE k n, Reg.HBM_UE_LOG_KIND k n, Reg.HBM_UE_LOG_VALID k n])
    [g % 2 ^ 28, kind, 1]).hltLog 6 k (g % 2 ^ 28 + kind * 2 ^ 28 + 2 ^ 31)

/-- The errors that a read of a line from HBM meets (R332): single bits corrected and counted, and the granule poisoned once where some
word is beyond correction. -/
def hbmLineRead (s : State) (line : Nat) : State :=
  let bad := lineBad s.hbmErr line
  let s1 := bad.foldl (fun (t : State) p =>
    let t1 : State := { t with hbmErr := Tbl.set 0 t.hbmErr p.1 0 }
    if p.2 = 1 then (t1.inc (Reg.HBM_CE_CNT_COUNT (lineStack line)) 1).risk 1 1 else t1) s
  if bad.any fun p => p.2 != 1 then s1.poisonGranule (line / 2) 1 else s1

/-- The errors of a line that leaves the cache go with it. -/
def dropLineErr (s : State) (line : Nat) : State :=
  (lineBad s.lineErr line).foldl (fun (t : State) p => { t with lineErr := Tbl.set 0 t.lineErr p.1 0 }) s

/-- The errors that a use of a cached line meets (R332): single bits corrected and counted; a word beyond correction poisons the granule
of a dirty line, and a clean line is fetched again, once in either case. -/
def lineRead (s : State) (line : Nat) (dirty : Bool) : State :=
  let d := homeDie (lineStack line)
  let bad := lineBad s.lineErr line
  let s1 := (bad.filter fun p => p.2 == 1).foldl (fun (t : State) _ => (t.inc (Reg.HC_CE_CNT_COUNT d) 1).risk 1 1) (s.dropLineErr line)
  if !(bad.any fun p => p.2 != 1) then s1
  else if dirty then s1.poisonGranule (line / 2) 2
  else (s1.inc (Reg.HC_UE_CNT_CLEAN d) 1).hbmLineRead line

/-- One access of a line at its home cache (R329): `write`, `whole` a whole-line write, `alloc` the ALLOC class. -/
def cacheTouch (s : State) (line : Nat) (write whole alloc : Bool) : State :=
  let d := homeDie (lineStack line)
  let key := 2 ^ 17 * d + lineSet line
  let cs := Tbl.get CacheSet.empty s.cache key
  match cs.ways.findIdx? (fun p => p.1 == line + 1) with
  | some w =>
    let dirty := (cs.ways.getD w (0, false)).2
    let s0 := s.inc48 (Reg.HC_HIT_LO_COUNT d) (Reg.HC_HIT_HI_COUNT d) 1
    let s1 := if write && whole then s0.dropLineErr line else s0.lineRead line dirty
    let cs' : CacheSet := ⟨cs.ways.set w (line + 1, dirty || (write && alloc)), plruUse cs.plru w⟩
    { s1 with cache := Tbl.set CacheSet.empty s1.cache key cs' }
  | none =>
    let s1 := s.inc48 (Reg.HC_MISS_LO_COUNT d) (Reg.HC_MISS_HI_COUNT d) 1
    let s2 := if write && (whole || !alloc) then s1 else s1.hbmLineRead line
    if !alloc then s2
    else
      let w := (cs.ways.findIdx? (fun p => p.1 == 0)).getD (plruVictim cs.plru)
      let victim := cs.ways.getD w (0, false)
      let s3 := if victim.2 then (s2.lineRead (victim.1 - 1) true).inc (Reg.HC_WB_CNT_COUNT d) 1
        else if victim.1 = 0 then s2 else s2.dropLineErr (victim.1 - 1)
      let cs' : CacheSet := ⟨cs.ways.set w (line + 1, write), plruUse cs.plru w⟩
      { s3 with cache := Tbl.set CacheSet.empty s3.cache key cs' }

/-- The access of every line that `n` bytes from `a` meet. -/
def cacheRange (s : State) (a n : Nat) (write alloc : Bool) : State :=
  (List.range ((a + n + 127) / 128 - a / 128)).foldl (fun t i =>
    let l := a / 128 + i
    t.cacheTouch l write (decide (a ≤ 128 * l) && decide (128 * l + 128 ≤ a + n)) alloc) s

/-- The granules that `n` bytes from `a` meet. -/
def granules (a n : Nat) : List Nat := (List.range ((a + n + 255) / 256 - a / 256)).map (a / 256 + ·)

/-- Whether the range lies within the populated part of one stack (R324). -/
def inStack (a n : Nat) : Bool :=
  decide (a < 12 * 2 ^ 36) && decide (a % 2 ^ 36 + n ≤ hbmSize)

/-- A read of `n` bytes of HBM through its home cache: the status of R335 (0 done, 3 HOLE, 4 POISON, 5 STACK_LOST, 6 BUSY)
and the bytes. -/
def hbmRead (s : State) (a n : Nat) (alloc : Bool) : State × Nat × List Nat :=
  if !inStack a n then
    (if a < 12 * 2 ^ 36 then s.inc (Reg.HBM_HOLE_CNT_COUNT (a / 2 ^ 36)) 1 else s, 3, [])
  else if s.stackStatus (a / 2 ^ 36) ≠ 0 then (s, s.stackStatus (a / 2 ^ 36), [])
  else
    let s1 := s.cacheRange a n false alloc
    if (granules a n).any fun g => Tbl.get 0 s1.poison g == 1 then (s1, 4, [])
    else (s1, 0, s1.peeks a n)

/-- The module-wide page of an address (R342). -/
def pageOf (a : Nat) : Nat := 18432 * (a / 2 ^ 36) + a % 2 ^ 36 / 2 ^ 21

/-- The protection bit of a module-wide page (R342, HC_WP_BITS). -/
def pageBit (p : Nat) : Fld × Nat :=
  let k := p / 18432
  let q := p % 18432
  (Reg.HC_WP_BITS (k / 3) (k % 3) (q / 32), q % 32)

/-- Whether a page is protected. -/
def protectedPage (s : State) (p : Nat) : Bool := (s.rd (pageBit p).1).testBit (pageBit p).2

/-- A page's protection bit written. -/
def setProtected (s : State) (p v : Nat) : State :=
  s.wr (pageBit p).1 (putBits (s.rd (pageBit p).1) (pageBit p).2 1 v)

/-- HC_WP_STAT.QUEUE of a die: the longest copy queue of its stacks, of 8 pages each (R344). -/
def countQueue (s : State) (d : Nat) : State :=
  s.wr (Reg.HC_WP_STAT_QUEUE d)
    (min ((List.range 3).foldl (fun m i => max m (Tbl.get [] s.copyq (3 * d + i)).length) 0) 8)

/-- The pages of stack `k`'s copy queue that find no free staging slot and have not been counted as waiting (R345); those counted stand at
its front, and `In.slotWaits` is how many they are. -/
def countSlotWaits (s : State) (k : Nat) : State :=
  let n := (Tbl.get [] s.copyq k).length
  let m := s.rd (In.slotWaits k)
  if s.rd (Reg.HC_WP_SLOT_CNT_FREE (homeDie k) (k % 3)) = 0 ∧ m < n then
    (s.inc (Reg.HC_WP_SLOTWAIT_COUNT (homeDie k)) (n - m)).wr (In.slotWaits k) n
  else s

/-- A page queued for its first-touch copy (R344). -/
def queueCopy (s : State) (p : Nat) : State :=
  let k := p / 18432
  let q := Tbl.get [] s.copyq k
  if q.contains p then s
  else (({ s with copyq := Tbl.set [] s.copyq k (q ++ [p]) } : State).countSlotWaits k).countQueue (homeDie k)

/-- Every protected page that a list of writes touches, queued. -/
def queueTouched (s : State) (ws : List (Nat × Nat)) : State :=
  (((ws.filter fun p => decide (p.1 < 12 * 2 ^ 36)).map fun p => pageOf p.1).eraseDups.filter s.protectedPage).foldl (fun t p => t.queueCopy p) s

/-- Whether some byte of a list of writes falls in a protected page of a stack that serves accesses. -/
def touchesProtected (s : State) (ws : List (Nat × Nat)) : Bool :=
  ws.any fun p => decide (p.1 < 12 * 2 ^ 36) && s.stackStatus (p.1 / 2 ^ 36) == 0 && s.protectedPage (pageOf p.1)

/-- Whether a home cache holds a line. -/
def cached (s : State) (line : Nat) : Bool :=
  (Tbl.get CacheSet.empty s.cache (2 ^ 17 * homeDie (lineStack line) + lineSet line)).ways.any fun p => p.1 == line + 1

/-- The injection of R577: an armed flip enters the next write of the target word, here one that writes the bytes `as`. A launch
that addresses the memory is debug-touched. -/
def inject (s : State) (as : List Nat) : State :=
  let ia := s.rd Reg.DBG_INJ_ADDR_LO + 2 ^ 32 * s.rd Reg.DBG_INJ_ADDR_HI
  if s.on Reg.DBG_INJ_ARM && as.any fun a => a / 8 == ia / 8 then
    let n := s.rd Reg.DBG_INJ_BITS + 1
    let w := ia / 8 * 8
    let done := (s.wr Reg.DBG_INJ_ARM 0).touchDebug fun l => match place ia with
      | .sp c _ => l.regions.testBit (c / 8)
      | .hbm k _ => l.stackSet.testBit k
      | _ => false
    match place ia, s.rd Reg.DBG_INJ_TARGET with
    | .sp c o, 1 =>
      let k := s.spKey c o - o % 256
      let l := Tbl.get [] s.spErr k
      { done with spErr := Tbl.set [] s.spErr k (l ++ [(o % 256 / 8, n)]) }
    | .hbm _ _, 2 => { done with hbmErr := Tbl.set 0 s.hbmErr w n }
    | .hbm _ _, 3 => if !s.cached (w / 128) then s else { done with lineErr := Tbl.set 0 s.lineErr w n }
    | .csram _, 4 => { done with csErr := Tbl.set 0 s.csErr w n }
    | _, _ => s
  else s

/-- The errors that a write of 8 whole bytes removes, and the poison that a write of a whole granule removes (R332, R333). -/
def heal (s : State) (a n : Nat) : State :=
  let words := (List.range ((a + n) / 8 - (a + 7) / 8)).map fun i => 8 * ((a + 7) / 8 + i)
  let s1 := words.foldl (fun t w =>
    { t with hbmErr := Tbl.set 0 t.hbmErr w 0, lineErr := Tbl.set 0 t.lineErr w 0 }) s
  ((List.range ((a + n) / 256 - (a + 255) / 256)).map ((a + 255) / 256 + ·)).foldl
    (fun t g => { t with poison := Tbl.set 0 t.poison g 0 }) s1

/-- Bytes at consecutive addresses of served HBM written through the home cache. -/
def hbmStore (s : State) (a : Nat) (bs : List Nat) (alloc : Bool) : State :=
  let s1 := (s.cacheRange a bs.length true alloc).heal a bs.length
  (s1.pokes (at' a bs)).inject ((at' a bs).map (·.1))

/-- Bytes at consecutive addresses, page by page. -/
def byPage (a : Nat) (bs : List Nat) : List (List (Nat × Nat)) :=
  (List.range ((a + bs.length + 2 ^ 21 - 1) / 2 ^ 21 - a / 2 ^ 21)).map fun i =>
    (at' a bs).filter fun p => p.1 / 2 ^ 21 == a / 2 ^ 21 + i

/-- A write of bytes at consecutive addresses of HBM from `a` up through the home cache, with the status of R335. What it writes to a
protected page is held and the page queued; its other pages are written (R344). -/
def hbmWriteBy (s : State) (src a : Nat) (bs : List Nat) (alloc : Bool) : State × Nat :=
  let n := bs.length
  if n = 0 then (s, 0)
  else if !inStack a n then
    (if a < 12 * 2 ^ 36 then s.inc (Reg.HBM_HOLE_CNT_COUNT (a / 2 ^ 36)) 1 else s, 3)
  else if s.stackStatus (a / 2 ^ 36) ≠ 0 then (s, s.stackStatus (a / 2 ^ 36))
  else if s.touchesProtected (at' a bs) then
    ((byPage a bs).foldl (fun (t : State) ws =>
      if t.touchesProtected ws then ({ t with heldw := t.heldw ++ [⟨src, ws, alloc, []⟩] } : State).queueTouched ws
      else t.hbmStore (nth (ws.map (·.1)) 0) (ws.map (·.2)) alloc) s, 0)
  else (s.hbmStore a bs alloc, 0)

/-- A write by an agent that is no control core. -/
def hbmWrite (s : State) (a : Nat) (bs : List Nat) (alloc : Bool) : State × Nat := s.hbmWriteBy 255 a bs alloc

end State
end Sys2Proof.Machine
end

