-- ==== Sys2Proof/Machine/Transcend.lean ====
section
/-!
DEFINITION. The transcendental functions of the vector unit, the drain and the derivative drain (R293, Table 10.11). R293
asks for the FP32 value nearest to the exact one. Every function is evaluated in fixed point with 640 fraction bits by
series with a fixed number of terms; the result is rounded once. The value computed lies within 2^-440 of the exact one,
far below the distance between a value of these functions at an FP32 input and a rounding boundary. DEDUCED (log 8).
-/

namespace Sys2Proof.Machine

namespace Fx

/-- Fraction bits of the fixed-point numbers. -/
def P : Nat := 640
/-- One. -/
def one : Int := (2 ^ P : Nat)
/-- Product. -/
def mul (a b : Int) : Int := a * b / one
/-- Quotient. -/
def div (a b : Int) : Int := a * one / b
/-- `m * 2^e` in fixed point. -/
def ofDy (neg : Bool) (m : Nat) (e : Int) : Int :=
  let k := e + (P : Int)
  let v : Nat := if 0 ≤ k then m * 2 ^ k.toNat else m / 2 ^ (-k).toNat
  if neg then -(v : Int) else v
/-- A fixed-point number as an exact value. -/
def toF (v : Int) : FVal := .fin (decide (v < 0)) v.natAbs (-(P : Int))

/-- `atanh z` by its series: `t` holds z^(2k+1). -/
def atanhGo (z2 : Int) : Nat → Nat → Int → Int → Int
  | 0, _, _, acc => acc
  | n + 1, k, t, acc => atanhGo z2 n (k + 2) (mul t z2) (acc + t / (k : Int))
/-- `atanh z` for `|z| ≤ 1/3`. -/
def atanh (z : Int) : Int := atanhGo (mul z z) 210 1 z 0
/-- `ln 2 = 2 atanh(1/3)`. -/
def ln2 : Int := 2 * atanh (one / 3)

/-- The exponential series: `t` holds r^k/k!. -/
def expGo (r : Int) : Nat → Nat → Int → Int → Int
  | 0, _, _, acc => acc
  | n + 1, k, t, acc => expGo r n (k + 1) (mul t r / (k : Int)) (acc + t)
/-- Repeated squaring. -/
def sqr : Nat → Int → Int
  | 0, a => a
  | n + 1, a => sqr n (mul a a)
/-- `e^x`. -/
def exp (x : Int) : Int :=
  let l := ln2
  let n := (2 * x + l) / (2 * l)
  let r := x - n * l
  let y := sqr 16 (expGo (r / 65536) 60 1 one 0)
  if 0 ≤ n then y * (2 ^ n.toNat : Nat) else y / (2 ^ (-n).toNat : Nat)
/-- `ln (m * 2^e)` for a positive value. -/
def ln (m : Nat) (e : Int) : Int :=
  let b := Nat.log2 m
  let y := ofDy false m (-(b : Int))
  2 * atanh (div (y - one) (y + one)) + ((b : Int) + e) * ln2
/-- `ln (1 + t)` for `0 ≤ t ≤ 1`. -/
def ln1p (t : Int) : Int := 2 * atanh (div t (t + 2 * one))
/-- The sum of x^(2k+1)/(1·3·…·(2k+1)), which times the density gives Φ(x) - 1/2. -/
def phiGo (x2 : Int) : Nat → Nat → Int → Int → Int
  | 0, _, _, acc => acc
  | n + 1, k, t, acc => phiGo x2 n (k + 2) (mul t x2 / (k : Int)) (acc + t)
/-- `atan(1/k)` by its series. -/
def atanGo (k2 : Int) : Nat → Nat → Int → Int → Int
  | 0, _, _, acc => acc
  | n + 1, j, t, acc => atanGo k2 n (j + 2) (-t / k2) (acc + t / (j : Int))
/-- π by Machin's formula. -/
def pi : Int := 16 * atanGo 25 150 1 (one / 5) 0 - 4 * atanGo 57121 60 1 (one / 239) 0
/-- The square root of a nonnegative number. -/
def sqrt (a : Int) : Int := (Nat.sqrt (a.toNat * 2 ^ P) : Nat)
/-- The standard normal density. -/
def dens (x : Int) : Int := div (exp (-(mul x x) / 2)) (sqrt (2 * pi))
/-- The standard normal distribution function, for |x| at most 16. -/
def phi (x : Int) : Int := one / 2 + mul (dens x) (phiGo (mul x x) 900 3 x 0)
/-- `1/(1 + e^-x)`. -/
def sigmoid (x : Int) : Int := if x < 0 then (let t := exp x; div t (one + t)) else div one (one + exp (-x))

end Fx

/-- A value so small that every rounding takes it to a signed zero. -/
def tiny (neg : Bool) : FVal := .fin neg 1 (-1000)
/-- A value above every range. -/
def huge : FVal := .fin false 1 1000

/-- Whether `|m * 2^e|` exceeds the integer `k`. -/
def exceeds (m : Nat) (e : Int) (k : Nat) : Bool := FVal.lt (.fin false k 0) (.fin false m e)

/-- The exact value, or one that rounds as it does, of function `code` of Table 10.11 at a finite input. -/
def trFin (code : Nat) (neg : Bool) (m : Nat) (e : Int) : FVal :=
  let x := Fx.ofDy neg m e
  match code with
  | 0 => if exceeds m e 200 then (if neg then tiny false else huge) else Fx.toF (Fx.exp x)
  | 1 =>
    if m = 0 then .inf true else if neg then .nan else Fx.toF (Fx.ln m e)
  | 2 =>
    if m = 0 then .inf neg else if neg then .nan else Fx.toF (Fx.sqrt (Fx.div Fx.one x))
  | 3 =>
    if m = 0 then .inf neg else
      let q := 2 ^ (Nat.log2 m + 64)
      .fin neg (2 * (q / m) + b2n (decide (q % m ≠ 0))) (-(Nat.log2 m : Int) - 65 - e)
  | 4 =>
    if m = 0 then .fin neg 0 0
    else if exceeds m e 200 then .fin neg (2 ^ 200 - 1) (-200)
    else
      let t := Fx.exp (2 * x)
      Fx.toF (Fx.div (t - Fx.one) (t + Fx.one))
  | 5 => if exceeds m e 200 then (if neg then tiny false else .fin false (2 ^ 200 - 1) (-200)) else Fx.toF (Fx.sigmoid x)
  | 6 =>
    if m = 0 then .fin neg 0 0
    else if exceeds m e 16 then (if neg then tiny true else .fin false (m * 2 ^ 200 - 1) (e - 200))
    else Fx.toF (Fx.mul x (Fx.phi x))
  | 7 =>
    if m = 0 then .fin neg 0 0
    else if exceeds m e 200 then (if neg then tiny true else .fin false (m * 2 ^ 200 - 1) (e - 200))
    else Fx.toF (Fx.mul x (Fx.sigmoid x))
  | 8 =>
    if exceeds m e 200 then (if neg then tiny false else .fin false (m * 2 ^ 200 + 1) (e - 200))
    else if neg then Fx.toF (Fx.ln1p (Fx.exp x)) else Fx.toF (x + Fx.ln1p (Fx.exp (-x)))
  | _ =>
    if exceeds m e 16 then (if neg then tiny true else .fin false (2 ^ 200 + 1) (-200))
    else Fx.toF (Fx.phi x + Fx.mul x (Fx.dens x))

/-- The special values of Table 10.11 at ±Inf. -/
def trInf (code : Nat) (neg : Bool) : FVal :=
  match code with
  | 0 => if neg then .zero else .inf false
  | 1 => if neg then .nan else .inf false
  | 2 => if neg then .nan else .zero
  | 3 => .fin neg 0 0
  | 4 => .fin neg 1 0
  | 5 => if neg then .zero else .one
  | 6 => if neg then .fin true 0 0 else .inf false
  | 7 => if neg then .fin true 0 0 else .inf false
  | 8 => if neg then .zero else .inf false
  | _ => if neg then .zero else .one

/-- Function `code` of Table 10.11 at an FP32 value: the FP32 code and the events (R293). A NaN input gives the canonical
NaN. -/
def vtr (code : Nat) (v : FVal) : Nat × List Ev :=
  match v with
  | .nan => toF32 .nan
  | .inf n => toF32 (trInf code n)
  | .fin n m e => toF32 (trFin code n m e)

end Sys2Proof.Machine
end

