-- ==== Sys2Proof/Machine/Desc.lean ====
section
/-!
DEFINITION. Tensor descriptors (spec/03_tensor_descriptors.md): the record, the place of every element, the classes of index
positions with clamping and padding, loads and stores of rows, and accumulate-on-write (R124).
-/

namespace Sys2Proof.Machine

/-- Little-endian bits of `n` bytes of a block at byte offset `off`. -/
def blk (p : List Nat) (off n : Nat) : Nat := ofLe ((p.drop off).take n)

/-- One dimension entry (Table 3.2). -/
structure Dim where
  ext     : Nat
  plan    : Nat
  stride  : Int
  haloLo  : Nat
  haloHi  : Nat
  org     : Nat
  pext    : Nat
  sstride : Int
  raw     : Nat
  deriving DecidableEq, Repr

/-- A descriptor (Tables 3.1 and 3.2); `raw` is its whole record. -/
structure Desc where
  raw       : Nat
  fmt       : Nat
  rank      : Nat
  space     : Nat
  smode     : Nat
  aliasOk   : Bool
  padOvr    : Bool
  plistEn   : Bool
  layout    : Nat
  vdimEn    : Bool
  vdim      : Nat
  handle    : Nat
  pad       : Nat
  base      : Nat
  scaleBase : Nat
  plistAddr : Nat
  plistCnt  : Nat
  dims      : List Dim
  deriving DecidableEq, Repr

/-- Dimension entry k of a descriptor record. -/
def parseDim (n : Nat) : Dim :=
  ⟨bitsOf n 31 0, bitsOf n 63 32, sext 48 (bitsOf n 111 64), bitsOf n 119 112, bitsOf n 127 120, bitsOf n 159 128,
    bitsOf n 191 160, sext 48 (bitsOf n 239 192), n % 2 ^ 256⟩

/-- A descriptor from its 256 bytes. -/
def parseDesc (n : Nat) : Desc :=
  { raw := n, fmt := bitsOf n 3 0, rank := bitsOf n 6 4, space := bitsOf n 7 7, smode := bitsOf n 9 8,
    aliasOk := n.testBit 10, padOvr := n.testBit 11, plistEn := n.testBit 12, layout := bitsOf n 13 13,
    vdimEn := n.testBit 14, vdim := bitsOf n 18 16, handle := bitsOf n 29 20, pad := bitsOf n 63 32,
    base := bitsOf n 111 64, scaleBase := bitsOf n 175 128, plistAddr := bitsOf n 239 192, plistCnt := bitsOf n 255 240,
    dims := (List.range 6).map fun k => parseDim (n >>> (256 + 256 * k)) }

namespace Desc

/-- Dimension k as R582 reads it: the single index 0 beyond the rank. -/
def dim (d : Desc) (k : Nat) : Dim :=
  if k < d.rank then d.dims.getD k (parseDim 0) else ⟨1, 1, 0, 0, 0, 0, 0, 0, 0⟩
/-- Run-time extent of dimension k. -/
def ext (d : Desc) (k : Nat) : Nat := (d.dim k).ext
/-- ORG as R81 reads it. -/
def org (d : Desc) (k : Nat) : Nat := if (d.dim k).pext = 0 then 0 else (d.dim k).org
/-- Parent extent as R81 reads it. -/
def parent (d : Desc) (k : Nat) : Nat := if (d.dim k).pext = 0 then d.ext k else (d.dim k).pext
/-- Number of pointer-list entries, 1 without a list. -/
def entries (d : Desc) : Nat := if d.plistEn then d.plistCnt + 1 else 1
/-- The descriptor with pointer-list entry `x` applied (R94). -/
def atEntry (d : Desc) (pl : List Nat) (e : Nat) : Desc :=
  if !d.plistEn then d
  else
    let x := nth pl e
    { d with
      base := bitsOf x 47 0, scaleBase := bitsOf x 111 64,
      dims := if d.vdimEn then
        d.dims.modify d.vdim (fun m => { m with ext := bitsOf x 159 128 }) else d.dims }
/-- Row bytes (R75). -/
def rowBytes (d : Desc) : Nat :=
  if isBlock d.fmt then cdiv (d.ext 0) 32 * blockBytes d.fmt else d.ext 0 * elemBytes d.fmt
/-- Number of rows over dimensions 1 and up. -/
def rows (d : Desc) : Nat := d.ext 1 * d.ext 2 * d.ext 3 * d.ext 4 * d.ext 5
/-- Number of elements. -/
def count (d : Desc) : Nat := d.ext 0 * d.rows
/-- Whether some extent is zero (R98). -/
def isZeroExt (d : Desc) : Bool := d.count == 0
/-- Extents spanned for R580: PLAN in dimension VDIM of a list with VDIM_EN. -/
def span (d : Desc) (k : Nat) : Nat :=
  if d.plistEn && d.vdimEn && d.vdim == k then (d.dim k).plan else d.ext k
/-- Rows spanned by one entry (R580). -/
def spanRows (d : Desc) : Nat := d.span 1 * d.span 2 * d.span 3 * d.span 4 * d.span 5
/-- Elements spanned by one entry (R580). -/
def spanCount (d : Desc) : Nat := d.span 0 * d.spanRows

/-- The indices in dimensions 1 to 5 of flat row `r` (R285), counted over the spans of R580: row-major, the outermost dimension
unbounded. -/
def flat (d : Desc) (r : Nat) : List Int :=
  let top := max (d.rank - 1) 1
  let go := (List.range 5).foldl (fun (acc : List Int × Nat) i =>
    let k := i + 1
    if k < top then (acc.1 ++ [((acc.2 % max (d.span k) 1 : Nat) : Int)], acc.2 / max (d.span k) 1)
    else if k = top then (acc.1 ++ [(acc.2 : Int)], 0)
    else (acc.1 ++ [0], 0)) (([] : List Int), r)
  go.1

/-- The flat rows of the body, ascending: those of the span with every index below its extent (R580). -/
def bodyRows (d : Desc) : List Nat :=
  (List.range d.spanRows).filter fun r => (d.flat r).zipIdx.all fun p => decide (p.1 < (d.ext (p.2 + 1) : Int))

/-- The indices of the element at row `r` and column `c`. -/
def idx (d : Desc) (r c : Nat) : List Int := (c : Int) :: d.flat r

end Desc

/-- Classes of index positions, least severe first (Table 3.3). -/
inductive Cls where
  | body | halo | pad | cpad | free
  deriving DecidableEq, Repr

/-- The place of a class in Table 3.3. -/
def Cls.sev : Cls → Nat
  | .body => 0 | .halo => 1 | .pad => 2 | .cpad => 3 | .free => 4

/-- The class of index `i` in dimension `k`, with contraction dimension `cd` (R83). -/
def clsDim (d : Desc) (cd : Option Nat) (k : Nat) (i : Int) : Cls :=
  let m := d.dim k
  if 0 ≤ i ∧ i < (m.ext : Int) then .body
  else if -(m.haloLo : Int) ≤ i ∧ i < (m.ext : Int) + m.haloHi then
    if !d.padOvr && decide (0 ≤ (d.org k : Int) + i) && decide ((d.org k : Int) + i < d.parent k) then .halo else .pad
  else if cd = some k then .cpad else .free

/-- The class of a position: that of its most severe dimension (R83). -/
def clsOf (d : Desc) (cd : Option Nat) (ix : List Int) : Cls :=
  (List.range 6).foldl (fun c k =>
    let x := clsDim d cd k (ix.getD k 0)
    if x.sev > c.sev then x else c) .body

/-- The clamped indices of R84. They keep to the window and to the parent whatever PAD_OVR is, so that with PAD_OVR = 1 an index may come
to stand in the halo (DESIGN CHOICE, log 180). -/
def clampIdx (d : Desc) (ix : List Int) : List Int :=
  (List.range 6).map fun k =>
    let m := d.dim k
    let lo := max (-(m.haloLo : Int)) (-(d.org k : Int))
    let hi := min ((m.ext : Int) + m.haloHi) ((d.parent k : Int) - d.org k) - 1
    let i := ix.getD k 0
    if lo ≤ hi then min (max i lo) hi else i

/-- A descriptor with the device addresses of its element and scale bases. A store with ALIAS_OK = 1 carries the number that names it
(log 183) and its pointer-list entry, so that writes on one address take effect in element order (R91). -/
structure View where
  d     : Desc
  base  : Nat
  sbase : Nat
  order : Option (Nat × Nat)
  deriving DecidableEq, Repr

/-- The byte address of row `ix` (dimensions 1 and up), by strides. -/
def rowAddr (v : View) (ix : List Int) : Int :=
  (List.range 5).foldl (fun a i => a + ix.getD (i + 1) 0 * (v.d.dim (i + 1)).stride) (v.base : Int)

/-- The address of the scale row. -/
def scaleRowAddr (v : View) (ix : List Int) : Int :=
  (List.range 5).foldl (fun a i => a + ix.getD (i + 1) 0 * (v.d.dim (i + 1)).sstride) (v.sbase : Int)

/-- An element's place: byte address of its first byte, bit within it, and the address of its scale byte for block formats
(R74). -/
def elemPlace (v : View) (ix : List Int) : Nat × Nat × Nat :=
  let i0 := ix.getD 0 0
  let f := v.d.fmt
  if isBlock f then
    let b := i0 / 32
    let w := elemBits f * (i0 % 32).toNat
    ((rowAddr v ix + b * blockBytes f).toNat + w / 8, w % 8, (scaleRowAddr v ix + b).toNat)
  else ((rowAddr v ix + i0 * elemBytes f).toNat, 0, 0)

/-- Bytes that an element's bits touch. -/
def elemLen (f bit : Nat) : Nat := if isBlock f then (bit + elemBits f + 7) / 8 else elemBytes f

/-- The stored code and scale byte of an element; scale 127 outside block formats. -/
def readCode (s : State) (v : View) (ix : List Int) : Nat × Nat :=
  let p := elemPlace v ix
  let n := s.peekN p.1 (elemLen v.d.fmt p.2.1)
  (n / 2 ^ p.2.1 % 2 ^ elemBits v.d.fmt, if isBlock v.d.fmt then s.peek p.2.2 else 127)

/-- The pad value's code and scale in a format (R72). -/
def padCode (fmt pad : Nat) : Nat × Nat :=
  let x := decodeElem (efmt 0) pad
  if fmt = 15 then (pad, 127)
  else if fmt = 14 then ((roundAcc x).1, 127)
  else if isBlock fmt then (let sc := blockScale fmt [x]; ((blockElem fmt sc .rne x).1, sc))
  else ((roundElem (efmt fmt) .rne true x).1, 127)

/-- What a load supplies at a position: code and scale, and the 64-byte accesses read, if any (Table 3.3, R77). -/
def loadCode (s : State) (v : View) (cd : Option Nat) (ix : List Int) : (Nat × Nat) × List Nat :=
  let touch (jx : List Int) : List Nat :=
    let p := elemPlace v jx
    let n := elemLen v.d.fmt p.2.1
    (p.1 / 64) :: ((p.1 + n - 1) / 64) :: (if isBlock v.d.fmt then [p.2.2 / 64] else [])
  if v.d.isZeroExt then ((0, 127), [])
  else match clsOf v.d cd ix with
    | .body => (readCode s v ix, touch ix)
    | .halo => (readCode s v ix, touch ix)
    | .free => (readCode s v (clampIdx v.d ix), touch (clampIdx v.d ix))
    | _ => (padCode v.d.fmt v.d.pad, [])

/-- A set of numbers as a table. -/
def insertAll (t : Tbl Unit) : List Nat → Tbl Unit
  | [] => t
  | g :: l => insertAll (Tbl.put t g ()) l

/-- The codes of `n` columns from column `c0` of `m` rows from row `r0`, row-major, with the 64-byte accesses made. -/
def loadTile (s : State) (v : View) (cd : Option Nat) (r0 c0 m n : Nat) : List (Nat × Nat) × List Nat :=
  let x := (List.range (m * n)).foldl (fun (acc : List (Nat × Nat) × Tbl Unit) i =>
    let y := loadCode s v cd (v.d.idx (r0 + i / n) (c0 + i % n))
    (y.1 :: acc.1, insertAll acc.2 y.2)) ([], [])
  (x.1.reverse, x.2.map (·.1))

/-- Whether a position is a body position. -/
def isBody (d : Desc) (r c : Nat) : Bool := !d.isZeroExt && clsOf d none (d.idx r c) == .body

/-- The row-major element index of R62 and R580 of row `r`, column `c` of entry `e`. -/
def elemIndex (d : Desc) (e r c : Nat) : Nat :=
  let ix := d.flat r
  let lin := (List.range 5).foldl (fun (acc : Nat × Nat) i =>
    (acc.1 + (ix.getD i 0).toNat * acc.2, acc.2 * d.span (i + 1))) (0, 1)
  e * d.spanCount + lin.1 * d.span 0 + c

/-- The number of a store and the place of row `r`, column `c` in its element order, counted from 1 (R91); 0 without ALIAS_OK. -/
def View.rank (v : View) (r c : Nat) : Nat :=
  match v.order with
  | none => 0
  | some x => x.1 * 2 ^ 256 + elemIndex v.d x.2 r c + 1

/-- Writes of the element at row `r`, column `c` of `k` bits each, its rank put above them. -/
def View.mark (v : View) (r c k : Nat) (ws : List (Nat × Nat)) : List (Nat × Nat) :=
  ws.map fun p => (p.1, p.2 + 2 ^ k * v.rank r c)

/-- A row of values converted and placed: for each column from `c0` the value and rounding, or none where the row is not
written (R85). Answers the byte writes, the stored codes with scales, and the events (R47 to R50, R39 to R41). -/
def storeRow (v : View) (r c0 : Nat) (srcFmt : Nat) (vals : List (Option (FVal × Rnd))) :
    List (Nat × Nat) × List (Option (Nat × Nat)) × List Ev :=
  let f := v.d.fmt
  if isBlock f then
    let blocks := (List.range (cdiv vals.length 32)).map fun b =>
      let part := (vals.drop (32 * b)).take 32
      if part.all (·.isNone) then ([], part.map fun _ => none, [])
      else
        let cv := convBlock f (part.filterMap id)
        let codes := (part.foldl (fun (acc : List (Option (Nat × Nat)) × List Nat) p =>
          match p, acc.2 with
          | some _, c :: cs => (acc.1 ++ [some (c, cv.1)], cs)
          | _, cs => (acc.1 ++ [none], cs)) (([] : List (Option (Nat × Nat))), cv.2.1)).1
        let word := (codes.zipIdx.map fun p => (p.1.getD (0, 0)).1 * 2 ^ (elemBits f * p.2)).foldl (· + ·) 0
        let ix := v.d.idx r (c0 + 32 * b)
        let p := elemPlace v ix
        (v.mark r (c0 + 32 * b) 16 (at' p.1 (toLe (blockBytes f) word) ++ [(p.2.2, cv.1)]), codes, cv.2.2)
    (blocks.flatMap (·.1), blocks.flatMap (·.2.1), blocks.flatMap (·.2.2))
  else
    let elems := vals.zipIdx.map fun q =>
      match q.1 with
      | none => ([], none, [])
      | some (x, rn) =>
        let c := convElem srcFmt f rn x
        (v.mark r (c0 + q.2) 16 (at' (elemPlace v (v.d.idx r (c0 + q.2))).1 (toLe (elemBytes f) c.1)), some (c.1, 127), c.2)
    (elems.flatMap (·.1), elems.map (·.2.1), elems.flatMap (·.2.2))

/-- A row of codes placed unchanged (a raw ACC40 drain, a copy of index elements or of blocks). -/
def storeCodes (v : View) (r c0 : Nat) (vals : List (Option (Nat × Nat))) : List (Nat × Nat) :=
  let f := v.d.fmt
  if isBlock f then
    (List.range (cdiv vals.length 32)).flatMap fun b =>
      let part := (vals.drop (32 * b)).take 32
      match part.filterMap id with
      | [] => []
      | q :: _ =>
        let word := (part.zipIdx.map fun p => (p.1.getD (0, 0)).1 * 2 ^ (elemBits f * p.2)).foldl (· + ·) 0
        let p := elemPlace v (v.d.idx r (c0 + 32 * b))
        v.mark r (c0 + 32 * b) 16 (at' p.1 (toLe (blockBytes f) word) ++ [(p.2.2, q.2)])
  else vals.zipIdx.flatMap fun q =>
    match q.1 with
    | none => []
    | some x => v.mark r (c0 + q.2) 16 (at' (elemPlace v (v.d.idx r (c0 + q.2))).1 (toLe (elemBytes f) x.1))

/-- The element writes of an accumulating store: (address, code) of each written element (R92), its rank above bit 40 (R91). -/
def accumRow (v : View) (r c0 : Nat) (codes : List (Option (Nat × Nat))) : List (Nat × Nat) :=
  codes.zipIdx.filterMap fun q =>
    match q.1 with
    | none => none
    | some x => some ((elemPlace v (v.d.idx r (c0 + q.2))).1, x.1 + 2 ^ 40 * v.rank r (c0 + q.2))

/-- The sum of R124 in an element's format: the new code and the events. -/
def accumElem (fmt old new : Nat) : Nat × List Ev :=
  if fmt = 15 then ((old + new) % 2 ^ 32, [])
  else if fmt = 14 then accSum (decodeAcc old) (decodeAcc new)
  else roundElem (efmt fmt) .rne false ((decodeElem (efmt fmt) old).add (decodeElem (efmt fmt) new))

namespace State

/-- The counts of one ACC_WRITE event in a cluster's bank: the cluster's own 16-bit count and the region's 32-bit one (R133,
R562). -/
def accEvent (s : State) (c : Nat) : Ev → State
  | .sat => (s.inc (Reg.SP_ACC_EVT_SAT c) 1).inc (Reg.HLT_REGION_SAT (c / 8)) 1
  | .uflow => (s.inc (Reg.SP_ACC_EVT_UFLOW c) 1).inc (Reg.HLT_REGION_UFLOW (c / 8)) 1
  | .accFtz => (s.inc (Reg.SP_ACC_ACC40_FTZ c) 1).inc (Reg.HLT_REGION_FTZ (c / 8)) 1
  | .accOvf => (s.inc (Reg.SP_ACC_ACC40_OVF c) 1).inc (Reg.HLT_REGION_OVF (c / 8)) 1
  | _ => s

/-- The writes that take effect of writes that land in this order: one of a store with ALIAS_OK = 1 gives way to a write of the same
store that stands later in element order (R91). Another write at the address ends the record of it. -/
def inOrder (s : State) (ws : List (Nat × Nat)) : State × List (Nat × Nat) :=
  let x := ws.foldl (fun (acc : Tbl AliasCell × List (Nat × Nat)) p =>
    let g := p.2 / 2 ^ 16
    let cell := Tbl.get AliasCell.none acc.1 p.1
    if g = 0 then (Tbl.set AliasCell.none acc.1 p.1 AliasCell.none, p :: acc.2)
    else if cell.store = g / 2 ^ 256 ∧ g % 2 ^ 256 < cell.last then acc
    else (Tbl.set AliasCell.none acc.1 p.1 ⟨g / 2 ^ 256, 0, g % 2 ^ 256, []⟩, (p.1, p.2 % 2 ^ 16) :: acc.2)) (s.aliased, [])
  ({ s with aliased := x.1 }, x.2.reverse)

/-- The chain of an element that holds `base`: its contributions added in order (R91, R124). -/
def accumAll (fmt base : Nat) (l : List (Nat × Nat)) : Nat := l.foldl (fun a q => (accumElem fmt a q.2).1) base

/-- One accumulation of the contribution `v` onto the element at `a`, which holds `cur`: the sum, its events, and the element's record.
Contributions of a store with ALIAS_OK = 1 are added in element order whatever the order they come in (R91): the chain is taken again
from what the element held before the first of them, and the events are those of the new contribution's own addition. -/
def accumStep (s : State) (fmt a cur v : Nat) : (Nat × List Ev) × AliasCell :=
  let g := v / 2 ^ 40
  if g = 0 then (accumElem fmt cur v, AliasCell.none)
  else
    let cell := Tbl.get AliasCell.none s.aliased a
    let old := if cell.store = g / 2 ^ 256 ∧ cell.last = cur then cell else ⟨g / 2 ^ 256, cur, cur, []⟩
    let k := g % 2 ^ 256
    let before := old.parts.filter fun q => decide (q.1 ≤ k)
    let after := old.parts.filter fun q => decide (k < q.1)
    let x := accumElem fmt (accumAll fmt old.base before) (v % 2 ^ 40)
    let y := accumAll fmt x.1 after
    ((y, x.2), ⟨old.store, old.base, y, before ++ [(k, v % 2 ^ 40)] ++ after⟩)

/-- Accumulating writes in order (R124). -/
def accums (s : State) (fmt : Nat) : List (Nat × Nat) → State
  | [] => s
  | p :: l =>
    let n := elemBytes fmt
    let y := s.accumStep fmt p.1 (s.peekN p.1 n % 2 ^ elemBits fmt) p.2
    let x := y.1
    let s1 := ({ s with aliased := Tbl.set AliasCell.none s.aliased p.1 y.2 } : State).pokes (at' p.1 (toLe n x.1))
    let s2 := match place p.1 with
      | .sp c _ => x.2.foldl (fun t e => t.accEvent c e) s1
      | _ => s1
    accums s2 fmt l

end State
end Sys2Proof.Machine
end

