-- ==== Sys2Proof/Machine/Tiles.lean ====
section
/-!
DEFINITION. Sparse tile arrays (spec/06_sparse_tile_formats.md): array headers, directories, the seven tile encodings, the
choice of a format, encoding, and value stores.
-/

namespace Sys2Proof.Machine

/-- Element width w of R169. -/
def valBits (vfmt : Nat) : Nat := elemBits vfmt
/-- `pad16` of R168. -/
def pad16 (x : Nat) : Nat := 16 * cdiv x 16
/-- Value slots of a format (Table 6.4). -/
def slotsOf (tfmt n : Nat) : Nat :=
  match tfmt with
  | 0 => 0 | 1 => 4096 | 2 => 2048 | 3 => 1024 | 4 => 1024 | _ => n

/-- The index sections of a format, in bytes (Table 6.4). -/
def indexSections (tfmt n : Nat) (masked : Bool) : List Nat :=
  match tfmt with
  | 1 => if masked then [512] else []
  | 2 => [512]
  | 3 => [128, 256]
  | 4 => [384]
  | 5 => [512, 128]
  | 6 => [cdiv (3 * n) 2]
  | _ => []

/-- All sections of a record (Table 6.4): index sections, scales, values. -/
def sections (tfmt vfmt n : Nat) (masked : Bool) : List Nat :=
  if tfmt = 0 then []
  else indexSections tfmt n masked ++ (if isBlock vfmt then [128] else []) ++ [cdiv (slotsOf tfmt n * valBits vfmt) 8]

/-- Record size of R168. -/
def tileSize (tfmt vfmt n : Nat) (masked : Bool) : Nat :=
  64 * cdiv (16 + ((sections tfmt vfmt n masked).map pad16).foldl (· + ·) 0) 64

/-- Byte offset of section `i` of a record. -/
def sectionOff (tfmt vfmt n : Nat) (masked : Bool) (i : Nat) : Nat :=
  16 + (((sections tfmt vfmt n masked).take i).map pad16).foldl (· + ·) 0

/-- Offset of the scale section. -/
def scaleOff (tfmt vfmt n : Nat) (masked : Bool) : Nat :=
  sectionOff tfmt vfmt n masked (indexSections tfmt n masked).length
/-- Offset of the value section. -/
def valueOff (tfmt vfmt n : Nat) (masked : Bool) : Nat :=
  sectionOff tfmt vfmt n masked ((indexSections tfmt n masked).length + (if isBlock vfmt then 1 else 0))

/-- A structural entry as stored: position and value slot; `dup` for a repeated COORD coordinate (R180). -/
structure TEnt where
  row  : Nat
  col  : Nat
  slot : Nat
  dup  : Bool
  deriving DecidableEq, Repr

/-- A tile as read from memory. `addr` is the record's device address, `cap` its slot's capacity in bytes. A tile malformed as
a whole (R179) has `bad` set and reads as ZERO. -/
structure Tile where
  addr   : Nat
  cap    : Nat
  bad    : Bool
  tfmt   : Nat
  vfmt   : Nat
  scount : Nat
  masked : Bool
  trunc  : Bool
  ver    : Nat
  ents   : List TEnt
  deriving DecidableEq, Repr

/-- The tile that nothing stands for. -/
def Tile.zero : Tile := ⟨0, 0, false, 0, 0, 0, false, false, 0, []⟩

/-- The tag of a tile (R249, R290). -/
def Tile.tag (t : Tile) : TileTag := ⟨t.tfmt, t.scount, t.ver⟩

/-- Bits of a mask section as positions with slots in row-major order, slots counted from 0 (BITMAP) or by position
(DENSE). -/
def maskEnts (mask : Nat) (packed : Bool) : List TEnt :=
  ((setBits mask 4096).zipIdx).map fun p => ⟨p.1 / 64, p.1 % 64, if packed then p.2 else p.1, false⟩

/-- The entries of one N = 2 group (Table 6.5). -/
def groupEnts (row base slot p0 p1 : Nat) : List TEnt :=
  if p0 < p1 then [⟨row, base + p0, slot, false⟩, ⟨row, base + p1, slot + 1, false⟩]
  else if p0 = p1 then [⟨row, base + p0, slot, false⟩]
  else []

/-- Marks every coordinate that repeats an earlier one. -/
def markDups (seen : Tbl Unit) : List TEnt → List TEnt
  | [] => []
  | e :: l =>
    let k := 64 * e.row + e.col
    { e with dup := (Tbl.get none (seen.map fun p => (p.1, some p.2)) k).isSome } :: markDups (Tbl.put seen k ()) l

/-- The entries of a record in storage order (R174 to R178), from the number its bytes form. -/
def tileEnts (tfmt n : Nat) (masked : Bool) (rc : Nat) : List TEnt :=
  match tfmt with
  | 1 => if masked then maskEnts (bitsOf rc (128 + 4095) 128) false else maskEnts (2 ^ 4096 - 1) false
  | 2 => (List.range 1024).flatMap fun i =>
      let f := bitsOf rc (128 + 4 * i + 3) (128 + 4 * i)
      groupEnts (i / 16) (4 * (i % 16)) (2 * i) (f % 4) (f / 4)
  | 3 => (List.range 1024).filterMap fun i =>
      if rc.testBit (128 + i) then
        some ⟨i / 16, 4 * (i % 16) + bitsOf rc (128 + 1024 + 2 * i + 1) (128 + 1024 + 2 * i), i, false⟩
      else none
  | 4 => (List.range 512).flatMap fun i =>
      let f := bitsOf rc (128 + 6 * i + 5) (128 + 6 * i)
      groupEnts (i / 8) (8 * (i % 8)) (2 * i) (f % 8) (f / 8)
  | 5 => maskEnts (bitsOf rc (128 + 4095) 128) true
  | 6 => markDups [] ((List.range n).map fun j =>
      let c := bitsOf rc (128 + 12 * j + 11) (128 + 12 * j)
      ⟨c / 64, c % 64, j, false⟩)
  | _ => []

/-- Whether the prefix counts of a BITMAP record agree with its mask (R177). -/
def prefixesOk (rc : Nat) : Bool :=
  ((List.range 64).foldl (fun (acc : Bool × Nat) r =>
    (acc.1 && bitsOf rc (128 + 4096 + 16 * r + 15) (128 + 4096 + 16 * r) == acc.2,
      acc.2 + popCount (bitsOf rc (128 + 64 * r + 63) (128 + 64 * r)) 64)) (true, 0)).1

/-- The array header at a base (Table 6.1): TROWS, TCOLS, VFMT, UNITS. -/
def arrHeader (s : State) (base : Nat) : Nat × Nat × Nat × Nat :=
  let h := s.peekN base 12
  (bitsOf h 15 0, bitsOf h 31 16, bitsOf h 35 32, bitsOf h 95 64)

/-- Tile (tr, tc) of the array at `base`, by directory coordinates (R164, R165, R179). -/
def readTile (s : State) (base tr tc : Nat) : Tile :=
  let h := arrHeader s base
  let ent := s.peekN (base + 64 + 8 * (tr * h.2.1 + tc)) 8
  let off := bitsOf ent 31 0
  let cap := bitsOf ent 47 32
  let first := 1 + cdiv (8 * h.1 * h.2.1) 64
  let addr := base + 64 * off
  let bad : Tile := { Tile.zero with addr := addr, cap := 64 * cap, bad := true }
  if h.1 ≤ tr ∨ h.2.1 ≤ tc ∨ cap = 0 ∨ off < first ∨ h.2.2.2 < off + cap then bad
  else
    let hd := s.peekN addr 16
    let tfmt := bitsOf hd 3 0
    let vfmt := bitsOf hd 7 4
    let n := bitsOf hd 20 8
    let masked := hd.testBit 21
    if 7 ≤ tfmt ∨ vfmt ≠ h.2.2.1 ∨ bitsOf hd 31 23 ≠ 0 ∨ bitsOf hd 127 64 ≠ 0 ∨ 4096 < n ∨ (tfmt = 0 ∧ n ≠ 0) ∨
        (tfmt ≠ 0 ∧ n = 0) ∨ (masked ∧ tfmt ≠ 1) ∨ (tfmt = 1 ∧ masked ∧ n = 4096) ∨ (tfmt = 1 ∧ !masked ∧ n < 4096) ∨
        64 * cap < tileSize tfmt vfmt n masked then bad
    else
      let rc := s.peekN addr (tileSize tfmt vfmt n masked)
      let es := tileEnts tfmt n masked rc
      if (tfmt ≠ 6 ∧ es.length ≠ n) ∨ (tfmt = 5 ∧ !prefixesOk rc) then bad
      else ⟨addr, 64 * cap, false, tfmt, vfmt, n, masked, hd.testBit 22, bitsOf hd 63 32, es⟩

namespace Tile

/-- The stored code of value slot `j` (R170). -/
def code (s : State) (t : Tile) (j : Nat) : Nat :=
  let w := valBits t.vfmt
  let b := w * j
  let n := s.peekN (t.addr + valueOff t.tfmt t.vfmt t.scount t.masked + b / 8) ((b % 8 + w + 7) / 8)
  n / 2 ^ (b % 8) % 2 ^ w

/-- The half-row scale of position (r, c), 127 outside block formats (R171). -/
def scale (s : State) (t : Tile) (r c : Nat) : Nat :=
  if isBlock t.vfmt then s.peek (t.addr + scaleOff t.tfmt t.vfmt t.scount t.masked + 2 * r + c / 32) else 127

/-- The entries that take part: no repeated coordinate. -/
def live (t : Tile) : List TEnt := t.ents.filter fun e => !e.dup

/-- The value of an entry (R172). -/
def value (s : State) (t : Tile) (e : TEnt) : FVal := decodeFmt t.vfmt (t.code s e.slot) (t.scale s e.row e.col)

end Tile

/-- The logical window of body tile (tr, tc): rows and columns (R167). -/
def window (d : Desc) (tr tc : Nat) : Nat × Nat := (min 64 (d.ext 1 - 64 * tr), min 64 (d.ext 0 - 64 * tc))

/-- Body tile (tr, tc) of a LAYOUT = 1 view (R167); none outside the run-time extents. -/
def bodyTile (s : State) (v : View) (tr tc : Nat) : Option Tile :=
  if v.d.isZeroExt ∨ v.d.ext 1 ≤ 64 * tr ∨ v.d.ext 0 ≤ 64 * tc then none
  else some (readTile s v.base (v.d.org 1 / 64 + tr) (v.d.org 0 / 64 + tc))

/-- The 64-byte units that `n` bytes from `a` meet. -/
def unitsOf (a n : Nat) : List Nat := (List.range ((a + n + 63) / 64 - a / 64)).map (a / 64 + ·)

/-- The 64-byte units that a tile's record occupies; of a malformed tile, those of its header. -/
def Tile.units (t : Tile) : List Nat :=
  if t.bad then [t.addr / 64]
  else unitsOf t.addr (tileSize t.tfmt t.vfmt t.scount t.masked)

/-- Row-major order of entries. -/
def sortEnts (l : List TEnt) : List TEnt := l.mergeSort fun a b => decide (64 * a.row + a.col ≤ 64 * b.row + b.col)

/-- How many entries of a mask (positions as row-major numbers) lie in each group of `m` columns: the largest count. -/
def maxGroup (pos : List Nat) (m : Nat) : Nat :=
  let counts : Tbl Nat := pos.foldl (fun t p => Tbl.set 0 t (p / m) (Tbl.get 0 t (p / m) + 1)) []
  counts.foldl (fun a p => max a p.2) 0

/-- `choose_format` of R182 on the positions of a mask. -/
def chooseFormat (pos : List Nat) (vfmt : Nat) : Nat :=
  let n := pos.length
  if n = 0 then 0
  else
    let ok := fun f => match f with
      | 2 => decide (maxGroup pos 4 ≤ 2)
      | 3 => decide (maxGroup pos 4 ≤ 1)
      | 4 => decide (maxGroup pos 8 ≤ 2)
      | _ => true
    ([2, 3, 4, 5, 6].foldl (fun (b : Nat × Nat) f =>
      if ok f && decide (tileSize f vfmt n false < b.2) then (f, tileSize f vfmt n false) else b)
      (1, tileSize 1 vfmt n (decide (n < 4096)))).1

/-- The value slot that the encoder gives position number `i` (row-major `p`) of a mask (R174 to R178). -/
def slotFor (tfmt : Nat) (pos : List Nat) (i p : Nat) : Nat :=
  match tfmt with
  | 1 => p
  | 2 => p / 4 * 2 + ((pos.take i).filter fun q => q / 4 == p / 4).length
  | 3 => p / 4
  | 4 => p / 8 * 2 + ((pos.take i).filter fun q => q / 8 == p / 8).length
  | _ => i

/-- The position field of one N = 2 group in canonical form (Table 6.5). -/
def groupField (ps : List Nat) (m : Nat) : Nat :=
  match ps with
  | [] => 1
  | [a] => a % m + a % m * m
  | a :: b :: _ => a % m + b % m * m

/-- The index sections the encoder writes for a mask, each as a number of its bytes (R173 to R178). -/
def indexBits (tfmt : Nat) (pos : List Nat) (masked : Bool) : List Nat :=
  let mask := pos.foldl (fun a p => a + 2 ^ p) 0
  let inGroup := fun m g => pos.filter fun p => p / m == g
  match tfmt with
  | 1 => if masked then [mask] else []
  | 2 => [((List.range 1024).map fun g => groupField (inGroup 4 g) 4 * 16 ^ g).foldl (· + ·) 0]
  | 3 => [((List.range 1024).map fun g => (if (inGroup 4 g).isEmpty then 0 else 2 ^ g)).foldl (· + ·) 0,
          ((List.range 1024).map fun g => (nth (inGroup 4 g) 0) % 4 * 4 ^ g).foldl (· + ·) 0]
  | 4 => [((List.range 512).map fun g => groupField (inGroup 8 g) 8 * 64 ^ g).foldl (· + ·) 0]
  | 5 => [mask, ((List.range 64).map fun r => (pos.filter fun p => decide (p < 64 * r)).length * 2 ^ (16 * r)).foldl
            (· + ·) 0]
  | 6 => [(pos.zipIdx.map fun q => q.1 * 2 ^ (12 * q.2)).foldl (· + ·) 0]
  | _ => []

/-- The bytes of a section, padded to a multiple of 16 (R168). -/
def sectionBytes (len n : Nat) : List Nat := toLe (pad16 len) n

/-- A record as the encoder writes it (R168 to R173): entries as (row-major position, code) in ascending order and the 128
half-row scales. -/
def encodeTile (tfmt vfmt : Nat) (trunc : Bool) (ver : Nat) (es : List (Nat × Nat)) (scales : List Nat) : List Nat :=
  let pos := es.map (·.1)
  let n := es.length
  let masked := tfmt == 1 && decide (n < 4096)
  let hd := tfmt + vfmt * 2 ^ 4 + n * 2 ^ 8 + b2n masked * 2 ^ 21 + b2n trunc * 2 ^ 22 + ver % 2 ^ 32 * 2 ^ 32
  let idx := ((indexSections tfmt n masked).zip (indexBits tfmt pos masked)).flatMap fun p => sectionBytes p.1 p.2
  let w := valBits vfmt
  let vals := (es.zipIdx.map fun q => q.1.2 * 2 ^ (w * slotFor tfmt pos q.2 q.1.1)).foldl (· + ·) 0
  let body := toLe 16 hd ++ idx ++
    (if tfmt = 0 then [] else (if isBlock vfmt then scales.take 128 else []) ++
      sectionBytes (cdiv (slotsOf tfmt n * w) 8) vals)
  body ++ List.replicate (tileSize tfmt vfmt n masked - body.length) 0

/-- The record's bytes placed in the order of R223: all granules but the first, and the first granule. -/
def recordWrites (addr : Nat) (bs : List Nat) : List (Nat × Nat) × List (Nat × Nat) :=
  let ws := at' addr bs
  (ws.filter fun p => p.1 / 256 != addr / 256, ws.filter fun p => p.1 / 256 == addr / 256)

/-- The bytes of one value slot with a new code, merged with what memory holds (R170). -/
def slotWrite (s : State) (t : Tile) (j code : Nat) : List (Nat × Nat) :=
  let w := valBits t.vfmt
  let b := w * j
  let a := t.addr + valueOff t.tfmt t.vfmt t.scount t.masked + b / 8
  let k := (b % 8 + w + 7) / 8
  at' a (toLe k (putBits (s.peekN a k) (b % 8) w code))

/-- What a value store of given slots of one tile converts (R186): the entries with their codes and scales, the scale bytes
written, and the events. `new` gives an entry its value and rounding, or none to keep its stored value, re-encoded to nearest
even under a recomputed half-row scale. `half` says which half-rows are rewritten (half-row `2·row + h`), and `part` which
entries the store can see: a position that it cannot see is non-structural to it and its slot keeps its bits (R180). A ZERO
tile is left unchanged. -/
def storedCodes (s : State) (t : Tile) (srcFmt : Nat) (half : Nat → Bool) (part : TEnt → Bool)
    (new : TEnt → Option (FVal × Rnd)) : List (TEnt × Nat × Nat) × List (Nat × Nat) × List Ev :=
  let es := t.live.filter part
  if t.tfmt = 0 then ([], [], [])
  else if isBlock t.vfmt then
    let halves := ((List.range 128).filter half).map fun h =>
      let es' := es.filter fun e => 2 * e.row + e.col / 32 == h
      let cv := convBlock t.vfmt (es'.map fun e => (new e).getD (t.value s e, .rne))
      ((es'.zip cv.2.1).map fun p => (p.1, p.2, cv.1), (t.addr + scaleOff t.tfmt t.vfmt t.scount t.masked + h, cv.1), cv.2.2)
    (halves.flatMap (·.1), halves.map (·.2.1), halves.flatMap (·.2.2))
  else
    let xs := es.filterMap fun e => (new e).map fun p => (e, convElem srcFmt t.vfmt p.2 p.1)
    (xs.map fun p => (p.1, p.2.1, 127), [], xs.flatMap fun p => p.2.2)

/-- The byte writes of a value store (R186): the value slots, then the scales. A byte that holds bits of other slots too is written as
`b + 256·k`, which keeps the bits of `k` as they stand when the write lands. -/
def valueStore (t : Tile) (x : List (TEnt × Nat × Nat) × List (Nat × Nat) × List Ev) : List (Nat × Nat) :=
  let w := valBits t.vfmt
  let base := t.addr + valueOff t.tfmt t.vfmt t.scount t.masked
  let vals := x.1.foldl (fun n p => putBits n (w * p.1.slot) w p.2.1) 0
  let mask := x.1.foldl (fun n p => putBits n (w * p.1.slot) w (2 ^ w - 1)) 0
  let touched := insertAll [] (x.1.flatMap fun p =>
    (List.range ((w * p.1.slot + w - 1) / 8 - w * p.1.slot / 8 + 1)).map (w * p.1.slot / 8 + ·))
  touched.map (fun q =>
    (base + q.1, vals / 2 ^ (8 * q.1) % 256 + 256 * (255 - mask / 2 ^ (8 * q.1) % 256))) ++ x.2.1

end Sys2Proof.Machine
end

