-- ==== Sys2Proof/Machine/Records.lean ====
section
/-!
DEFINITION. The parameter block and its records (Tables 10.2, 10.3, 5.3, 7.1, 8.2, 9.2, 9.5, 10.12), handles and views as a
region's cluster sees them, rounding streams, and the faults that end a launch (R117, Table 16.8).
-/

namespace Sys2Proof.Machine

/-- Byte offset of section k (R276). -/
def secOff (p : List Nat) (k : Nat) : Nat := blk p (8 * k) 4
/-- Entries of section k. -/
def secCnt (p : List Nat) (k : Nat) : Nat := blk p (8 * k + 4) 2
/-- Number of stash bindings. -/
def stashCnt (p : List Nat) : Nat := blk p 94 2
/-- Entry size of a section (Table 10.2). -/
def secSize : Nat → Nat
  | 0 => 256 | 7 => 16 | 9 => 16 | 10 => 16 | 11 => 2 | _ => 64
/-- Entry i of section k as a number. -/
def secRec (p : List Nat) (k i : Nat) : Nat := blk p (secOff p k + secSize k * i) (secSize k)
/-- Descriptor i. -/
def descOf (p : List Nat) (i : Nat) : Desc := parseDesc (secRec p 0 i)
/-- Bound handle number i (R277). -/
def boundHandle (p : List Nat) (i : Nat) : Nat := secRec p 11 i
/-- Stash binding i (R269). -/
def stashBinding (p : List Nat) (i : Nat) : Nat := blk p (secOff p 11 + 8 * cdiv (2 * secCnt p 11) 8 + 8 * i) 8

/-- A drain record (Table 5.3). -/
structure DrainRec where
  fmt         : Nat
  rnd         : Bool
  func        : Nat
  stashSel    : Nat
  stashRnd    : Bool
  bias        : Bool
  zmap        : Bool
  stream      : Nat
  stashStream : Nat
  slope       : Nat
  outDesc     : Nat
  biasHandle  : Nat
  zmapHandle  : Nat
  blkOff      : Nat
  stashBlkOff : Nat
  zmapOff     : Nat
  stashEntry  : Nat
  rsvd        : Nat
  deriving DecidableEq, Repr

/-- Drain record i. -/
def drainOf (p : List Nat) (i : Nat) : DrainRec :=
  let n := secRec p 1 i
  { fmt := bitsOf n 3 0, rnd := n.testBit 4, func := bitsOf n 11 8, stashSel := bitsOf n 13 12, stashRnd := n.testBit 14,
    bias := n.testBit 15, zmap := n.testBit 16, stream := bitsOf n 43 32, stashStream := bitsOf n 59 48,
    slope := bitsOf n 95 64, outDesc := bitsOf n 103 96, biasHandle := bitsOf n 113 104, zmapHandle := bitsOf n 123 114,
    blkOff := bitsOf n 191 128, stashBlkOff := bitsOf n 255 192, zmapOff := bitsOf n 282 256,
    stashEntry := bitsOf n 319 288,
    rsvd := bitsOf n 7 5 + bitsOf n 31 17 + bitsOf n 47 44 + bitsOf n 63 60 + bitsOf n 127 124 + bitsOf n 287 283 +
      bitsOf n 511 320 }

/-- A Sieve record (Table 7.1). -/
structure SieveRec where
  wdesc  : Nat
  adesc  : Nat
  tn     : Nat
  trans  : Bool
  zmMode : Nat
  cenEn  : Bool
  budget : Nat
  zmH    : Nat
  cenH   : Nat
  zmOff  : Nat
  cenOff : Nat
  rsvd   : Nat
  deriving DecidableEq, Repr

/-- Sieve record i. -/
def sieveOf (p : List Nat) (i : Nat) : SieveRec :=
  let n := secRec p 2 i
  { wdesc := bitsOf n 7 0, adesc := bitsOf n 15 8, tn := 1 + bitsOf n 16 16, trans := n.testBit 17,
    zmMode := bitsOf n 19 18, cenEn := n.testBit 20, budget := bitsOf n 47 32, zmH := bitsOf n 73 64,
    cenH := bitsOf n 89 80, zmOff := bitsOf n 122 96, cenOff := bitsOf n 154 128,
    rsvd := bitsOf n 31 21 + bitsOf n 63 48 + bitsOf n 79 74 + bitsOf n 95 90 + bitsOf n 127 123 + bitsOf n 511 155 }

/-- A Shears record (Table 8.2). -/
structure ShearsRec where
  op     : Nat
  scope  : Nat
  target : Nat
  src    : Nat
  ncomp  : Nat
  wdesc  : Nat
  gdesc  : Nat
  cdesc  : List Nat
  count  : Nat
  maxcnt : Nat
  thresh : Nat
  init   : List Nat
  stream : Nat
  tfirst : Nat
  tcount : Nat
  blkOff : Nat
  rsvd   : Nat
  deriving DecidableEq, Repr

/-- Shears record i. -/
def shearsOf (p : List Nat) (i : Nat) : ShearsRec :=
  let n := secRec p 3 i
  { op := bitsOf n 2 0, scope := bitsOf n 5 3, target := bitsOf n 7 6, src := bitsOf n 9 8, ncomp := bitsOf n 11 10,
    wdesc := bitsOf n 23 16, gdesc := bitsOf n 31 24, cdesc := [bitsOf n 39 32, bitsOf n 47 40, bitsOf n 55 48],
    count := bitsOf n 76 64, maxcnt := bitsOf n 92 80, thresh := bitsOf n 127 96,
    init := [bitsOf n 159 128, bitsOf n 191 160, bitsOf n 223 192, bitsOf n 255 224],
    stream := bitsOf n 267 256, tfirst := bitsOf n 319 288, tcount := bitsOf n 351 320, blkOff := bitsOf n 447 384,
    rsvd := bitsOf n 15 12 + bitsOf n 63 56 + bitsOf n 79 77 + bitsOf n 95 93 + bitsOf n 287 268 + bitsOf n 383 352 +
      bitsOf n 511 448 }

/-- An SGW record (Table 9.2). -/
structure SgwRec where
  adesc  : Nat
  gdesc  : Nat
  pos    : Nat
  zmMode : Nat
  budget : Nat
  zmH    : Nat
  zmOff  : Nat
  rsvd   : Nat
  deriving DecidableEq, Repr

/-- SGW record i. -/
def sgwOf (p : List Nat) (i : Nat) : SgwRec :=
  let n := secRec p 4 i
  { adesc := bitsOf n 7 0, gdesc := bitsOf n 15 8, pos := bitsOf n 19 16, zmMode := bitsOf n 21 20,
    budget := bitsOf n 47 32, zmH := bitsOf n 73 64, zmOff := bitsOf n 122 96,
    rsvd := bitsOf n 31 22 + bitsOf n 63 48 + bitsOf n 95 74 + bitsOf n 511 123 }

/-- A derivative record (Table 9.5). -/
structure DerivRec where
  dfunc : Nat
  sdesc : Nat
  slope : Nat
  rsvd  : Nat
  deriving DecidableEq, Repr

/-- Derivative record i. -/
def derivOf (p : List Nat) (i : Nat) : DerivRec :=
  let n := secRec p 5 i
  ⟨bitsOf n 3 0, bitsOf n 15 8, bitsOf n 63 32, bitsOf n 7 4 + bitsOf n 31 16 + bitsOf n 511 64⟩

/-- A DMA record (Table 10.12). -/
structure DmaRec where
  src        : Nat
  dst        : Nat
  trans      : Bool
  chan       : Nat
  whole      : Bool
  evtEn      : Bool
  evtCtr     : Nat
  evtRegion  : Nat
  stashEn    : Bool
  stashEntry : Nat
  rsvd       : Nat
  deriving DecidableEq, Repr

/-- DMA record i. -/
def dmaOf (p : List Nat) (i : Nat) : DmaRec :=
  let n := secRec p 6 i
  { src := bitsOf n 7 0, dst := bitsOf n 15 8, trans := n.testBit 16, chan := bitsOf n 17 17, whole := n.testBit 18,
    evtEn := n.testBit 19, evtCtr := bitsOf n 37 32, evtRegion := bitsOf n 42 38, stashEn := n.testBit 64,
    stashEntry := bitsOf n 127 96,
    rsvd := bitsOf n 31 20 + bitsOf n 63 43 + bitsOf n 95 65 + bitsOf n 511 128 }

/-- Whether entry `i` of section `k` exists (R283). -/
def hasRec (p : List Nat) (k i : Nat) : Bool := decide (i < secCnt p k)

/-- A fault of a launch: its completion code (Table 16.8), SQ_FAULT.CODE (Table 10.20), the slot and the cluster of the
region. -/
structure Flt where
  code : Nat
  sq   : Nat
  slot : Nat
  cl   : Nat
  deriving DecidableEq, Repr

/-- SQ_FAULT.CODE of a completion code. -/
def sqCode (code : Nat) : Nat :=
  match code with
  | 0x40 => 7 | 0x4C => 9 | 0x4D => 6 | 0x4E => 5 | 0x4F => 1 | 0x50 => 2 | 0x51 => 3 | 0x52 => 4 | 0x53 => 10 | 0x54 => 10
  | _ => 8

/-- A fault by its completion code. -/
def Flt.of (code slot cl : Nat) : Flt := ⟨code, sqCode code, slot, cl⟩

/-- What an operation answers: the state and, where it faults, the fault. -/
abbrev OpR := State × Option Flt

namespace State

/-- Continues where no fault has come. -/
def thenOp (x : OpR) (f : State → OpR) : OpR :=
  match x.2 with
  | some _ => x
  | none => f x.1

/-- Module-wide cluster `c` of region `r`. -/
def cix (r c : Nat) : Nat := 8 * r + c

/-- Device address of byte 0 of handle `h` for cluster `c` of region `r` (R127, R278). -/
def handleBase (s : State) (r c h : Nat) : Nat :=
  if s.rd (Reg.SP_HT_KIND r h) = 0 then
    spBase + cix r c * spWin + s.rd (Reg.SP_HT_OFFSET r h) + nth (s.seq r).spoff c
  else spBase + s.rd (Reg.SP_HT_CLUSTER r h) * spWin + s.rd (Reg.SP_HT_OFFSET r h)

/-- A descriptor with entry `e` applied, at the addresses that cluster `c` of region `r` uses. -/
def viewOf (s : State) (r c : Nat) (d : Desc) (pl : List Nat) (e : Nat) : View :=
  let d' := d.atEntry pl e
  let b := if d.space = 1 then s.handleBase r c d.handle else 0
  ⟨d', b + d'.base, b + d'.scaleBase, none⟩

/-- The view of descriptor `i` of region `r`'s parameter block. A store with ALIAS_OK = 1 is numbered by its launch and its descriptor (log
183). -/
def view (s : State) (r c i e : Nat) : View :=
  let d := descOf (s.seq r).param i
  let v := s.viewOf r c d (Tbl.get [] (s.seq r).plists i) e
  match (s.seq r).launch with
  | some n => if d.aliasOk then { v with order := some (256 * n + i % 256 + 1, e) } else v
  | none => v

/-- A stream of the launch as rounding uses it: key, counter at launch start, block offset (R62). -/
def streamOf (s : State) (r n b : Nat) : Nat × Nat × Nat :=
  match (s.seq r).ctrs.find? (fun p => p.1 == n) with
  | some p => (p.2.1, p.2.2, b)
  | none => (0, 0, b)

/-- The rounding of stores through descriptor `i` (R277): the stream where its entry has EN = 1. -/
def roundingOf (s : State) (r i : Nat) : Option (Nat × Nat × Nat) :=
  let p := (s.seq r).param
  let n := secRec p 7 i
  if hasRec p 7 i && n.testBit 12 then some (s.streamOf r (bitsOf n 11 0) (bitsOf n 127 64)) else none

/-- Whether descriptor `i` exists and entry `e` lies in its list (R283, R285). -/
def descOk (s : State) (r i e : Nat) : Bool :=
  let p := (s.seq r).param
  hasRec p 0 i && decide (e < (descOf p i).entries)

/-! ### Bank accesses of a region's units (R108, R114, R116) -/

/-- Distinct numbers of a list, ascending. -/
def distinct (l : List Nat) : List Nat := (insertAll [] l).map (·.1)

/-- The units of a cluster's banks among device units, as units of its window. -/
def bankUnits (c : Nat) (us : List Nat) : List Nat :=
  us.filterMap fun u => match place (64 * u) with
    | .sp k o => if k = c then some (o / 64) else none
    | _ => none

/-- Notes the units that cluster `c` (module-wide) accesses in ic `t` of region `r`, for R108, and rebuilds. -/
def wave (s : State) (r c t : Nat) (own : Bool) (rs ws rebuilds : List Nat) : State :=
  if rs.isEmpty && ws.isEmpty && rebuilds.isEmpty then s
  else s.setSeq r { s.seq r with waves := (s.seq r).waves ++ [⟨t, c, own, rs, ws, rebuilds⟩] }

/-- The row checks of a read of device granules (R116, R130): true when some access is uncorrectable, and the (cluster, bank)
pairs in which a data word was rebuilt. HBM granules are read through the home cache, in the ALLOC or the STREAM class
(R329). -/
def checkReadsAs (s : State) (alloc : Bool) (gs : List Nat) : State × Bool × List (Nat × Nat) :=
  gs.foldl (fun (acc : State × Bool × List (Nat × Nat)) g =>
    match place (256 * g) with
    | .sp c o =>
      let x := acc.1.rowAccess c (o / 256) false
      (x.1, acc.2.1 || x.2.1, if x.2.2 = 0 then acc.2.2 else (c, bankOf (o / 256)) :: acc.2.2)
    | .hbm _ _ =>
      let x := acc.1.hbmRead (256 * g) 256 alloc
      (x.1, acc.2.1 || x.2.1 != 0, acc.2.2)
    | _ => acc) (s, false, [])

/-- The checks of a read in the ALLOC class. -/
def checkReads (s : State) (gs : List Nat) : State × Bool × List (Nat × Nat) := s.checkReadsAs true gs

/-- Notes rebuilds met in ic `t` in the banks of the clusters of region `r` (R114). -/
def noteRebuilds (s : State) (r t : Nat) (l : List (Nat × Nat)) : State :=
  (l.filter fun p => p.1 / 8 == r).foldl (fun u p => u.wave r p.1 t true [] [] [p.2]) s

/-- Notes rebuilds that an access from outside meets, each in the current ic of its bank's region where a launch runs (R114). -/
def noteFar (s : State) (l : List (Nat × Nat)) : State :=
  l.foldl (fun u p => if (u.seq (p.1 / 8)).launch.isSome then u.wave (p.1 / 8) p.1 (u.seq (p.1 / 8)).ic true [] [] [p.2] else u) s

/-- The row checks of writes of bytes at device addresses in scratchpad, granule by granule (R116): one access that covers all 256
bytes of a granule needs none. The granules whose access is uncorrectable, and the rebuilds. -/
def checkWrites (s : State) (ws : List (Nat × Nat)) : State × List Nat × List (Nat × Nat) :=
  let as := insertAll [] (ws.map (·.1))
  let gs := insertAll [] (as.map fun p => p.1 / 256)
  gs.foldl (fun (acc : State × List Nat × List (Nat × Nat)) g =>
    match place (256 * g.1) with
    | .sp c o =>
      let whole := (as.filter fun p => p.1 / 256 == g.1).length == 256
      let x := acc.1.rowAccess c (o / 256) whole
      (x.1, if x.2.1 then g.1 :: acc.2.1 else acc.2.1, if x.2.2 = 0 then acc.2.2 else (c, bankOf (o / 256)) :: acc.2.2)
    | _ => acc) (s, [], [])

/-- The writes that no uncorrectable granule turns away. -/
def keepGood (bad : List Nat) (ws : List (Nat × Nat)) : List (Nat × Nat) :=
  ws.filter fun p => !bad.contains (p.1 / 256)

/-- Work put among a region's pending acts, in order of ic, rank, cluster and issue (R109). -/
def insPend (x : Pend) : List Pend → List Pend
  | [] => [x]
  | y :: l =>
    if y.due < x.due ∨ (y.due = x.due ∧ (y.rank < x.rank ∨ (y.rank = x.rank ∧ y.cl ≤ x.cl))) then y :: insPend x l
    else x :: y :: l

/-- An operation of region `r` whose result ic is `t` (R282, R300). -/
def untilIc (s : State) (r t : Nat) : State :=
  let q := s.seq r
  s.setSeq r { q with last := max q.last t }

/-- Work that acts later. -/
def pend (s : State) (r due rank c : Nat) (a : Act) : State :=
  let q := s.seq r
  s.setSeq r { q with pend := insPend ⟨due, rank, c, a⟩ q.pend, last := max q.last due }

/-- Where a byte of cluster `c` (module-wide) goes: its own banks or window, or a remote place, by its key (R130): a cluster,
or 256 + stack. -/
def destOf (a : Nat) : Nat :=
  match place a with
  | .sp k _ => k
  | .acc k _ _ _ _ => k
  | .hbm k _ => 256 + k
  | .hole k => 256 + k
  | _ => 1000

/-- Whether cluster `k` (module-wide) reaches a 64-byte unit only through the fabric (R130): another cluster's bank or window, or HBM. -/
def farUnit (k u : Nat) : Bool := let d := destOf (64 * u); d != k && decide (d < 268)

/-- Stage 4 (R113) finds an access of ic `t` uncorrectable: the launch faults in ic t + 3 (R117), and what has issued goes on. -/
def ue (s : State) (r c t slot : Nat) : State := s.pend r (t + 3) 11 c (.ue slot (s.seq r).cur)

/-- A read wave of the unit of slot `slot` (Table 10.5) of cluster `c` of region `r` in ic `t`: the rows checked, the accesses noted
for R108 and their rebuilds for R114, and an uncorrectable one left to stage 4. -/
def readWave (s : State) (r c t slot : Nat) (us : List Nat) : State :=
  let x := s.checkReads (distinct (us.map (· / 4)))
  let s1 := (x.1.wave r (cix r c) t (slot == 3) (bankUnits (cix r c) us) [] []).noteRebuilds r t x.2.2
  if x.2.1 then s1.ue r c t slot else s1

/-- The bytes of 64-byte device units as they stand, put among those of fetch `fid` of region `r`. -/
def take (s : State) (r fid : Nat) (us : List Nat) : State :=
  let q := s.seq r
  let bs := us.flatMap fun u => at' (64 * u) (s.peeks (64 * u) 64)
  s.setSeq r { q with bufs := Tbl.set [] q.bufs fid (Tbl.get [] q.bufs fid ++ bs) }

/-- The state as fetch `fid` of region `r` saw it: its bytes in place of those that stand now. -/
def seen (s : State) (r fid : Nat) : State := s.pokes (Tbl.get [] (s.seq r).bufs fid)

/-- Fetch `fid` is over. -/
def dropFetch (s : State) (r fid : Nat) : State :=
  let q := s.seq r
  s.setSeq r { q with bufs := Tbl.set [] q.bufs fid [], asks := Tbl.set [] q.asks fid [] }

/-- A fetch of device units by the unit of slot `slot`: wave j of `waves` is presented to the cluster's own banks and window in ic
t + j (R110), the other units go out as remote reads (R130), and the work `a` is done in ic `due`, or once the last remote byte has
come. -/
def fetch (s : State) (r c t slot : Nat) (waves : List (List Nat)) (due rank : Nat) (a : Nat → Act) : State :=
  let k := cix r c
  let fid := s.wid
  let s1 := (waves.zipIdx).foldl (fun (z : State) w =>
    let us := w.1.filter fun u => !farUnit k u
    if us.isEmpty then z else z.pend r (t + w.2) 0 c (.capture slot fid us)) ({ s with wid := s.wid + 1 } : State)
  let far := distinct (waves.flatMap fun w => w.filter (farUnit k))
  let s2 := far.foldl (fun (z : State) u =>
    { z with remotes := z.remotes ++ [⟨z.wid, r, k, destOf (64 * u), u, some fid, none, []⟩], wid := z.wid + 1 }) s1
  if far.isEmpty then s2.pend r due rank c (a fid)
  else
    let q := s2.seq r
    s2.setSeq r { q with asks := Tbl.set [] q.asks fid [⟨due, rank, c, a fid⟩], last := max q.last due }

/-- Writes gathered by the 64-byte unit that they fall in. -/
def pieces (ws : List (Nat × Nat)) : List (List (Nat × Nat)) :=
  (distinct (ws.map fun p => p.1 / 64)).map fun u => ws.filter fun p => p.1 / 64 == u

/-- Writes put on their way to other clusters or to HBM, 64 bytes an access (R130, R301). -/
def sendRemote (s : State) (r via : Nat) (accFmt : Option Nat) (ws : List (Nat × Nat)) : State :=
  (pieces ws).foldl (fun t l =>
    let a := nth (l.map (·.1)) 0
    { t with remotes := t.remotes ++ [⟨t.wid, r, via, destOf a, a / 64, none, accFmt, l⟩], wid := t.wid + 1 }) s

/-- Writes of a unit of cluster `c` of region `r` that issue in ic `due`: its own part waits for its turn in that ic; the rest leaves
at 64 bytes an ic from there (R301). `accFmt` names the element format of an accumulating store. -/
def writeAt (s : State) (r c due rank : Nat) (accFmt : Option Nat) (ws : List (Nat × Nat)) : State :=
  let k := cix r c
  let act := fun l => match accFmt with
    | none => Act.bytes l
    | some f => .accum f l
  let own := ws.filter fun p => !farUnit k (p.1 / 64)
  let s1 := if own.isEmpty then s else s.pend r due rank c (act own)
  ((pieces (ws.filter fun p => farUnit k (p.1 / 64))).zipIdx).foldl (fun z l => z.pend r (due + l.2) rank c (act l.1)) s1

/-- A byte written over `old`: a value `b + 256·k` keeps the bits of `k`. -/
def mergeByte (old v : Nat) : Nat := (v % 256 &&& (255 - v / 256 % 256)) ||| (old &&& v / 256 % 256)

/-- Writes with their kept bits taken from memory as it stands. -/
def settle (s : State) (ws : List (Nat × Nat)) : List (Nat × Nat) :=
  ws.map fun p => if p.2 < 256 then p else (p.1, mergeByte (s.peek p.1) p.2)

/-- Whether a tile of the region is in use in ic `t` by another operation (R148). -/
def tileInUse (s : State) (c m k t : Nat) : Bool :=
  decide (t < (s.tile c m k).doneAt) || decide (t < (s.tile c m k).freeAt)

/-- Whether a device address lies in an accumulator window. -/
def inWindow (a : Nat) : Bool := match place a with | .acc _ _ _ _ _ => true | _ => false

/-- The window units that a row of `n` columns from `c0` of a view takes; none outside the windows. -/
def windowRow (v : View) (row c0 n : Nat) : List Nat :=
  if v.d.layout = 1 ∨ !inWindow v.base ∨ !isBody v.d row c0 then []
  else unitsOf (elemPlace v (v.d.idx row c0)).1 (elemBytes v.d.fmt * min n (v.d.ext 0 - c0))

/-- The accumulator tiles of region `r` that device addresses lie in. -/
def windowTiles (r : Nat) (as : List Nat) : List (Nat × Nat × Nat) :=
  ((as.filterMap fun a => match place a with
    | .acc k m tl _ _ => if k / 8 = r then some (k, m, tl) else none
    | _ => none)).eraseDups

/-- The first tile of the region's own window accesses that is in use (R148). -/
def windowBusy (s : State) (r t : Nat) (as : List Nat) : Option (Nat × Nat × Nat) :=
  (windowTiles r as).find? fun p => s.tileInUse p.1 p.2.1 p.2.2 t

/-! ### Unit faults -/

/-- A fault of an MU met by the operation of slot `slot`: its register and the fault (R148, R149). -/
def muFaultIn (s : State) (r c m code tile slot t : Nat) : OpR :=
  let k := cix r c
  (s.wrs [(Reg.MU_FAULT_CODE k m, code), (Reg.MU_FAULT_TILE k m, tile), (Reg.MU_FAULT_IC k m, t % 2 ^ 24)],
    some (Flt.of (0x40 + code) slot c))

/-- A fault of an MU met by an operation of the MU slot. For MU_SLOT_BUSY the register's TILE names the slot, 0 A0, 1 A1, 2 B0, 3 B1, and
slot SA when it is the array that is busy (DESIGN CHOICE, log 169). -/
def muFault (s : State) (r c m code tile t : Nat) : OpR := s.muFaultIn r c m code tile 0 t

/-- The 512-byte rows of MU `m`'s window in cluster `k` among device units. -/
def portRows (k m : Nat) (us : List Nat) : List Nat :=
  distinct (us.filterMap fun u => match place (64 * u) with
    | .acc c mu _ _ _ => if c = k ∧ mu = m then some (u / 8) else none
    | _ => none)

/-- The ic that window accesses of cluster `k` take at their accumulator ports, one row an ic and MU (R147). -/
def portSpan (k : Nat) (us : List Nat) : Nat := (List.range 4).foldl (fun n m => max n (portRows k m us).length) 0

/-- The accumulator ports of cluster `c` taken from ic `from'` on for the window accesses of an operation of slot `slot` that issues in
ic `t` (R147): MU_ACC_BUSY where a port still serves an earlier access (the code is a DESIGN CHOICE, log 170). -/
def portUse (s : State) (r c t from' slot : Nat) (us : List Nat) : OpR :=
  let k := cix r c
  (List.range 4).foldl (fun (z : OpR) m =>
    match z.2, portRows k m us with
    | some _, _ => z
    | none, [] => z
    | none, u :: l =>
      let n := l.length + 1
      let x := z.1.muOf k m
      if x.port.any fun p => decide (p.1 < from' + n ∧ from' < p.2) then
        z.1.muFaultIn r c m 1 (match place (512 * u) with | .acc _ _ tl _ _ => tl | _ => 0) slot t
      else (z.1.setMu k m { x with port := (from', from' + n) :: x.port.filter fun p => decide (t < p.2) }, none)) (s, none)

/-- Window accesses that an operation of slot `slot`, issued in ic `t`, makes from ic `from'` on (R147, R148): MU_ACC_BUSY where a tile of
the region is in use. -/
def useWindow (s : State) (r c t from' slot : Nat) (us : List Nat) : OpR :=
  match s.windowBusy r t (us.map (64 * ·)) with
  | some p => s.muFaultIn r (p.1 % 8) p.2.1 1 p.2.2 slot t
  | none => s.portUse r c t from' slot us

/-- A fault of the Sieve: `code` of SV_FAULT (Table 7.6). -/
def svFault (s : State) (r c m code slot t : Nat) : OpR :=
  let k := cix r c
  (s.wrs [(Reg.SV_FAULT_CODE k, code), (Reg.SV_FAULT_MU k, m), (Reg.SV_FAULT_IC k, t % 2 ^ 24)],
    some (Flt.of (0x42 + code) slot c))

/-- A fault of Shears: `code` of SH_FAULT (Table 8.7). -/
def shFault (s : State) (r c code slot t : Nat) : OpR :=
  let k := cix r c
  (s.wrs [(Reg.SH_FAULT_CODE k, code), (Reg.SH_FAULT_IC k, t % 2 ^ 24)], some (Flt.of (0x47 + code) slot c))

/-- A fault with no unit register. -/
def opFault (s : State) (code slot c : Nat) : OpR := (s, some (Flt.of code slot c))

end State
end Sys2Proof.Machine
end

