-- ==== Sys2Proof/Machine/Mu.lean ====
section
/-!
DEFINITION. Matrix units (spec/05): operand loads, the chain of R136 to R139, MMA, RAKE, the issue of a DRAIN, ACC.ZERO.
-/

namespace Sys2Proof.Machine

/-- Pieces of `n` elements of a list. -/
def chunks {α : Type} (n : Nat) (l : List α) : Nat → List (List α)
  | 0 => []
  | k + 1 => l.take n :: chunks n (l.drop n) k

/-- Rows and columns of a 64-wide matrix exchanged. -/
def transposeMat (m : List (List FVal)) : List (List FVal) :=
  (List.range 64).map fun j => m.map fun row => row.getD j .zero

/-- The values of a slot part as the array sees them (R135). -/
def SlotPart.mat (p : SlotPart) : List (List FVal) :=
  let m := chunks 64 (p.vals.map fun v => decodeFmt p.fmt v.1 v.2) p.rows
  if p.trans then transposeMat m else m

/-- One addition of a chain (R136, R137, R44): the accumulator's code and the counts of ACC_FTZ and ACC_OVF. A zero product of
finite factors and a flushed product add nothing. -/
def chainStep (acc : Nat × Nat × Nat) (a b : FVal) : Nat × Nat × Nat :=
  let p := a.mul b
  if a.isFinite && b.isFinite && p.isZero then acc
  else
    let x := roundAcc p
    if x.2.contains .accFtz then (acc.1, acc.2.1 + 1, acc.2.2)
    else
      let y := accSum (decodeAcc acc.1) (decodeAcc x.1)
      (y.1, acc.2.1 + b2n (y.2.contains .accFtz), acc.2.2 + b2n (x.2.contains .accOvf) + b2n (y.2.contains .accOvf))

/-- A chain over pairs in order. -/
def chainRun (acc : Nat × Nat × Nat) : List (FVal × FVal) → Nat × Nat × Nat
  | [] => acc
  | p :: l => chainRun (chainStep acc p.1 p.2) l

/-- A chain over pairs in ascending k, in three passes when an operand is FP32 (R138, R56). The other operand of such a product is split
into BF16 parts in the same way when it is no FP32 itself, and the product of the two low parts is left out for it too (DESIGN CHOICE,
log 171). -/
def chain (acc : Nat × Nat × Nat) (three : Bool) (ps : List (FVal × FVal)) : Nat × Nat × Nat :=
  if three then
    let sp := ps.map fun p => (split3 p.1, split3 p.2)
    let a1 := chainRun acc (sp.map fun p => (p.1.1, p.2.1))
    let a2 := chainRun a1 (sp.map fun p => (p.1.1, p.2.2))
    chainRun a2 (sp.map fun p => (p.1.2, p.2.1))
  else chainRun acc ps

/-- k per ic of a format (Table 5.1); FP32 counts 0. -/
def kRate : Nat → Nat
  | 0 => 0 | 1 => 1 | 2 => 1 | 8 => 4 | _ => 2

/-- The rate of the slower of two formats; 0 when either is FP32 (R134). -/
def pairRate (f g : Nat) : Nat := min (kRate f) (kRate g)

/-- MMA occupancy (Table 5.1). -/
def mmaOcc (f g : Nat) : Nat := if pairRate f g = 0 then 192 else 64 / pairRate f g

namespace State

/-- Index register k; IX0 reads 0 (R285). -/
def ixv (s : State) (r k : Nat) : Nat := if k = 0 then 0 else nth (s.seq r).ix k

/-- The contraction dimension of a load (R286). -/
def contraction (isB trans qen : Bool) : Nat := if qen then 1 else if isB == trans then 0 else 1

/-- The codes that a load takes, with the 64-byte units that it reads (R135, R192, R243, R286). -/
def slotTileOf (s : State) (r c : Nat) (isB trans qen : Bool) (i e rt ct : Nat) : List (Nat × Nat) × List Nat :=
  let unit := if qen then 32 else 64
  loadTile s (s.view r c i e) (some (contraction isB trans qen)) (unit * rt) (64 * ct) unit 64

/-- What LDA and LDB issued in ic `t0` put in their slot, from the bytes that `d` shows (R135, R192, R243). -/
def loadTake (s d : State) (r c t0 : Nat) (isB : Bool) (mu slot : Nat) (trans qen : Bool) (q i e rt ct : Nat) : State :=
  let k := (if isB then 2 else 0) + slot
  let ds := (s.view r c i e).d
  let cd := contraction isB trans qen
  let void := (List.range ds.rank).any fun j => j != cd && ds.ext j == 0
  let part := if qen then q else if q = 2 then 1 else 0
  let x := s.muOf (cix r c) mu
  let cleared := if !qen && q == 0 then [1, 2, 3].foldl (fun u j => Tbl.set SlotPart.empty u (4 * k + j) SlotPart.empty) x.slots
    else x.slots
  let slots := Tbl.set SlotPart.empty cleared (4 * k + part)
    ⟨ds.fmt, if qen then 32 else 64, trans, (d.slotTileOf r c isB trans qen i e rt ct).1, t0 + 8, void⟩
  s.setMu (cix r c) mu { x with slots := slots }

/-- LDA and LDB (R135, R192, R243, R286, R287) in one cluster. What comes from outside the cluster fills the slot when it comes (R130);
the slot is usable from t + 8 in any case, with what it then holds (DESIGN CHOICE, log 21). -/
def loadSlot (s : State) (r c t : Nat) (isB : Bool) (mu slot : Nat) (trans qen : Bool) (q i e rt ct : Nat) : OpR :=
  let d := descOf (s.seq r).param i
  if !s.descOk r i e then s.opFault 0x50 0 c
  else if d.layout = 1 ∨ d.fmt = 14 ∨ d.fmt = 15 ∨ (!qen ∧ q ≠ 0 ∧ d.fmt = 0) then s.opFault 0x50 0 c
  else
    let k := (if isB then 2 else 0) + slot
    let x := s.muOf (cix r c) mu
    if t < Tbl.get 0 x.slotBusy k then s.muFault r c mu 2 k t
    else
      let us := (s.slotTileOf r c isB trans qen i e rt ct).2
      match s.useWindow r c t t 0 us with
      | (s1, some f) => (s1, some f)
      | (s1, none) =>
        if us.any (farUnit (cix r c)) then
          let z := s1.muOf (cix r c) mu
          let part := 4 * k + (if qen then q else if q = 2 then 1 else 0)
          let s2 := s1.setMu (cix r c) mu { z with
            slots := Tbl.set SlotPart.empty z.slots part { Tbl.get SlotPart.empty z.slots part with ready := t + 8 } }
          ((s2.fetch r c t 0 [us] t 0 fun fid => .takeMu fid t (.load isB mu slot trans qen q i e rt ct)).untilIc r (t + 8), none)
        else (((s1.readWave r c t 0 us).loadTake s1 r c t isB mu slot trans qen q i e rt ct).untilIc r (t + 8), none)

/-- A part of an operand slot; slot numbers 0 A0, 1 A1, 2 B0, 3 B1. -/
def part (x : Mu) (slot sub : Nat) : SlotPart := Tbl.get SlotPart.empty x.slots (4 * slot + sub)

/-- The long-chain flag and count of R143, when a tile's count of terms goes from `old` to `cnt` and so comes to exceed 65,536. -/
def noteChain (s : State) (k m tile old cnt : Nat) : State :=
  if old ≤ 65536 ∧ 65536 < cnt then
    (s.wr (Reg.MU_CHAIN_STAT_LONG k m) (putBits (s.rd (Reg.MU_CHAIN_STAT_LONG k m)) tile 1 1)).inc
      (Reg.MU_CHAIN_STAT_LONG_CNT k m) 1
  else s

/-- Counts of ACC_FTZ, ACC_OVF and busy ic of an MU (R163). -/
def noteMu (s : State) (k m ftz ovf busy : Nat) : State :=
  ((s.inc (Reg.MU_FTZ_CNT_COUNT k m) ftz).inc (Reg.MU_OVF_CNT_COUNT k m) ovf).inc48 (Reg.MU_BUSY_LO_COUNT k m)
    (Reg.MU_BUSY_HI_COUNT k m) busy

/-- Whether a product may write tile `tile` in ic `t` (R148): complete, or open to an accumulate operation, and free. -/
def tileOpen (s : State) (k m tile t : Nat) (acc : Bool) : Bool :=
  let x := s.tile k m tile
  decide ((if acc then x.accAt else x.doneAt) ≤ t) && decide (x.freeAt ≤ t)

/-- The words of a 64×64 tile computed element by element, with the events summed. -/
def tileWords (old : Tbl Nat) (f : Nat → Nat → Nat → Nat × Nat × Nat) : Tbl Nat × Nat × Nat :=
  let l := (List.range 4096).map fun n => (n, f (n / 64) (n % 64) (Tbl.get 0 old n))
  (l.filterMap (fun p => if p.2.1 = 0 then none else some (p.1, p.2.1)),
    (l.map (·.2.2.1)).foldl (· + ·) 0, (l.map (·.2.2.2)).foldl (· + ·) 0)

/-- MMA (R134 to R139, Table 5.2) in one cluster. It reads part 0 of each slot: the whole tile, or half 0 or quarter 0 of a slot that was
filled in parts (DESIGN CHOICE, log 172). Where an extent of an operand other than the contraction's is zero, the tile keeps its words
(R98). -/
def mma (s : State) (r c t mu tile sa sb : Nat) (acc : Bool) : OpR :=
  let k := cix r c
  let x := s.muOf k mu
  let a := part x sa 0
  let b := part x (2 + sb) 0
  if t < x.array then s.muFault r c mu 2 sa t
  else if !s.tileOpen k mu tile t acc then s.muFault r c mu 1 tile t
  else if t < a.ready then s.muFault r c mu 2 sa t
  else if t < b.ready then s.muFault r c mu 2 (2 + sb) t
  else
    let occ := mmaOcc a.fmt b.fmt
    let am := a.mat
    let bt := transposeMat b.mat
    let old := s.tile k mu tile
    let void := a.void || b.void
    let w := if void then (old.vals, 0, 0) else tileWords old.vals fun i j v =>
      chain (if acc then v else 0, 0, 0) (occ == 192) ((am.getD i []).zip (bt.getD j []))
    let terms := if occ = 192 then 192 else 64
    let cnt := if void then old.cnt else if acc then old.cnt + terms else terms
    let s1 := (s.setTile k mu tile ⟨w.1, cnt, t + occ + 6, t + occ, old.freeAt, if void then old.sgw else none⟩).noteChain k mu tile
      (if acc || void then old.cnt else 0) cnt
    let s2 := s1.noteMu k mu w.2.1 w.2.2 occ
    let x2 := s2.muOf k mu
    ((s2.setMu k mu { x2 with array := t + occ,
                              slotBusy := Tbl.set 0 (Tbl.set 0 x2.slotBusy sa (t + occ)) (2 + sb) (t + occ) }).untilIc r (t + occ + 6), none)

/-- RAKE from MU m to MU m + 1 (R140, Table 5.2) in one cluster. -/
def rake (s : State) (r c t mu tile tile2 : Nat) : OpR :=
  let k := cix r c
  if t < (s.muOf k mu).rake then s.muFault r c mu 1 tile t
  else if t < (s.muOf k (mu + 1)).rake then s.muFault r c (mu + 1) 1 tile2 t
  else if s.tileInUse k mu tile t then s.muFault r c mu 1 tile t
  else if s.tileInUse k (mu + 1) tile2 t then s.muFault r c (mu + 1) 1 tile2 t
  else
    let src := s.tile k mu tile
    let s1 := (s.setTile k (mu + 1) tile2 { src with doneAt := t + 72, accAt := t + 72, freeAt := t + 72 }).noteChain k
      (mu + 1) tile2 0 src.cnt
    let s2 := s1.setTile k mu tile { src with freeAt := t + 64 }
    let s3 := s2.setMu k mu { s2.muOf k mu with rake := t + 64 }
    ((s3.setMu k (mu + 1) { s3.muOf k (mu + 1) with rake := t + 64 }).untilIc r (t + 72), none)

/-- ACC.ZERO (Table 5.2) in one cluster. -/
def accZero (s : State) (r c t mu tile : Nat) : OpR :=
  let k := cix r c
  if s.tileInUse k mu tile t then s.muFault r c mu 1 tile t
  else ((s.setTile k mu tile { AccTile.zero with doneAt := t + 1, accAt := t + 1 }).untilIc r (t + 1), none)

end State
end Sys2Proof.Machine
end

