-- ==== Sys2Proof/Machine/Stash.lean ====
section
/-!
DEFINITION. The stash directory and stash writer (spec/09, R262 to R268, R585): entries, pool tops, tile writes row by row,
and the units of a region's share.
-/

namespace Sys2Proof.Machine

/-- The stash format paired with a live format (Table 2.6). -/
def stashFmt : Nat → Nat
  | 0 => 1 | 1 => 5 | 2 => 5 | 3 => 6 | 4 => 6 | 5 => 6 | _ => 8

/-- Row stride RB of an image (R264). -/
def imgRB (sfmt cols : Nat) : Nat :=
  64 * cdiv (if isBlock sfmt then cdiv cols 32 * blockBytes sfmt else cols * elemBytes sfmt) 64
/-- Scale row stride SB, 0 for formats without scales. -/
def imgSB (sfmt cols : Nat) : Nat := if isBlock sfmt then 64 * cdiv (cdiv cols 32) 64 else 0
/-- Image size in 64-byte units (R264). -/
def imgSize (sfmt rows cols maps : Nat) : Nat :=
  (rows * (imgRB sfmt cols + imgSB sfmt cols) + 512 * maps * cdiv rows 64 * cdiv cols 64) / 64

/-- The image of an entry as an element-layout view (R264). -/
def imgView (sfmt rows cols base : Nat) : View :=
  let dim0 : Dim := ⟨cols, cols, 0, 0, 0, 0, 0, 0, 0⟩
  let dim1 : Dim := ⟨rows, rows, imgRB sfmt cols, 0, 0, 0, 0, imgSB sfmt cols, 0⟩
  let d : Desc := { raw := 0, fmt := sfmt, rank := 2, space := 0, smode := 0, aliasOk := false, padOvr := false,
                    plistEn := false, layout := 0, vdimEn := false, vdim := 0, handle := 0, pad := 0, base := base,
                    scaleBase := base + rows * imgRB sfmt cols, plistAddr := 0, plistCnt := 0,
                    dims := [dim0, dim1, parseDim 0, parseDim 0, parseDim 0, parseDim 0] }
  ⟨d, base, base + rows * imgRB sfmt cols, none⟩

namespace State

/-- The pool top of R262 as the entries give it. -/
def poolTop (s : State) (d k : Nat) : Nat :=
  (List.range 1024).foldl (fun m e =>
    let st := s.rd (Reg.STD_ENT_STATE d e)
    let b := s.rd (Reg.STD_ENT_BASE d e)
    if s.rd (Reg.STD_ENT_STACK d e) = k ∧ (st = 1 ∨ st = 2 ∨ (st = 3 ∧ b ≠ 0)) then
      max m (b + 64 * s.rd (Reg.STD_ENT_SIZE d e))
    else m) (s.rd (Reg.STD_POOL_BASE_ADDR d k))

/-- STD_POOL_TOP brought up to date. -/
def setPoolTop (s : State) (d k : Nat) : State := s.wr (Reg.STD_POOL_TOP_ADDR d k) (s.poolTop d k)

/-- An entry made NOT_STASHED with a reason (R265); an image at BASE = 0 then no longer counts for the pool top (R262). -/
def notStashed (s : State) (d e reason : Nat) : State :=
  ((s.wrs [(Reg.STD_ENT_STATE d e, 3), (Reg.STD_ENT_REASON d e, reason)]).inc (Reg.STD_NOT_STASHED_COUNT d) 1).setPoolTop d
    (s.rd (Reg.STD_ENT_STACK d e))

/-- A refusal logged (STD_REFUSE_LOG). -/
def stashLog (s : State) (d e reason region : Nat) : State :=
  s.logPush 4 (fun n => [Reg.STD_REFUSE_LOG_ENTRY d n, Reg.STD_REFUSE_LOG_REASON d n, Reg.STD_REFUSE_LOG_REGION d n,
    Reg.STD_REFUSE_LOG_VALID d n]) [e, reason, region, 1]

/-- Units of a region's share in use (R267). -/
def stashUsed (s : State) (r : Nat) : Nat :=
  ((Tbl.get [] s.stashq (r / 8)).filter fun x => x.region == r).length

/-- Whether a row handed to the stash writer would take a unit (R265, R267). -/
def stashTakes (s : State) (d e m jt row : Nat) : Bool :=
  s.rd (Reg.STD_ENT_STATE d e) == 1 && decide (64 * m + row < s.rd (Reg.STD_ENT_ROWS d e)) &&
    decide (64 * jt < s.rd (Reg.STD_ENT_COLS d e))

/-- The counts of the events of a stash conversion (R585). -/
def stashEvents (s : State) (d : Nat) (evs : List Ev) : State :=
  evs.foldl (fun t e => match e with
    | .sat => t.inc (Reg.STD_CVT_SAT_COUNT d) 1
    | .uflow => t.inc (Reg.STD_CVT_UFLOW_COUNT d) 1
    | .nanBlock => t.inc (Reg.STD_CVT_NANBLK_COUNT d) 1
    | _ => t) s

/-- Row `row` of tile (m, jt) handed to the stash writer of die `d` by region `r` (R265, R266, R267), through the DMA channel `chan`
(0 for a drain). The tile write is judged and counted at its row 0. `vals` are the row's codes with scales and their rounding, none
where a column is not written. A block format stashed in itself is a block copy (R46). The events of the conversion go with the row
and count when it is written (R585). -/
def stashRow (s : State) (r chan e m jt row srcFmt : Nat) (vals : List (Option ((Nat × Nat) × Rnd))) : State :=
  let d := r / 8
  let st := s.rd (Reg.STD_ENT_STATE d e)
  let rows := s.rd (Reg.STD_ENT_ROWS d e)
  let cols := s.rd (Reg.STD_ENT_COLS d e)
  if st = 1 then
    if cdiv rows 64 ≤ m ∨ cdiv cols 64 ≤ jt then
      (((s.notStashed d e 2).inc (Reg.STD_REFUSED_COUNT d) 1).stashLog d e 2 (r % 8))
    else
      let s1 := if row = 0 then s.inc (Reg.STD_ENT_TILES d e) 1 else s
      if rows ≤ 64 * m + row then s1
      else
        let sfmt := s.rd (Reg.STD_ENT_SFMT d e)
        let v := imgView sfmt rows cols (s.rd (Reg.STD_ENT_BASE d e))
        let part := vals.take (cols - 64 * jt)
        let x := if isBlock srcFmt ∧ srcFmt = sfmt then
            (storeCodes v (64 * m + row) (64 * jt) (part.map fun y => y.map (·.1)), [])
          else
            let y := storeRow v (64 * m + row) (64 * jt) srcFmt (part.map fun z => z.map fun c =>
              (decodeFmt srcFmt c.1.1 c.1.2, c.2))
            (y.1, y.2.2)
        let row' : StashRow := ⟨s1.wid, r, e, x.1, x.2, chan⟩
        { s1 with stashq := Tbl.set [] s1.stashq d (Tbl.get [] s1.stashq d ++ [row']), wid := s1.wid + 1 }
  else if row = 0 then (s.inc (Reg.STD_REFUSED_COUNT d) 1).stashLog d e 5 (r % 8)
  else s

/-- The zero map of tile (m, jt) stashed with an image of MAPS = 1 (R264). -/
def stashMap (s : State) (r e m jt map : Nat) : State :=
  let d := r / 8
  let rows := s.rd (Reg.STD_ENT_ROWS d e)
  let cols := s.rd (Reg.STD_ENT_COLS d e)
  let sfmt := s.rd (Reg.STD_ENT_SFMT d e)
  if s.rd (Reg.STD_ENT_STATE d e) = 1 ∧ s.rd (Reg.STD_ENT_MAPS d e) = 1 ∧ m < cdiv rows 64 ∧ jt < cdiv cols 64 then
    let a := s.rd (Reg.STD_ENT_BASE d e) + rows * (imgRB sfmt cols + imgSB sfmt cols) + 512 * (m * cdiv cols 64 + jt)
    let row' : StashRow := ⟨s.wid, r, e, at' a (toLe 512 map), [], 0⟩
    { s with stashq := Tbl.set [] s.stashq d (Tbl.get [] s.stashq d ++ [row']), wid := s.wid + 1 }
  else s

end State
end Sys2Proof.Machine
end

