-- ==== Sys2Proof/Machine/Drain.lean ====
section
/-!
DEFINITION. The drain (R152 to R158, R248, R249, R255 to R258): its issue and the treatment of each row.
-/

namespace Sys2Proof.Machine

/-- The drain functions (Table 5.4) on an FP32 code: the result and its events. -/
def drainFunc (func slope x : Nat) : Nat × List Ev :=
  let v := f32 x
  let pos := FVal.lt .zero v
  match func with
  | 1 => if v.isNan then toF32 .nan else if pos then (x, []) else (0, [])
  | 2 => if v.isNan then toF32 .nan else if pos then (x, []) else toF32 ((f32 slope).mul v)
  | 3 => vtr 5 v
  | 4 => vtr 4 v
  | 5 => vtr 6 v
  | 6 => vtr 7 v
  | 7 => vtr 8 v
  | _ => if v.isNan then toF32 .nan else (x, [])

/-- `1 - x` rounded (Table 9.6). -/
def oneMinus (x : Nat) : Nat × List Ev := toF32 (FVal.one.add (f32 x).neg)
/-- A product rounded. -/
def mulF (a b : Nat) : Nat × List Ev := toF32 ((f32 a).mul (f32 b))

/-- The derivative f′ of Table 9.6 at a saved FP32 code. -/
def derivVal (dfunc slope s : Nat) : Nat × List Ev :=
  let one := (toF32 FVal.one).1
  let pos := FVal.lt .zero (f32 s)
  match dfunc with
  | 0 => (one, [])
  | 1 => (if pos then one else 0, [])
  | 2 => (if pos then one else slope, [])
  | 3 =>
    let u := oneMinus s
    let f := mulF s u.1
    (f.1, u.2 ++ f.2)
  | 4 =>
    let u := mulF s s
    let f := oneMinus u.1
    (f.1, u.2 ++ f.2)
  | 5 => vtr 9 (f32 s)
  | 6 =>
    let g := vtr 5 (f32 s)
    let a := oneMinus g.1
    let b := mulF s a.1
    let c := toF32 (FVal.one.add (f32 b.1))
    let f := mulF g.1 c.1
    (f.1, g.2 ++ a.2 ++ b.2 ++ c.2 ++ f.2)
  | _ => vtr 5 (f32 s)

/-- One element of a drained row: the pre-activation, the value to convert, and the events of stages 2 to 4 (R153). -/
def drainElem (dr : DrainRec) (bias acc : Nat) : Nat × Nat × List Ev :=
  let x := toF32 (decodeAcc acc)
  let y := if dr.bias then toF32 ((f32 x.1).add (f32 bias)) else (x.1, [])
  let z := drainFunc dr.func dr.slope y.1
  (y.1, z.1, x.2 ++ y.2 ++ z.2)

/-- One element of a drain with a derivative record (R255): the saved code widened to FP32, and dz. -/
def derivElem (dv : DerivRec) (saved acc : Nat) : Nat × List Ev :=
  let x := toF32 (decodeAcc acc)
  let f := derivVal dv.dfunc dv.slope saved
  if (f32 f.1).isNan then ((toF32 .nan).1, x.2 ++ f.2)
  else if (f32 f.1).isZero then (0, x.2 ++ f.2)
  else
    let z := mulF x.1 f.1
    (z.1, x.2 ++ f.2 ++ z.2)

namespace State

/-- The events of a drain counted in an MU's registers (R158). -/
def muEvents (s : State) (k m : Nat) (evs : List Ev) : State :=
  evs.foldl (fun t e => match e with
    | .sat => t.inc (Reg.MU_SAT_CNT_COUNT k m) 1
    | .infClamp => t.inc (Reg.MU_INFCLAMP_CNT_COUNT k m) 1
    | .nanBlock => t.inc (Reg.MU_NANBLK_CNT_COUNT k m) 1
    | .uflow => t.inc (Reg.MU_UFLOW_CNT_COUNT k m) 1
    | _ => t) s

/-- The body columns among 64 from column tile `ct`. -/
def bodyCols (d : Desc) (ct : Nat) : List Nat :=
  if d.isZeroExt then [] else (List.range 64).filter fun c => decide (64 * ct + c < d.ext 0)

/-- Bytes that a store of tile (rt, ct) writes. -/
def tileStoreBytes (s : State) (v : View) (rt ct : Nat) : Nat :=
  if v.d.layout = 1 then
    match bodyTile s v rt ct with
    | some t => cdiv (t.scount * valBits t.vfmt) 8
    | none => 0
  else
    let rows := ((List.range 64).filter fun r => isBody v.d (64 * rt + r) (64 * ct)).length
    let cols := min 64 (v.d.ext 0 - 64 * ct)
    rows * (if isBlock v.d.fmt then cdiv cols 32 * (blockBytes v.d.fmt + 1) else cols * elemBytes v.d.fmt)

/-- The occupancy of an operation whose store goes outside its cluster (R301). -/
def outOcc (s : State) (r c base occ : Nat) (v : View) (rt ct : Nat) : Nat :=
  if destOf base = cix r c then occ else max occ (cdiv (s.tileStoreBytes v rt ct) 64)

/-- Whether a tile lies wholly outside the run-time extents of a drain's output (R315). -/
def outside (s : State) (v : View) (rt ct : Nat) : Bool :=
  if v.d.layout = 1 then (bodyTile s v rt ct).isNone
  else !((List.range 64).any fun q => isBody v.d (64 * rt + q) (64 * ct))

/-- What the record and the output of an entry-mode drain must be (R248). -/
def entryMode (dr : DrainRec) (d : Desc) : Bool :=
  dr.func == 0 && !dr.bias && dr.stashSel == 0 && !dr.zmap &&
    (d.layout == 1 && decide (d.fmt < 2) ||
      d.layout == 0 && d.fmt == 14 && d.ext 0 == 64 && d.ext 1 == 64 && (List.range (d.rank - 2)).all fun j => d.ext (j + 2) == 1)

/-- The row tile number that maps and stash images count (R156, R266, R580). -/
def rowTile (d : Desc) (e rt : Nat) : Nat := e * cdiv d.spanRows 64 + rt

/-- Where the map of tile (rt, ct) of a drain record stands (R156). -/
def mapPlace (s : State) (r c : Nat) (dr : DrainRec) (d : Desc) (e rt ct : Nat) : Nat :=
  s.handleBase r c dr.zmapHandle + dr.zmapOff + 512 * (rowTile d e rt * cdiv (d.span 0) 64 + ct)

/-- Where the bias of column `j` of column tile `ct` stands (R153). -/
def biasPlace (s : State) (r c : Nat) (dr : DrainRec) (ct j : Nat) : Nat := s.handleBase r c dr.biasHandle + 4 * (64 * ct + j)

/-- The bias codes of a column tile as `d` shows them, 0 outside the body. -/
def biasCodes (s d : State) (r c i e ct : Nat) : List Nat :=
  let dr := drainOf (s.seq r).param i
  let cols := bodyCols (s.view r c dr.outDesc e).d ct
  (List.range 64).map fun j => if cols.contains j then d.peekN (s.biasPlace r c dr ct j) 4 else 0

/-- Codes kept for a drain, under its number or a fetch's. -/
def keepCodes (s : State) (r n : Nat) (l : List Nat) : State :=
  let q := s.seq r
  s.setSeq r { q with biases := Tbl.set [] q.biases n l }

/-- The bias of a drain read in ic `t`, in one wave (R153); the drain's number is that of `s.wid`. A bias outside the cluster comes as
remote reads, and the rows that need it wait for it. -/
def readBias (s : State) (r c t i e ct : Nat) (us : List Nat) : State :=
  let num := s.wid
  let s0 : State := { s with wid := s.wid + 1 }
  if us.isEmpty then s0
  else if us.any (farUnit (cix r c)) then s.fetch r c t 0 [us] t 0 fun fid => .takeBias fid i e 0 ct
  else (s0.readWave r c t 0 us).keepCodes r num (biasCodes s s r c i e ct)

/-- The rows and the map of an accepted drain (R153, R258, R301): rows issue evenly over the occupancy (DESIGN CHOICE, log 173). A tile
wholly outside the output, or an output some extent of which is zero, takes its time and nothing else (R98, R315). -/
def drainGo (s : State) (r c t mu tile i : Nat) (drec : Option Nat) (e rt ct : Nat) (v : View) : OpR :=
  let k := cix r c
  let dr := drainOf (s.seq r).param i
  let idle := v.d.isZeroExt || s.outside v rt ct
  let occ := if idle then 64 else s.outOcc r c v.base 64 v rt ct
  let late := if drec.isSome then 14 else 8
  let bias := if idle || !dr.bias then [] else distinct ((bodyCols v.d ct).map fun j => s.biasPlace r c dr ct j / 64)
  let outs := if idle then [] else (List.range 64).flatMap fun q => windowRow v (64 * rt + q) (64 * ct) 64
  let saved := match idle, drec with
    | false, some j =>
      let w := s.view r c (derivOf (s.seq r).param j).sdesc e
      (List.range 64).flatMap fun q => windowRow w (64 * rt + q) (64 * ct) 64
    | _, _ => []
  let maps := if idle || !dr.zmap then [] else unitsOf (s.mapPlace r c dr v.d e rt ct) 512
  match s.windowBusy r t ((bias ++ outs ++ saved ++ maps).map (64 * ·)) with
  | some w => s.muFault r (w.1 % 8) w.2.1 1 w.2.2 t
  | none =>
    thenOp (thenOp (thenOp (thenOp (s.portUse r c t t 0 bias) fun u => u.portUse r c t t 0 saved)
      fun u => u.portUse r c t (t + late) 0 outs) fun u => u.portUse r c t (t + occ + late) 0 maps) fun u =>
      let num := u.wid
      let s0 := u.readBias r c t i e ct bias
      let s1 := (if idle then [] else List.range 64).foldl (fun z q =>
        z.pend r (t + q * occ / 64) 0 c (.drainRow num mu tile i drec e rt ct q)) s0
      let s2 := if dr.zmap && !idle then
        s1.pend r (t + occ + late) (1 + mu) c (.drainMap num mu tile i e rt ct (2 ^ 4096 - 1)) else s1
      let s3 := s2.setTile k mu tile { s2.tile k mu tile with freeAt := t + occ }
      let s4 := s3.setMu k mu { s3.muOf k mu with drain := t + occ }
      (s4.untilIc r (t + occ + 7 + late + b2n dr.zmap), none)

/-- The issue of a DRAIN in one cluster (R153, R248, R249, R258, Tables 5.2 and 9.3). An entry-mode drain that R248 does not allow, and
that launch validation could not see, is an illegal record (DESIGN CHOICE, log 26). -/
def drain (s : State) (r c t mu tile i : Nat) (den : Bool) (drec e rt ct : Nat) : OpR :=
  let k := cix r c
  let p := (s.seq r).param
  let dr := drainOf p i
  if !hasRec p 1 i || (den && !hasRec p 5 drec) || !s.descOk r dr.outDesc e || (den && !s.descOk r (derivOf p drec).sdesc e) then
    s.opFault 0x50 0 c
  else if t < (s.muOf k mu).drain then s.muFault r c mu 1 tile t
  else if s.tileInUse k mu tile t then s.muFault r c mu 1 tile t
  else
    let v := s.view r c dr.outDesc e
    match (s.tile k mu tile).sgw with
    | some tag =>
      if den || !entryMode dr v.d then s.opFault 0x50 0 c
      else match (if v.d.layout = 1 then bodyTile s v rt ct else none) with
        | some x => if x.tag ≠ tag ∨ x.bad then s.opFault 0x4C 0 c else s.drainGo r c t mu tile i none e rt ct v
        | none => s.drainGo r c t mu tile i none e rt ct v
    | none => s.drainGo r c t mu tile i (if den then some drec else none) e rt ct v

/-- Bits of the map of a drain in progress cleared (R156). -/
def clearMap (s : State) (r num row : Nat) (live : List Nat) : State :=
  let q := s.seq r
  let f := fun (x : Pend) => match x.act with
    | .drainMap n m t j e rt ct map =>
      if n = num then
        { x with act := .drainMap n m t j e rt ct (live.foldl (fun a col => putBits a (64 * row + col) 1 0) map) }
      else x
    | _ => x
  s.setSeq r { q with pend := q.pend.map f }

/-- Stages 2 to 6 of row `row` of a drain (R153, R258): `acc` are the accumulator codes of the row, `d` shows the saved row's bytes,
`bias` are the column biases, and the writes issue in ic `due`. -/
def drainRowGo (s d : State) (r c due num mu i : Nat) (drec : Option Nat) (e rt ct row : Nat) (entry : Bool) (acc bias : List Nat) :
    State :=
  let k := cix r c
  let p := (s.seq r).param
  let dr := drainOf p i
  let v := s.view r c dr.outDesc e
  let rr := 64 * rt + row
  let str := if dr.rnd then some (s.streamOf r dr.stream dr.blkOff) else none
  let rn := fun (rw col : Nat) => rndOf str (elemIndex v.d e (64 * rt + rw) (64 * ct + col))
  let stash := fun (z : State) (fmt : Nat) (sv : List (Option (Nat × Nat))) =>
    if dr.stashSel = 0 then z else z.pend r due (1 + mu) c (.stash i (dr.stashEntry + e) e rt ct row fmt sv)
  let body := fun j => isBody v.d rr (64 * ct + j)
  if v.d.layout = 0 ∧ dr.fmt = 14 then
    let codes := (List.range 64).map fun j => if body j then some (nth acc j, 127) else none
    if v.d.smode = 1 then s.writeAt r c due (1 + mu) (some 14) (accumRow v rr (64 * ct) codes)
    else s.writeAt r c due (1 + mu) none (storeCodes v rr (64 * ct) codes)
  else
    let el : List (Nat × Nat × List Ev) := match drec with
      | none => (List.range 64).map fun j => drainElem dr (nth bias j) (nth acc j)
      | some x =>
        let w := s.view r c (derivOf p x).sdesc e
        ((loadTile d w none rr (64 * ct) 1 64).1.zipIdx).map fun q =>
          let sv := convElem w.d.fmt 0 .rne (decodeFmt w.d.fmt q.1.1 q.1.2)
          let z := derivElem (derivOf p x) sv.1 (nth acc q.2)
          (0, z.1, sv.2 ++ z.2)
    let elem := fun j => el.getD j (0, 0, [])
    if v.d.layout = 1 then
      match bodyTile s v rt ct with
      | none => s
      | some bt =>
        if bt.bad then stash s 0 []
        else
          let win := window v.d rt ct
          let cell := fun (x : TEnt) => if entry then
              let z := toF32 (decodeAcc (nth acc (x.slot % 64))); (0, z.1, z.2)
            else elem x.col
          let new := fun (x : TEnt) =>
            if entry then
              (if x.slot / 64 = row ∧ x.slot < bt.scount then some (f32 (cell x).2.1, rn x.row x.col) else none)
            else if x.row = row ∧ x.row < win.1 ∧ x.col < win.2 then some (f32 (cell x).2.1, rn x.row x.col) else none
          let evs := bt.live.flatMap fun x => if (new x).isNone then [] else (cell x).2.2
          let w := storedCodes s bt 0 (fun h => decide (h / 2 = row ∧ row < win.1 ∧ 32 * (h % 2) < win.2))
            (fun x => entry || decide (x.row < win.1 ∧ x.col < win.2)) new
          let live := (w.1.filter fun q => (new q.1).isSome && !(decodeFmt bt.vfmt q.2.1 q.2.2).isZero).map (·.1.col)
          let sv := (List.range 64).map fun j => if dr.stashSel = 1 then
              (w.1.find? fun q => q.1.row == row && q.1.col == j).map fun q => q.2
            else (bt.live.find? fun x => x.row == row && x.col == j && (new x).isSome).map fun _ => ((elem j).1, 127)
          let s1 := ((s.muEvents k mu (evs ++ w.2.2)).writeAt r c due (1 + mu) none (valueStore bt w)).clearMap r num row live
          stash s1 (if dr.stashSel = 1 then bt.vfmt else 0) sv
    else
      let vals := (el.zipIdx).map fun q => if body q.2 then some (f32 q.1.2.1, rn row q.2) else none
      let st := storeRow v rr (64 * ct) 0 vals
      let evs := (el.zipIdx).flatMap fun q => if body q.2 then q.1.2.2 else []
      let s1 := s.muEvents k mu (evs ++ st.2.2)
      let live := (st.2.1.zipIdx).filterMap fun q => match q.1 with
        | some x => if (decodeFmt dr.fmt x.1 x.2).isZero then none else some q.2
        | none => none
      let s2 := if v.d.smode = 1 then s1.writeAt r c due (1 + mu) (some dr.fmt) (accumRow v rr (64 * ct) st.2.1)
        else s1.writeAt r c due (1 + mu) none st.1
      let s3 := if dr.zmap then s2.clearMap r num row live else s2
      let sv := if dr.stashSel = 1 then st.2.1
        else (el.zipIdx).map fun q => if body q.2 then some (q.1.1, 127) else none
      stash s3 (if dr.stashSel = 1 then dr.fmt else 0) sv

/-- Stage 1 of row `row` of a drain in ic `t` (R153, R258): it reads the accumulator row and the saved row. A row whose bias or saved
row has not come from outside the cluster waits for it. -/
def drainRow (s : State) (r c t num mu tile i : Nat) (drec : Option Nat) (e rt ct row : Nat) : State :=
  let k := cix r c
  let q := s.seq r
  let tl := s.tile k mu tile
  let acc := (List.range 64).map fun j => Tbl.get 0 tl.vals (64 * row + j)
  let us := match drec with
    | none => []
    | some j => (loadTile s (s.view r c (derivOf q.param j).sdesc e) none (64 * rt + row) (64 * ct) 1 64).2
  let wait := fun (dr : Nat) (fid : Nat) => Act.takeRow fid num mu tile i dr e rt ct row
  match drec with
  | some j =>
    if us.any (farUnit k) then
      (s.keepCodes r s.wid acc).fetch r c t 0 [us] (t + 8) 0 fun fid => wait (j + 1) fid
    else (s.readWave r c t 0 us).drainRowGo s r c (t + 14) num mu i drec e rt ct row tl.sgw.isSome acc []
  | none =>
    if (Tbl.get [] q.asks num).isEmpty then
      s.drainRowGo s r c (t + 8) num mu i none e rt ct row tl.sgw.isSome acc (Tbl.get [] q.biases num)
    else
      let s1 := ({ s with wid := s.wid + 1 } : State).keepCodes r s.wid acc
      let q1 := s1.seq r
      s1.setSeq r { q1 with asks := Tbl.set [] q1.asks num (Tbl.get [] q1.asks num ++ [⟨t + 2, 0, c, wait 0 s.wid⟩]) }

/-- A drain's row that waited goes on in ic `t`: `drec` is 0 for a row that waited for its bias, and otherwise 1 more than its derivative
record. -/
def takeRow (s : State) (r c t fid num mu i drec e rt ct row : Nat) : State :=
  let acc := Tbl.get [] (s.seq r).biases fid
  let x := s.drainRowGo (s.seen r fid) r c (t + 6) num mu i (if drec = 0 then none else some (drec - 1)) e rt ct row false acc
    (Tbl.get [] (s.seq r).biases num)
  (x.dropFetch r fid).keepCodes r fid []

/-- A drain's bias has come. -/
def takeBias (s : State) (r c fid i e ct : Nat) : State :=
  let codes := biasCodes s (s.seen r fid) r c i e ct
  (s.dropFetch r fid).keepCodes r fid codes

/-- The zero map of a drained tile written (R156) and stashed (R264), once no row of the drain waits. -/
def drainMap (s : State) (r c t num mu tile i e rt ct map : Nat) : State :=
  let dr := drainOf (s.seq r).param i
  let waits := fun (p : Pend) => match p.act with | .takeRow _ n _ _ _ _ _ _ _ _ => n == num | _ => false
  if (s.seq r).pend.any waits || (s.seq r).asks.any fun a => a.2.any waits then
    s.pend r (t + 1) (1 + mu) c (.drainMap num mu tile i e rt ct map)
  else
    let s1 := s.writeAt r c t (1 + mu) none (at' (s.mapPlace r c dr (s.view r c dr.outDesc e).d e rt ct) (toLe 512 map))
    if dr.stashSel = 0 then s1 else s1.stashMap r (dr.stashEntry + e) rt ct map

end State
end Sys2Proof.Machine
end

