-- ==== Sys2Proof/Machine/Sieve.lean ====
section
/-!
DEFINITION. The Sieve (spec/07) and the sampled weight-gradient product (R243 to R247): page builds, zero maps, the bit
transposer, SMMA and SGW with their occupancy, budgets, holds and census.
-/

namespace Sys2Proof.Machine

/-- Cost of a wave: the most granules that fall in one bank (R112). -/
def waveCost (gs : List Nat) : Nat :=
  let t : Tbl Nat := gs.foldl (fun t g => Tbl.set 0 t (bankOf g) (Tbl.get 0 t (bankOf g) + 1)) []
  t.foldl (fun m p => max m p.2) 0

/-- Granules split into waves in which no bank has two (R112): element j of the answer is the wave of ic t + j. -/
def splitWaves (gs : List Nat) : List (List Nat) :=
  let x := gs.foldl (fun (acc : Tbl Nat × List (Nat × Nat)) g =>
    let n := Tbl.get 0 acc.1 (bankOf g)
    (Tbl.set 0 acc.1 (bankOf g) (n + 1), acc.2 ++ [(n, g)])) ([], [])
  (List.range (waveCost gs)).map fun j => (x.2.filter fun p => p.1 == j).map (·.2)

/-- `match_cycles` of R205: the pairs of each of the 64 columns and the rate P. -/
def matchCycles (l : List Nat) (p : Nat) : Nat :=
  let lane := fun q => (List.range 16).map fun i => nth l (4 * i + q)
  let stepLane := fun (left : List Nat) => (left.foldl (fun (acc : List Nat × Nat) n =>
    let take := min (min n p) acc.2
    (acc.1 ++ [n - take], acc.2 - take)) (([] : List Nat), 32)).1
  let rec go (fuel : Nat) (left : List Nat) (t : Nat) : Nat :=
    match fuel with
    | 0 => t
    | k + 1 => if left.any (fun n => decide (0 < n)) then go k (stepLane left) (t + 1) else t
  ((List.range 4).map fun q => go ((lane q).foldl (· + ·) 1) (lane q) 0).foldl max 0

/-- Data occupancy of an SMMA (R206) for `tn` tiles at rate `p`, 0 for FP32. -/
def smmaOcc (l : List Nat) (tn p : Nat) : Nat :=
  if p = 0 then 3 * max (8 * tn) (matchCycles l 1) else max (8 * tn / p) (matchCycles l p)

/-- Whether every token bit of column k of a map is set (R196). -/
def deadCol (map k : Nat) : Bool := (List.range 64).all fun i => map.testBit (64 * i + k)

/-- The bits of a 64×64 matrix exchanged (R288). -/
def transposeBits (m : Nat) : Nat :=
  (setBits m 4096).foldl (fun n b => n + 2 ^ (64 * (b % 64) + b / 64)) 0

namespace State

/-- A drop of the page build logged and counted (R198). -/
def pageDrop (s : State) (k mu row col kind : Nat) : State :=
  let s1 := if kind = 3 then (s.inc (Reg.SV_TILE_MALFORMED_COUNT k) 1).wr (Reg.SV_STAT_TILE k) 1
    else (s.inc (Reg.SV_IDX_DROPPED_COUNT k) 1).wr (Reg.SV_STAT_IDX k) 1
  s1.logPush 4 (fun n => [Reg.SV_DROP_LOG_ROW k n, Reg.SV_DROP_LOG_COL k n, Reg.SV_DROP_LOG_MU k n,
    Reg.SV_DROP_LOG_KIND k n, Reg.SV_DROP_LOG_VALID k n]) [row, col, mu, kind, 1]

/-- The drops that a build finds in ic `t`, in storage order, up to one that faults the launch (R198, R199). -/
def pageDrops (s : State) (r c t mu : Nat) : List (Nat × Nat × Nat) → OpR
  | [] => (s, none)
  | d :: l =>
    let k := cix r c
    let s1 := s.pageDrop k mu d.1 d.2.1 d.2.2
    if d.2.2 = 3 ∧ s.on (Reg.SV_FAULT_EN_TILE k) then s1.svFault r c mu 2 2 t
    else if d.2.2 ≠ 3 ∧ s.on (Reg.SV_FAULT_EN_IDX k) then s1.svFault r c mu 1 2 t
    else pageDrops s1 r c t mu l

/-- The entries of a page from a tile (R198, R200): presented positions with their slots and values, and the drops as (stored
row, stored column, kind). A non-structural position of a DENSE tile has slot 4096. -/
def buildPage (s : State) (bt : Tile) (trans : Bool) (win : Nat × Nat) : List PageEntry × List (Nat × Nat × Nat) :=
  let pres := fun (r c : Nat) => if trans then (c, r) else (r, c)
  let mk := fun (e : TEnt) => let p := pres e.row e.col
    (⟨p.1, p.2, e.slot, e.row, e.col, bt.code s e.slot, bt.scale s e.row e.col⟩ : PageEntry)
  if bt.tfmt = 1 then
    let structural : Tbl Unit := insertAll [] (bt.ents.map fun e => 64 * e.row + e.col)
    let has := fun n => (Tbl.get none (structural.map fun p => (p.1, some p.2)) n).isSome
    ((List.range 4096).filterMap fun n =>
      if n / 64 < win.1 ∧ n % 64 < win.2 then
        some (if has n then mk ⟨n / 64, n % 64, n, false⟩
          else let p := pres (n / 64) (n % 64); ⟨p.1, p.2, 4096, n / 64, n % 64, 0, 127⟩)
      else none, [])
  else
    (bt.ents.filterMap fun e => if e.row < win.1 ∧ e.col < win.2 ∧ !e.dup then some (mk e) else none,
      bt.ents.filterMap fun e =>
        if ¬(e.row < win.1 ∧ e.col < win.2) then some (e.row, e.col, 2)
        else if e.dup then some (e.row, e.col, 1) else none)

/-- The device unit that holds the directory entry of tile (tr, tc) (R164). -/
def dirUnit (s : State) (v : View) (tr tc : Nat) : Nat :=
  (v.base + 64 + 8 * ((v.d.org 1 / 64 + tr) * (arrHeader s v.base).2.1 + (v.d.org 0 / 64 + tc))) / 64

/-- The ic that the insert ports take for a page (R211): I is the largest number of entries that one lane receives, 1024 for a DENSE
tile. -/
def insertIcs (dense : Bool) (es : List PageEntry) : Nat :=
  let lanes := (List.range 4).map fun q => (es.filter fun en => en.j % 4 == q).length
  max 1 (cdiv (if dense then 1024 else lanes.foldl max 0) 32)

/-- Whether a tile is DENSE and well-formed. -/
def denseTile : Option Tile → Bool
  | some x => x.tfmt == 1 && !x.bad
  | none => false

/-- The page that a build makes of a tile (R198, R200), and its drops. -/
def pageOfTile (s : State) (bt : Option Tile) (trans : Bool) (win : Nat × Nat) : List PageEntry × List (Nat × Nat × Nat) :=
  match bt with
  | some x => if x.bad then ([], [(0, 0, 3)]) else s.buildPage x trans win
  | none => ([], [])

/-- The build of an SV.LOAD takes its record as `d` shows it in ic `t`, its last read wave (R198, R201): the page's entries, and the drops
at the ic in which the build finds them (R199). -/
def svLoadTake (s d : State) (r c t mu half u i e tr tc : Nat) : State :=
  let k := cix r c
  let sr := sieveOf (s.seq r).param i
  let v := s.view r c sr.wdesc e
  let bt := bodyTile d v tr tc
  let pd := d.pageOfTile bt sr.trans (window v.d tr tc)
  let bad := match bt with | some x => x.bad | none => false
  let tag := match bt with | some x => if x.bad then Tile.zero.tag else x.tag | none => Tile.zero.tag
  let x := s.muOf k mu
  let pg := Tbl.get Page.empty x.pages (2 * half + u)
  let pg' : Page := { pg with built := true, dense := denseTile bt, fmt := v.d.fmt, entries := pd.1, tag := tag }
  let s1 := s.setMu k mu { x with pages := Tbl.set Page.empty x.pages (2 * half + u) pg' }
  if pd.2.isEmpty then s1
  else s1.pend r (max t (pg.ready - insertIcs (denseTile bt) pd.1 - (if bad then 2 else 0))) 6 c (.drops mu pd.2)

/-- SV.LOAD (R198 to R201, R211, R212) in one cluster. Its position is ready once its time has come; the record's waves are read from ic t
on. -/
def svLoad (s : State) (r c t mu half u i e tr tc : Nat) : OpR :=
  let k := cix r c
  let sr := sieveOf (s.seq r).param i
  if !hasRec (s.seq r).param 2 i || !s.descOk r sr.wdesc e then s.opFault 0x50 2 c
  else
    let v := s.view r c sr.wdesc e
    let bt := bodyTile s v tr tc
    let us := match bt with
      | some x => x.units
      | none => []
    let dir := if bt.isSome then [s.dirUnit v tr tc] else []
    let gs := distinct ((bankUnits k us).map (· / 4))
    let w := waveCost gs
    let x := s.muOf k mu
    let ready := t + 9 + w + insertIcs (denseTile bt) (s.pageOfTile bt sr.trans (window v.d tr tc)).1
    if t < Tbl.get 0 x.halfBusy half then s.svFault r c mu 3 2 t
    else if t + 9 + w < x.insert then s.svFault r c mu 3 2 t
    else if (s.clu k).mask.contains (t + 9 + w) then s.svFault r c mu 3 2 t
    else thenOp (s.useWindow r c t t 2 (dir ++ us)) fun s0 =>
      let waves := (splitWaves gs).map fun l => us.filter fun z => l.contains (z % (spWin / 64) / 4)
      let y := s0.muOf k mu
      let s1 := s0.setMu k mu { y with
        pages := Tbl.set Page.empty y.pages (2 * half + u) ⟨true, denseTile bt, v.d.fmt, [], Tile.zero.tag, ready⟩, insert := ready }
      let cl := s1.clu k
      let s2 := s1.setClu k { cl with mask := (t + 9 + w) :: cl.mask.filter fun m => decide (t ≤ m) }
      let take := fun fid => Act.takeSv fid t (.load mu half u i e tr tc)
      let rest := us.filter fun z => (bankUnits k [z]).isEmpty
      ((match waves with
        | [] => s2.fetch r c t 2 [dir ++ us] t 0 take
        | w0 :: ws => s2.fetch r c t 2 ((dir ++ rest ++ w0) :: ws) (t + ws.length) 0 take).untilIc r ready, none)

/-- The map of SV.ZMAP has come (R204). -/
def svZmapTake (s d : State) (r c mu u reg a : Nat) : State :=
  let k := cix r c
  let x := s.muOf k mu
  let z := Tbl.get ZMap.empty x.zmaps (2 * reg + u)
  let z' : ZMap := { z with bits := some (d.peekN a 512) }
  s.setMu k mu { x with zmaps := Tbl.set ZMap.empty x.zmaps (2 * reg + u) z' }

/-- The descriptor and the map address that an SV.ZMAP names (R204, R247). -/
def zmapOf (s : State) (r c : Nat) (kind : Bool) (i e m kt : Nat) : Nat × Nat :=
  let p := (s.seq r).param
  let src := if kind then ((sgwOf p i).gdesc, (sgwOf p i).zmH, (sgwOf p i).zmOff)
    else ((sieveOf p i).adesc, (sieveOf p i).zmH, (sieveOf p i).zmOff)
  let d := (s.view r c src.1 e).d
  (src.1, s.handleBase r c src.2.1 + src.2.2 + 512 * (rowTile d e m * cdiv (d.span 0) 64 + kt))

/-- SV.ZMAP (R204, R211, R212) in one cluster. A register whose operand has a zero extent reads nothing and takes a map of ones (R98; the ones
are a DESIGN CHOICE, log 174). -/
def svZmap (s : State) (r c t mu u reg : Nat) (kind : Bool) (i e m kt : Nat) : OpR :=
  let k := cix r c
  let src := s.zmapOf r c kind i e m kt
  let z := Tbl.get ZMap.empty (s.muOf k mu).zmaps (2 * reg + u)
  if !hasRec (s.seq r).param (if kind then 4 else 2) i || !s.descOk r src.1 e then s.opFault 0x50 2 c
  else if t < z.busy then s.svFault r c mu 3 2 t
  else
    let void := (s.view r c src.1 e).d.isZeroExt
    let us := if void then [] else unitsOf src.2 512
    thenOp (s.useWindow r c t t 2 us) fun s0 =>
      let x := s0.muOf k mu
      let z' : ZMap := ⟨some (if void then 2 ^ 4096 - 1 else z.bits.getD 0), t + 10, 0⟩
      let s1 := (s0.setMu k mu { x with zmaps := Tbl.set ZMap.empty x.zmaps (2 * reg + u) z' }).untilIc r (t + 10)
      if void then (s1, none)
      else if us.any (farUnit k) then
        (s1.fetch r c t 2 [us] t 0 fun fid => .takeSv fid t (.zmap mu u reg kind i e m kt), none)
      else ((s1.readWave r c t 2 us).svZmapTake s1 r c mu u reg src.2, none)

/-- The bit matrix of SV.TRANSPOSE as `d` shows it, exchanged and written from ic `due` on (R288, R301). -/
def svTransposeTake (s d : State) (r c due i i2 e row row2 : Nat) : State :=
  let v := s.view r c i e
  let w := s.view r c i2 e
  let m := transposeBits (ofLe ((loadTile d v none row 0 1 128).1.flatMap fun q => toLe 4 q.1))
  let words := (List.range 128).map fun j =>
    if isBody w.d row2 j then some (bitsOf m (32 * j + 31) (32 * j), 127) else none
  s.writeAt r c due 6 (if w.d.smode = 1 then some 15 else none)
    (if w.d.smode = 1 then accumRow w row2 0 words else storeCodes w row2 0 words)

/-- SV.TRANSPOSE (R211, R288, R301) in one cluster. With a zero extent it moves nothing (R98). The mask path is used in ic t + 8 (DESIGN
CHOICE, log 35). -/
def svTranspose (s : State) (r c t i i2 e row row2 : Nat) : OpR :=
  let k := cix r c
  let p := (s.seq r).param
  let good := fun j => let d := descOf p j; d.space == 1 && d.fmt == 15 && d.layout == 0
  if !s.descOk r i e || !s.descOk r i2 e || !good i || !good i2 then s.opFault 0x50 2 c
  else
    let v := s.view r c i e
    let w := s.view r c i2 e
    let void := v.d.isZeroExt || w.d.isZeroExt
    let n := if !void && farUnit k (w.base / 64) then 8 else 1
    if v.d.ext 0 ≠ 128 ∨ w.d.ext 0 ≠ 128 then s.opFault 0x50 2 c
    else if (List.range n).any fun j => (s.clu k).mask.contains (t + 8 + j) then s.svFault r c 0 3 2 t
    else
      let us := if void then [] else (loadTile s v none row 0 1 128).2
      thenOp (thenOp (s.useWindow r c t t 2 (us ++ windowRow w row2 0 128)) fun u => u.portUse r c t (t + 9) 2 (windowRow w row2 0 128))
        fun s0 =>
        let cl := s0.clu k
        let s1 := (s0.setClu k { cl with
          mask := (List.range n).map (t + 8 + ·) ++ cl.mask.filter fun z => decide (t ≤ z) }).untilIc r (t + 16 + n)
        if void then (s1, none)
        else if us.any (farUnit k) then
          (s1.fetch r c t 2 [us] t 0 fun fid => .takeSv fid t (.transpose i i2 e row row2), none)
        else ((s1.readWave r c t 2 us).svTransposeTake s1 r c (t + 9) i i2 e row row2, none)

/-- A Sieve operation issued in ic `t0` goes on in ic `t` with the bytes of fetch `fid`. -/
def takeSv (s : State) (r c t fid : Nat) (op : SvOp) : State :=
  let d := s.seen r fid
  let s1 := s.dropFetch r fid
  match op with
  | .load mu half u i e tr tc => s1.svLoadTake d r c t mu half u i e tr tc
  | .zmap mu u reg kind i e m kt => s1.svZmapTake d r c mu u reg (s.zmapOf r c kind i e m kt).2
  | .transpose i i2 e row row2 => s1.svTransposeTake d r c (t + 9) i i2 e row row2
  | .nop => s1

/-- A resource table with entries busy until `t`. -/
def busyUntil (t : Nat) (b : Tbl Nat) (ks : List Nat) : Tbl Nat := ks.foldl (fun u k => Tbl.set 0 u k t) b

/-- The zero map that position `u` of register `reg` holds, 0 when none applies. -/
def zbits (x : Mu) (reg u : Nat) : Nat := ((Tbl.get ZMap.empty x.zmaps (2 * reg + u)).bits).getD 0

/-- Both positions of a zero-map register in use until `t` (R212). -/
def zmapsBusy (x : Mu) (reg t : Nat) : Tbl ZMap :=
  [0, 1].foldl (fun z u => Tbl.set ZMap.empty z (2 * reg + u) { Tbl.get ZMap.empty z (2 * reg + u) with busy := t }) x.zmaps

/-- The pairs that the Sieve delivers to column j from a page, as (k, weight), ascending k (R194 to R197): `dead` names skipped
activation columns. -/
def pagePairs (pg : Page) (dead : Nat → Bool) (j : Nat) : List (Nat × FVal) :=
  let es := (pg.entries.filter fun e => e.j == j && (pg.dense || !dead e.k)).map
    fun e => (e.k, decodeFmt pg.fmt e.code e.sc)
  es.mergeSort fun a b => decide (a.1 ≤ b.1)

/-- The periods until the page positions `ps` and the zero maps `zs` of an MU are ready, seen from ic `t` (R208). -/
def readyIn (x : Mu) (t : Nat) (ps zs : List Nat) : Nat :=
  (ps.map (fun p => (Tbl.get Page.empty x.pages p).ready - t) ++ zs.map fun z => (Tbl.get ZMap.empty x.zmaps z).ready - t).foldl max 0

/-- The page positions and zero-map positions that a product uses (R191, R196, R243, R244). -/
def productNeeds (p : List Nat) : MuOp → List Nat × List Nat
  | .smma _ _ sa half _ i =>
    let us := List.range (sieveOf p i).tn
    (us.map (2 * half + ·), if (sieveOf p i).zmMode = 0 then [] else us.map (2 * sa + ·))
  | .sgw _ _ sb _ _ i => (setBits (sgwOf p i).pos 4, if (sgwOf p i).zmMode = 2 then [2 * sb] else [])
  | _ => ([], [])

/-- The look-ups of a product of occupancy `o` issued in ic `t` with budget `b`, of which `ahead` periods of a hold have passed already
(R207, R209). -/
def startLooks (s : State) (r k mu t b o ahead : Nat) : State :=
  let q := s.seq r
  s.setSeq r { q with looks := q.looks ++ [⟨t + b, k, mu, o - b - ahead, decide (b < o)⟩] }

/-- The product of an SMMA issued in ic `t` whose page and maps are ready (R191 to R197, R205, R206, R210): `ahead` as for
`startLooks`. -/
def smmaRun (s : State) (r c t ahead mu tile sa half : Nat) (acc : Bool) (i : Nat) : State :=
  let k := cix r c
  let sr := sieveOf (s.seq r).param i
  let x := s.muOf k mu
  let us := List.range sr.tn
  let pg := fun u => Tbl.get Page.empty x.pages (2 * half + u)
  let rate := pairRate (part x sa 0).fmt (pg 0).fmt
  let dead := fun u kk => sr.zmMode != 0 && deadCol (zbits x sa u) kk
  let cols := (List.range 64).map fun j => us.flatMap fun u => (pagePairs (pg u) (dead u) j).map fun q => (u, q.1, q.2)
  let lens := cols.map (·.length)
  let lensW := (List.range 64).map fun j =>
    (us.map fun u => ((pg u).entries.filter fun en => en.j == j).length).foldl (· + ·) 0
  let o := smmaOcc lens sr.tn rate
  let ow := smmaOcc lensW sr.tn rate
  let mats := us.map fun u => (part x sa u).mat
  let act := fun (u ii kk : Nat) =>
    if sr.zmMode = 2 && (zbits x sa u).testBit (64 * ii + kk) then FVal.zero
    else ((mats.getD u []).getD ii []).getD kk .zero
  let old := s.tile k mu tile
  let void := us.any fun u => (part x sa u).void
  let w := if void then (old.vals, 0, 0) else tileWords old.vals fun ii j v =>
    chain (if acc then v else 0, 0, 0) (rate == 0) ((cols.getD j []).map fun q => (act q.1 ii q.2.1, q.2.2))
  let terms := (if rate = 0 then 192 else 64) * sr.tn
  let cnt := if void then old.cnt else if acc then old.cnt + terms else terms
  let b := sr.budget
  let s1 := (s.setTile k mu tile { old with vals := w.1, cnt := cnt, sgw := if void then old.sgw else none }).noteChain k mu tile
    (if acc || void then old.cnt else 0) cnt
  let s2 := (s1.noteMu k mu w.2.1 w.2.2 b).startLooks r k mu t b o ahead
  let pairs := lens.foldl (· + ·) 0
  let s3 := (s2.inc48 (Reg.SV_PAIRS_LO_COUNT k) (Reg.SV_PAIRS_HI_COUNT k) pairs).inc (Reg.SV_ZSKIP_COUNT k)
    (lensW.foldl (· + ·) 0 - pairs)
  if !sr.cenEn then s3
  else
    let q := s3.seq r
    let n := Tbl.get 0 q.cens (256 * c + i)
    let s4 := s3.setSeq r { q with cens := Tbl.set 0 q.cens (256 * c + i) (n + 1) }
    let off := sr.cenOff + 4 * n
    if s4.rd (Reg.SP_HT_EXTENT r sr.cenH) < off + 4 then s4.wr (Reg.SV_STAT_CEN_LOST k) 1
    else s4.writeAt r c (t + b + 9) 6 none
      (at' (s4.handleBase r c sr.cenH + off) (toLe 4 (min o 0xFFFF + min ow 0xFFFF * 2 ^ 16)))

/-- A product that is issued in ic `t` runs, or waits for the end of its hold (R208). -/
def startProduct (s : State) (r c t mu : Nat) (op : MuOp) (run : State → State) : State :=
  let n := productNeeds (s.seq r).param op
  if readyIn (s.muOf (cix r c) mu) t n.1 n.2 = 0 then run s else s.pend r t 10 c (.product op 0)

/-- SMMA (R191 to R210, Table 7.2) in one cluster. -/
def smma (s : State) (r c t mu tile sa half : Nat) (acc : Bool) (i : Nat) : OpR :=
  let k := cix r c
  let sr := sieveOf (s.seq r).param i
  let x := s.muOf k mu
  let us := List.range sr.tn
  if !hasRec (s.seq r).param 2 i then s.opFault 0x50 0 c
  else if t < x.array then s.muFault r c mu 2 sa t
  else if !s.tileOpen k mu tile t acc then s.muFault r c mu 1 tile t
  else if us.any fun u => decide (t < (part x sa u).ready) then s.muFault r c mu 2 sa t
  else if (us.any fun u => !(Tbl.get Page.empty x.pages (2 * half + u)).built) ||
      (sr.zmMode != 0 && us.any fun u => (Tbl.get ZMap.empty x.zmaps (2 * sa + u)).bits.isNone) then
    s.svFault r c mu 4 0 t
  else
    let b := sr.budget
    let s1 := s.setTile k mu tile { s.tile k mu tile with doneAt := t + b + 9, accAt := t + b }
    let y := s1.muOf k mu
    let s2 := (s1.setMu k mu { y with
      array := t + b, slotBusy := Tbl.set 0 y.slotBusy sa (t + b), halfBusy := Tbl.set 0 y.halfBusy half (t + b),
      zmaps := if sr.zmMode = 0 then y.zmaps else zmapsBusy y sa (t + b) }).untilIc r (t + b + 9)
    (s2.startProduct r c t mu (.smma mu tile sa half acc i) fun u => u.smmaRun r c t 0 mu tile sa half acc i, none)

/-- The product of an SGW issued in ic `t` whose pages and map are ready (R243 to R246): `ahead` as for `startLooks`. -/
def sgwRun (s : State) (r c t ahead mu sa sb : Nat) (acc : Bool) (zmh i : Nat) : State :=
  let k := cix r c
  let g := sgwOf (s.seq r).param i
  let x := s.muOf k mu
  let ps := setBits g.pos 4
  let pg := fun p => Tbl.get Page.empty x.pages p
  let bp := part x (2 + sb) 0
  let rows := fun (pt : SlotPart) => chunks 64 (pt.vals.map fun v => decodeFmt pt.fmt v.1 v.2) 32
  let dz := (rows bp).zipIdx.map fun row => row.1.zipIdx.map fun q =>
    if g.zmMode = 2 && (zbits x sb 0).testBit (64 * (32 * zmh + row.2) + q.2) then FVal.zero else q.1
  let ents := fun p => (pg p).entries.filter fun e => decide (e.slot < 4096)
  let cells : Tbl Nat := ps.foldl (fun t0 p => (ents p).foldl (fun u e =>
    let cell := (e.slot + 1024 * p) % 4096
    Tbl.set 0 u cell (Tbl.get 0 u cell + 1)) t0) []
  let l := cells.foldl (fun m q => max m q.2) 1
  let rate := max 1 (pairRate (descOf (s.seq r).param g.adesc).fmt (descOf (s.seq r).param g.gdesc).fmt)
  let b := g.budget
  let s1 := ps.foldl (fun (z : State) p =>
    let old := z.tile k mu p
    let xr := rows (part x sa p)
    let w := (ents p).foldl (fun (a : Tbl Nat × Nat × Nat) e =>
      let st := if acc then Tbl.get 0 old.vals e.slot else 0
      let v := chainRun (st, a.2.1, a.2.2) ((xr.zip dz).map fun q => (q.1.getD e.row .zero, q.2.getD e.col .zero))
      (Tbl.set 0 a.1 e.slot v.1, v.2.1, v.2.2)) (if acc then old.vals else [], 0, 0)
    let cnt := if acc then old.cnt + 32 else 32
    ((z.setTile k mu p { old with vals := w.1, cnt := cnt, sgw := some (pg p).tag }).noteChain k mu p
      (if acc then old.cnt else 0) cnt).noteMu k mu w.2.1 w.2.2 0) s
  (s1.noteMu k mu 0 0 b).startLooks r k mu t b (32 * l / rate) ahead

/-- SGW (R243 to R246, R252) in one cluster. -/
def sgw (s : State) (r c t mu sa sb : Nat) (acc : Bool) (zmh i : Nat) : OpR :=
  let k := cix r c
  let g := sgwOf (s.seq r).param i
  let x := s.muOf k mu
  let ps := setBits g.pos 4
  if !hasRec (s.seq r).param 4 i then s.opFault 0x50 0 c
  else if t < x.array then s.muFault r c mu 2 sa t
  else if ps.any fun p => !s.tileOpen k mu p t acc then
    s.muFault r c mu 1 ((ps.find? fun p => !s.tileOpen k mu p t acc).getD 0) t
  else if ps.any fun p => decide (t < (part x sa p).ready) then s.muFault r c mu 2 sa t
  else if t < (part x (2 + sb) 0).ready then s.muFault r c mu 2 (2 + sb) t
  else if (ps.any fun p => !(Tbl.get Page.empty x.pages p).built) ||
      (g.zmMode == 2 && (Tbl.get ZMap.empty x.zmaps (2 * sb)).bits.isNone) then s.svFault r c mu 4 0 t
  else
    let b := g.budget
    let s1 := ps.foldl (fun (z : State) p =>
      z.setTile k mu p { z.tile k mu p with doneAt := t + b + 9, accAt := t + b }) s
    let y := s1.muOf k mu
    let s2 := (s1.setMu k mu { y with
      array := t + b, slotBusy := busyUntil (t + b) y.slotBusy [sa, 2 + sb],
      halfBusy := busyUntil (t + b) y.halfBusy ((ps.map (· / 2)).eraseDups),
      zmaps := if g.zmMode = 2 then zmapsBusy y sb (t + b) else y.zmaps }).untilIc r (t + b + 9)
    (s2.startProduct r c t mu (.sgw mu sa sb acc zmh i) fun u => u.sgwRun r c t 0 mu sa sb acc zmh i, none)

/-! ### Holds (R207 to R209) -/

/-- The MU that a product uses. -/
def productMu : MuOp → Nat
  | .smma mu _ _ _ _ _ => mu
  | .sgw mu _ _ _ _ _ => mu
  | _ => 0

/-- The products of region `r` that wait in ic `t`, as (cluster, periods until they are ready). -/
def waitingProducts (s : State) (r t : Nat) : List (Nat × Nat) :=
  (s.seq r).pend.filterMap fun p => match p.act with
    | .product op _ =>
      if p.due ≤ t then
        let n := productNeeds (s.seq r).param op
        some (cix r p.cl, readyIn (s.muOf (cix r p.cl) (productMu op)) t n.1 n.2)
      else none
    | _ => none

/-- The periods for which the Sieve holds the island at the end of ic `t`. -/
def sieveDue (s : State) (r t : Nat) : Nat :=
  ((s.waitingProducts r t).map (·.2) ++ ((s.seq r).looks.filter fun l => decide (l.ends ≤ t)).map (·.left)).foldl max 0

/-- The counts of the Sieve holds at the end of ic `t`: each cluster counts its own periods of each kind, and its overruns; the look-ups
whose budget ends are gone. -/
def countSieve (s : State) (r t : Nat) : State :=
  let q := s.seq r
  let gone := q.looks.filter fun l => decide (l.ends ≤ t)
  let waits := s.waitingProducts r t
  let s1 := (List.range 8).foldl (fun (u : State) c =>
    let k := cix r c
    let a := ((waits.filter fun w => w.1 == k).map (·.2)).foldl max 0
    let b := ((gone.filter fun l => l.cl == k).map (·.left)).foldl max 0
    let n := (gone.filter fun l => l.cl == k && l.beyond).length
    let u1 := if a = 0 then u else u.inc (Reg.SV_HOLD_CNT_READY k) a
    let u2 := if b = 0 then u1 else u1.inc (Reg.SV_HOLD_CNT_OVERRUN k) b
    let u3 := if n = 0 then u2 else u2.inc (Reg.SV_OVERRUN_CNT_COUNT k) n
    if a = 0 ∧ b = 0 then u3 else u3.wr (Reg.SV_STAT_HOLD k) 1) s
  s1.setSeq r { s1.seq r with looks := (s1.seq r).looks.filter fun l => decide (t < l.ends) }

/-- The Sieve of region `r` goes on for `h` periods in which the island is held in ic `t` (R209): builds, maps, and look-ups in
progress. -/
def sieveAdvance (s : State) (r t h : Nat) : State :=
  if h = 0 then s
  else
    let cut := fun n => if t < n then max t (n - h) else n
    let s1 := (List.range 8).foldl (fun (u : State) c =>
      let x := u.clu (cix r c)
      u.setClu (cix r c) { x with mus := Tbl.mapv Mu.empty (fun m => { m with
        pages := Tbl.mapv Page.empty (fun p => { p with ready := cut p.ready }) m.pages,
        zmaps := Tbl.mapv ZMap.empty (fun z => { z with ready := cut z.ready }) m.zmaps, insert := cut m.insert }) x.mus }) s
    let q := s1.seq r
    let moved := fun (p : Pend) => match p.act with
      | .drops _ _ => { p with due := cut p.due }
      | .takeSv _ _ _ => { p with due := cut p.due }
      | .capture 2 fid us => if t < p.due then { p with due := cut p.due, act := .capture 6 fid us } else p
      | .product op _ =>
        let n := productNeeds q.param op
        { p with act := .product op (h - readyIn (s.muOf (cix r p.cl) (productMu op)) t n.1 n.2) }
      | _ => p
    s1.setSeq r { q with pend := q.pend.foldl (fun l p => insPend (moved p) l) [],
                         looks := q.looks.map fun l => { l with left := l.left - h } }

/-- A product that waited runs at the end of the hold of ic `t`. -/
def runProduct (s : State) (r c t ahead : Nat) (op : MuOp) : State :=
  match op with
  | .smma mu tile sa half acc i => s.smmaRun r c t ahead mu tile sa half acc i
  | .sgw mu sa sb acc zmh i => s.sgwRun r c t ahead mu sa sb acc zmh i
  | _ => s

end State
end Sys2Proof.Machine
end

