-- ==== Sys2Proof/Machine/Vu.lean ====
section
/-!
DEFINITION. The vector unit (R289 to R293, R303): lane-wise operations, reductions, loads and stores, and the value-slot
accesses VLDS and VSTS.
-/

namespace Sys2Proof.Machine

/-- Format of a register's lanes: FP32, or BF16 with W = 1. -/
def laneFmt (w : Bool) : Nat := if w then 1 else 0

/-- Lanes of the words of a register. -/
def lanesOf (w : Bool) (ws : List Nat) : List Nat :=
  if w then ws.flatMap fun x => [x % 2 ^ 16, x / 2 ^ 16 % 2 ^ 16] else ws

/-- Words of a register from its lanes. -/
def packLanes (w : Bool) : List Nat → List Nat
  | [] => []
  | [a] => [a]
  | a :: b :: l => if w then (a + b * 2 ^ 16) :: packLanes w l else a :: packLanes w (b :: l)

/-- Leading zeros of a 32-bit word. -/
def clz32 (x : Nat) : Nat := if x % 2 ^ 32 = 0 then 32 else 31 - Nat.log2 (x % 2 ^ 32)

/-- A value rounded to the lane format with SAT = 0. -/
def roundLane (w : Bool) (v : FVal) : Nat × List Ev := roundElem (efmt (laneFmt w)) .rne false v

/-- One lane of a lane-wise operation of Table 10.10 (R291). -/
def aluLane (code : Nat) (w : Bool) (a b c : Nat) : Nat × List Ev :=
  let f := laneFmt w
  let va := decodeElem (efmt f) a
  let vb := decodeElem (efmt f) b
  let vc := decodeElem (efmt f) c
  if code = 5 then roundLane w (va.add vb)
  else if code = 6 then roundLane w (va.add vb.neg)
  else if code = 7 then roundLane w (va.mul vb)
  else if code = 8 then roundLane w ((va.mul vb).add vc)
  else if code = 9 then roundLane w (va.max vb)
  else if code = 10 then roundLane w (va.min vb)
  else if code = 11 then roundLane w va.abs
  else if code = 12 then roundLane w va.neg
  else if code = 13 then (if c ≠ 0 then a else b, [])
  else if code = 14 then (if va.lt vb then 0xFFFFFFFF else 0, [])
  else if code = 20 then ((a + b) % 2 ^ 32, [])
  else if code = 21 then ((a + 2 ^ 32 - b) % 2 ^ 32, [])
  else if code = 22 then (a * b % 2 ^ 32, [])
  else if code = 23 then (a * b / 2 ^ 32 % 2 ^ 32, [])
  else if code = 24 then ((a + b) / 2 ^ 32 % 2, [])
  else if code = 25 then (a * 2 ^ (b % 32) % 2 ^ 32, [])
  else if code = 26 then (a / 2 ^ (b % 32), [])
  else if code = 27 then (a &&& b, [])
  else if code = 28 then (a ||| b, [])
  else if code = 29 then (a ^^^ b, [])
  else (clz32 a, [])

/-- VRSUM and VRMAX on one group of 64 lanes (R292). -/
def reduceGroup (isMax : Bool) (start : Nat) (ls : List Nat) : Nat × List Ev :=
  ls.foldl (fun (acc : Nat × List Ev) x =>
    let y := toF32 (if isMax then (f32 acc.1).max (f32 x) else (f32 acc.1).add (f32 x))
    (y.1, acc.2 ++ y.2)) (start, [])

namespace State

/-- The words of register n. -/
def vreg (s : State) (k n : Nat) : List Nat := (List.range 256).map fun i => Tbl.get 0 (s.clu k).vregs (256 * n + i) % 2 ^ 32

/-- Register n written. -/
def setVreg (s : State) (k n : Nat) (ws : List Nat) : State :=
  let x := s.clu k
  s.setClu k { x with vregs := ((List.range 256).zip ws).foldl (fun t p => Tbl.set 0 t (256 * n + p.1) (p.2 % 2 ^ 32)) x.vregs }

/-- The result ic of the results that register v of cluster c still awaits (R303, Table 10.10). -/
def vregOwed (s : State) (r c v : Nat) : List Nat :=
  ((s.seq r).pend ++ (s.seq r).asks.flatMap (·.2)).filterMap fun x =>
    if x.cl ≠ c then none
    else match x.act with
      | .vreg w _ => if w = v then some x.due else none
      | .takeVu _ t0 (.vld w _ _ _ _ _) => if w = v then some (t0 + 9) else none
      | .takeVu _ t0 (.vlds w _ _ _ _ _) => if w = v then some (t0 + 9) else none
      | _ => none

/-- Whether register v of cluster c is read in ic `t` before its result ic (R303). -/
def vregPending (s : State) (r c t v : Nat) : Bool := (s.vregOwed r c v).any fun d => decide (t < d)

/-- Whether another result is due in register v at ic `due` (R303). -/
def vregDue (s : State) (r c v due : Nat) : Bool := (s.vregOwed r c v).contains due

/-- The events of the VU (Table 10.20). -/
def vuEvents (s : State) (r c : Nat) (evs : List Ev) : State :=
  evs.foldl (fun t e => match e with
    | .sat => t.inc (Reg.SQ_VU_SAT_COUNT r c) 1
    | .uflow => t.inc (Reg.SQ_VU_UFLOW_COUNT r c) 1
    | .infClamp => t.inc (Reg.SQ_VU_INFCLAMP_COUNT r c) 1
    | .nanBlock => t.inc (Reg.SQ_VU_NANBLK_COUNT r c) 1
    | _ => t) s

/-- A result put in register `vd` after `lat` ic, with the checks of R303 on the sources. -/
def vuResult (s : State) (r c t lat vd : Nat) (srcs : List Nat) (ws : List Nat) (evs : List Ev) : OpR :=
  if srcs.any (s.vregPending r c t) || s.vregDue r c vd (t + lat) then s.opFault 0x4E 1 c
  else ((s.pend r (t + lat) 0 c (.vreg vd ws)).vuEvents r c evs, none)

/-- A lane-wise operation in one cluster. -/
def vuAlu (s : State) (r c t code vd va vb vc : Nat) (w : Bool) : OpR :=
  let k := cix r c
  let a := lanesOf w (s.vreg k va)
  let b := if usesVb code then lanesOf w (s.vreg k vb) else a
  let d := if usesVc code then lanesOf w (s.vreg k vc) else a
  let xs := (a.zip (b.zip d)).map fun p => aluLane code w p.1 p.2.1 p.2.2
  s.vuResult r c t 4 vd ([va] ++ (if usesVb code then [vb] else []) ++ (if usesVc code then [vc] else []))
    (packLanes w (xs.map (·.1))) (xs.flatMap (·.2))

/-- VMOVI in one cluster. -/
def vuMovi (s : State) (r c t vd imm : Nat) : OpR := s.vuResult r c t 2 vd [] (List.replicate 256 imm) []

/-- VTR in one cluster (R293). -/
def vuTr (s : State) (r c t vd va fn : Nat) : OpR :=
  let k := cix r c
  if t < (s.clu k).vtr then s.opFault 0x4E 1 c
  else
    let xs := (s.vreg k va).map fun x => vtr fn (f32 x)
    let y := s.vuResult r c t 16 vd [va] (xs.map (·.1)) (xs.flatMap (·.2))
    (y.1.setClu k { y.1.clu k with vtr := t + 4 }, y.2)

/-- VRSUM and VRMAX in one cluster (R292). -/
def vuReduce (s : State) (r c t : Nat) (isMax : Bool) (vd va vc : Nat) : OpR :=
  let k := cix r c
  let a := chunks 64 (s.vreg k va) 4
  let d := s.vreg k vc
  let xs := a.zipIdx.map fun p => reduceGroup isMax (nth d (64 * p.2)) p.1
  s.vuResult r c t 12 vd [va, vc] (xs.flatMap fun x => List.replicate 64 x.1) (xs.flatMap (·.2))

/-- The words that a VLD puts in its register, from the bytes that `d` shows, and their events. The compute format of a lane is FP32, or
BF16 with W = 1, and a pad is taken in it (R72). -/
def vldWords (s d : State) (r c : Nat) (w : Bool) (i e rt ct : Nat) : List Nat × List Ev :=
  let ds := descOf (s.seq r).param i
  let rows := if w then 8 else 4
  let v := s.view r c i e
  let xs := ((loadTile d v none (rows * rt) (64 * ct) rows 64).1.zipIdx).map fun p =>
    let k := clsOf v.d none (v.d.idx (rows * rt + p.2 / 64) (64 * ct + p.2 % 64))
    if k == .pad || k == .cpad then ((padCode (laneFmt w) ds.pad).1, [])
    else if ds.fmt = laneFmt w then (p.1.1, []) else convElem ds.fmt 0 .rne (decodeFmt ds.fmt p.1.1 p.1.2)
  (packLanes w (xs.map (·.1)), xs.flatMap (·.2))

/-- Units read in the waves that the accumulator ports allow (R147): a row of each MU's window an ic, everything else in the first. -/
def windowWaves (k : Nat) (us : List Nat) : List (List Nat) :=
  (List.range (max 1 (portSpan k us))).map fun j => us.filter fun u => match place (64 * u) with
    | .acc c m _ _ _ => if c = k then (portRows k m us)[j]? == some (u / 8) else j == 0
    | _ => j == 0

/-- VLD in one cluster (Table 10.10). Rows of an accumulator window are read one an ic, and a register whose lanes come from outside the
cluster takes them when they come (DESIGN CHOICE, log 21). With a zero extent it loads nothing (R98). -/
def vuLoad (s : State) (r c t vd : Nat) (w : Bool) (i e rt ct : Nat) : OpR :=
  let d := descOf (s.seq r).param i
  if !s.descOk r i e || d.layout == 1 || d.fmt == 15 || (w && d.fmt != 1) then s.opFault 0x50 1 c
  else
    let k := cix r c
    let rows := if w then 8 else 4
    let v := s.view r c i e
    if v.d.isZeroExt then (s.untilIc r (t + 9), none)
    else
      let us := (loadTile s v none (rows * rt) (64 * ct) rows 64).2
      let waves := windowWaves k us
      let t0 := t + waves.length - 1
      thenOp (s.useWindow r c t t 1 us) fun s1 =>
        if waves.length ≤ 1 && !us.any (farUnit k) then
          let x := s.vldWords s r c w i e rt ct
          (s1.readWave r c t 1 us).vuResult r c t 9 vd [] x.1 x.2
        else if s1.vregDue r c vd (t0 + 9) then s1.opFault 0x4E 1 c
        else ((s1.fetch r c t 1 waves t0 0 fun fid => .takeVu fid t0 (.vld vd w i e rt ct)).untilIc r (t0 + 9), none)

/-- VST in one cluster (Table 10.10). It writes in its issue ic (DESIGN CHOICE, log 24); rows of an accumulator window go one an ic (R147),
and what leaves the cluster goes at 64 bytes an ic (R301). -/
def vuStore (s : State) (r c t va : Nat) (w : Bool) (i e rt ct : Nat) : OpR :=
  let d := descOf (s.seq r).param i
  if !s.descOk r i e || d.layout == 1 || d.fmt == 15 || (w && d.fmt != 1) then s.opFault 0x50 1 c
  else if s.vregPending r c t va then s.opFault 0x4E 1 c
  else
    let k := cix r c
    let v := s.view r c i e
    let rows := if w then 8 else 4
    let lanes := chunks 64 (lanesOf w (s.vreg k va)) rows
    let str := s.roundingOf r i
    let outs := lanes.zipIdx.map fun p =>
      let row := rows * rt + p.2
      let vals := p.1.zipIdx.map fun q =>
        if isBody v.d row (64 * ct + q.2) then
          some (decodeElem (efmt (laneFmt w)) q.1, rndOf str (elemIndex v.d e row (64 * ct + q.2)))
        else none
      (row, storeRow v row (64 * ct) (laneFmt w) vals)
    let acc := if v.d.smode = 1 then some d.fmt else none
    let ws := outs.map fun o => if v.d.smode = 1 then accumRow v o.1 (64 * ct) o.2.2.1 else o.2.1
    let s0 := s.vuEvents r c (outs.flatMap fun o => o.2.2.2)
    let port := inWindow v.base && !farUnit k (v.base / 64)
    thenOp (s0.useWindow r c t t 1 (distinct (ws.flatten.map fun p => p.1 / 64))) fun s1 =>
      if port then
        ((ws.zipIdx.foldl (fun (z : State) l => z.writeAt r c (t + l.2) 5 acc l.1) s1).untilIc r (t + 8 + rows), none)
      else ((s1.writeAt r c t 5 acc ws.flatten).untilIc r (t + 9), none)

/-- The tile that VLDS and VSTS name, and whether its tag equals the reference array's (R290). -/
def slotTile (s : State) (r c i ref e n : Nat) : View × Option Tile × Bool :=
  let v := s.view r c i e
  let w := s.view r c ref e
  let cols := max 1 (cdiv (v.d.ext 0) 64)
  let a := bodyTile s v (n / cols) (n % cols)
  let b := bodyTile s w (n / cols) (n % cols)
  (v, a, (a.getD Tile.zero).tag == (b.getD Tile.zero).tag)

/-- Whether descriptors name arrays that VLDS and VSTS can address. -/
def slotOk (s : State) (r i ref e : Nat) : Bool :=
  s.descOk r i e && s.descOk r ref e && (descOf (s.seq r).param i).layout == 1 && (descOf (s.seq r).param ref).layout == 1

/-- The two read waves of a tile's record (Table 10.10): its header's unit, then the rest (DESIGN CHOICE, log 34). -/
def recordWaves (tl : Option Tile) : List (List Nat) :=
  match tl with
  | some x => [x.units.take 1, x.units.drop 1]
  | none => [[], []]

/-- The lanes that VLDS takes from a tile as `d` shows it, with their events (R172, R290). -/
def slotWords (d : State) (v : View) (tl : Option Tile) (n blkNo : Nat) : List Nat × List Ev :=
  let tl := tl.getD Tile.zero
  let cols := max 1 (cdiv (v.d.ext 0) 64)
  let win := window v.d (n / cols) (n % cols)
  let xs := (tl.live.filter fun en => decide (en.slot < tl.scount) && decide (en.slot / 256 = blkNo) &&
    decide (en.row < win.1) && decide (en.col < win.2)).map fun en =>
      (en.slot % 256, convElem tl.vfmt 0 .rne (tl.value d en))
  let vals : Tbl Nat := xs.foldl (fun a q => Tbl.set 0 a q.1 q.2.1) []
  ((List.range 256).map fun l => Tbl.get 0 vals l, xs.flatMap fun q => q.2.2)

/-- VLDS in one cluster (R290). The tags are compared before any read. -/
def vuLoadSlots (s : State) (r c t vd ref i e n blkNo : Nat) : OpR :=
  if !s.slotOk r i ref e then s.opFault 0x50 1 c
  else
    let x := s.slotTile r c i ref e n
    if x.1.d.isZeroExt then (s.untilIc r (t + 10), none)
    else if !x.2.2 then s.opFault 0x4D 1 c
    else
      let waves := recordWaves x.2.1
      thenOp (s.useWindow r c t t 1 waves.flatten) fun s1 =>
        if s1.vregDue r c vd (t + 10) then s1.opFault 0x4E 1 c
        else ((s1.fetch r c t 1 waves (t + 1) 0 fun fid => .takeVu fid (t + 1) (.vlds vd ref i e n blkNo)).untilIc r (t + 10), none)

/-- The value store of a VSTS with LAST, from ic `due` on: `lanes` are the buffered slots, and `d` shows the tile (R186, R290). -/
def vstsTake (s d : State) (r c due ref i e n : Nat) (lanes : Tbl Nat) : State :=
  let x := d.slotTile r c i ref e n
  match x.2.1 with
  | none => s
  | some tl =>
    if tl.bad then s
    else
      let cols := max 1 (cdiv (x.1.d.ext 0) 64)
      let str := s.roundingOf r i
      let w := storedCodes d tl 0 (fun _ => true) (fun _ => true) fun en =>
        if en.slot < tl.scount then
          ((lanes.find? fun q => q.1 == en.slot).map fun q =>
            (f32 q.2, rndOf str (elemIndex x.1.d e (64 * (n / cols) + en.row) (64 * (n % cols) + en.col))))
        else none
      (s.vuEvents r c w.2.2).writeAt r c due 5 none (valueStore tl w)

/-- VSTS in one cluster (R290). With LAST the record is read in ic t and t + 1 and the values are written from ic t + 12 on (DESIGN CHOICE,
log 24). -/
def vuStoreSlots (s : State) (r c t va ref : Nat) (last : Bool) (i e n blkNo : Nat) : OpR :=
  let k := cix r c
  if !s.slotOk r i ref e then s.opFault 0x50 1 c
  else if s.vregPending r c t va then s.opFault 0x4E 1 c
  else if (match (s.clu k).vsts with
      | some b => b.rcd != i || b.entry != e || b.tile != n
      | none => false) then s.opFault 0x4E 1 c
  else
    let x := s.slotTile r c i ref e n
    if x.1.d.isZeroExt then (s, none)
    else if !x.2.2 then s.opFault 0x4D 1 c
    else
      let old := match (s.clu k).vsts with | some b => b.lanes | none => []
      let lanes := ((s.vreg k va).zipIdx).foldl (fun (a : Tbl Nat) q => Tbl.put a (256 * blkNo + q.2) q.1) old
      let cl := s.clu k
      if !last then (s.setClu k { cl with vsts := some ⟨i, e, n, lanes⟩ }, none)
      else
        let waves := recordWaves x.2.1
        thenOp ((s.setClu k { cl with vsts := none }).useWindow r c t t 1 waves.flatten) fun s1 =>
          let s2 := s1.keepCodes r s1.wid (lanes.map fun p => p.1 * 2 ^ 32 + p.2 % 2 ^ 32)
          ((s2.fetch r c t 1 waves (t + 1) 0 fun fid => .takeVu fid (t + 1) (.vsts va ref last i e n blkNo)).untilIc r (t + 20), none)

/-- A VU operation goes on in ic `t` with the bytes of fetch `fid`; `t0` is the ic of its last read wave. -/
def takeVu (s : State) (r c t fid t0 : Nat) (op : VuOp) : State :=
  let d := s.seen r fid
  let kept := Tbl.get [] (s.seq r).biases fid
  let s1 := (s.dropFetch r fid).keepCodes r fid []
  match op with
  | .vld vd w i e rt ct =>
    let x := s.vldWords d r c w i e rt ct
    (s1.pend r (max t (t0 + 9)) 0 c (.vreg vd x.1)).vuEvents r c x.2
  | .vlds vd ref i e n blkNo =>
    let y := d.slotTile r c i ref e n
    let x := d.slotWords y.1 y.2.1 n blkNo
    (s1.pend r (max t (t0 + 9)) 0 c (.vreg vd x.1)).vuEvents r c x.2
  | .vsts _ ref _ i e n _ => s1.vstsTake d r c (t + 11) ref i e n (kept.map fun p => (p / 2 ^ 32, p % 2 ^ 32))
  | _ => s1

end State
end Sys2Proof.Machine
end

