-- ==== Sys2Proof/Machine/Move.lean ====
section
/-!
DEFINITION. Transfers (R295 to R298, R320, R321, R586): what a DMA record moves, the issue of DMA.GO and MOVE, and the
delivery of writes to banks, accumulator windows and HBM.
-/

namespace Sys2Proof.Machine

/-- Consecutive addresses gathered: (first address, bytes). -/
def runs : List (Nat × Nat) → List (Nat × List Nat)
  | [] => []
  | p :: l =>
    match runs l with
    | (a, bs) :: rest => if a = p.1 + 1 then (p.1, p.2 :: bs) :: rest else (p.1, [p.2]) :: (a, bs) :: rest
    | [] => [(p.1, [p.2])]

/-- What a transfer does: 64-byte units read, source bytes, bytes written, accumulating writes with their format, events. -/
structure Moved where
  units : List Nat
  srcB  : Nat
  bytes : List (Nat × Nat)
  accs  : List (Nat × Nat)
  fmt   : Nat
  evs   : List Ev
  deriving DecidableEq, Repr

/-- Nothing. -/
def Moved.none : Moved := ⟨[], 0, [], [], 0, []⟩
/-- Both, in order. -/
def Moved.app (a b : Moved) : Moved :=
  ⟨a.units ++ b.units, a.srcB + b.srcB, a.bytes ++ b.bytes, a.accs ++ b.accs, b.fmt, a.evs ++ b.evs⟩

/-- The bytes of `n` elements of a row in a format, scales included. -/
def rowBytes (fmt n : Nat) : Nat := if isBlock fmt then cdiv (n * elemBits fmt) 8 + cdiv n 32 else n * elemBytes fmt

/-- Dimensions 0 and 1 of an index exchanged. -/
def swap01 : List Int → List Int
  | a :: b :: l => b :: a :: l
  | l => l

/-- One destination row of a transfer (R297, R321, R46): `n` columns from `c0` of row `row`. -/
def moveRow (s : State) (sv dv : View) (trans : Bool) (str : Option (Nat × Nat × Nat)) (e row c0 n : Nat) : Moved :=
  let cells := (List.range n).map fun j =>
    let ix := dv.d.idx row (c0 + j)
    if isBody dv.d row (c0 + j) then some (loadCode s sv none (if trans then swap01 ix else ix)) else none
  let units := cells.flatMap fun c => match c with | some x => x.2 | none => []
  let codes := cells.map fun c => c.map (·.1)
  let srcB := rowBytes sv.d.fmt (cells.filter fun c => match c with | some x => !x.2.isEmpty | none => false).length
  let same := sv.d.fmt == dv.d.fmt && (!isBlock dv.d.fmt || !trans)
  if same then
    if dv.d.smode = 1 then ⟨units, srcB, [], accumRow dv row c0 codes, dv.d.fmt, []⟩
    else ⟨units, srcB, storeCodes dv row c0 codes, [], dv.d.fmt, []⟩
  else
    let vals := codes.zipIdx.map fun q => q.1.map fun x =>
      (decodeFmt sv.d.fmt x.1 x.2, rndOf str (elemIndex dv.d e row (c0 + q.2)))
    let st := storeRow dv row c0 sv.d.fmt vals
    if dv.d.smode = 1 then ⟨units, srcB, [], accumRow dv row c0 st.2.1, dv.d.fmt, st.2.2⟩
    else ⟨units, srcB, st.1, [], dv.d.fmt, st.2.2⟩

/-- A whole body, or the 64×64 tile (rt, ct). -/
def moveBody (s : State) (sv dv : View) (trans whole : Bool) (str : Option (Nat × Nat × Nat)) (e rt ct : Nat) : Moved :=
  if dv.d.isZeroExt then Moved.none
  else if dv.d.layout = 1 then
    let n := 64 * (arrHeader s sv.base).2.2.2
    ⟨unitsOf sv.base n, n, at' dv.base (s.peeks sv.base n), [], dv.d.fmt, []⟩
  else if whole then
    dv.d.bodyRows.foldl (fun m row => m.app (moveRow s sv dv trans str e row 0 (dv.d.ext 0))) Moved.none
  else (List.range 64).foldl (fun m q => m.app (moveRow s sv dv trans str e (64 * rt + q) (64 * ct) 64)) Moved.none

/-- The pairs of pointer-list entries a transfer takes in turn (R298). -/
def entryPairs (src dst : Desc) (whole : Bool) (e : Nat) : List (Nat × Nat) :=
  let pick := fun (d : Desc) j => if d.plistEn then j else 0
  if whole then (List.range (max src.entries dst.entries)).map fun j => (pick src j, pick dst j)
  else [(pick src e, pick dst e)]

namespace State

/-- The part of a record's transfer that cluster `c` of region `r` uses. -/
def movePart (s : State) (r c : Nat) (x : Xfer) : Moved :=
  let p := (s.seq r).param
  let m := dmaOf p x.rcd
  (entryPairs (descOf p m.src) (descOf p m.dst) m.whole x.e).foldl (fun acc q =>
    acc.app (moveBody s (s.view r c m.src q.1) (s.view r c m.dst q.2) m.trans m.whole (s.roundingOf r m.dst) q.2 x.rt x.ct))
    Moved.none

/-- The row checks of writes that come to banks from outside, 64 bytes an access (R116, R118, R130): the uncorrectable granules. -/
def checkPieces (s : State) (ws : List (Nat × Nat)) : State × List Nat :=
  (pieces ws).foldl (fun (acc : State × List Nat) l =>
    let x := acc.1.checkWrites l
    (x.1.noteFar x.2.2, x.2.1 ++ acc.2)) (s, [])

/-- Bytes of agent `src`, which stands outside the clusters, delivered to their places (R305): banks and windows at once, HBM through its
home cache in the ALLOC or the STREAM class (R329). The status is that of R335 of the first failed HBM write, and true when a bank access
is uncorrectable; such an access writes nothing. -/
def deliverAs (s : State) (src : Nat) (alloc : Bool) (ws : List (Nat × Nat)) : State × Nat × Bool :=
  let x := s.checkPieces (ws.filter fun p => decide (destOf p.1 < 256))
  let o := x.1.inOrder (keepGood x.2 ws)
  let y := (runs o.2).foldl (fun (acc : State × Nat) q =>
    match place q.1 with
    | .hbm _ _ => let z := acc.1.hbmWriteBy src q.1 q.2 alloc; (z.1, if acc.2 = 0 then z.2 else acc.2)
    | .hole _ => let z := acc.1.hbmWriteBy src q.1 q.2 alloc; (z.1, if acc.2 = 0 then z.2 else acc.2)
    | _ =>
      let bs := acc.1.settle (at' q.1 q.2)
      ((acc.1.pokes bs).inject (bs.map (·.1)), acc.2)) (o.1, 0)
  (y.1, y.2, !x.2.isEmpty)

/-- Bytes of agent `src` delivered in the ALLOC class. -/
def deliverBy (s : State) (src : Nat) (ws : List (Nat × Nat)) : State × Nat × Bool := s.deliverAs src true ws

/-- Bytes delivered by the units of a region. -/
def deliver (s : State) (ws : List (Nat × Nat)) : State × Nat × Bool := s.deliverBy 255 ws

/-- Whether a descriptor's data lies in a KIND = 0 handle of the region. -/
def kind0 (s : State) (r i : Nat) : Bool :=
  let d := descOf (s.seq r).param i
  d.space == 1 && s.rd (Reg.SP_HT_KIND r d.handle) == 0

/-- Whether a DMA record and the coordinates of its bundle exist (R283, R285). -/
def moveOk (s : State) (r i e : Nat) : Bool :=
  let p := (s.seq r).param
  let m := dmaOf p i
  hasRec p 6 i && hasRec p 0 m.src && (m.stashEn || hasRec p 0 m.dst) &&
    decide (e < max (descOf p m.src).entries (if m.stashEn then 1 else (descOf p m.dst).entries))

/-- The events of a DMA channel (Table 11.4). -/
def dmaEvents (s : State) (d ch : Nat) (evs : List Ev) : State :=
  evs.foldl (fun t e => match e with
    | .sat => t.inc (Reg.DMA_SAT_COUNT d ch) 1
    | .uflow => t.inc (Reg.DMA_UFLOW_COUNT d ch) 1
    | .infClamp => t.inc (Reg.DMA_INFCLAMP_COUNT d ch) 1
    | .nanBlock => t.inc (Reg.DMA_NANBLK_COUNT d ch) 1
    | _ => t) s

/-- The events of a move engine's conversions (R50). -/
def moveEvents (s : State) (k : Nat) (evs : List Ev) : State :=
  evs.foldl (fun t e => match e with
    | .sat => t.inc (In.moveEv k 0) 1
    | .infClamp => t.inc (In.moveEv k 1) 1
    | .nanBlock => t.inc (In.moveEv k 2) 1
    | .uflow => t.inc (In.moveEv k 3) 1
    | .accFtz => t.inc (In.moveEv k 4) 1
    | .accOvf => t.inc (In.moveEv k 5) 1) s

/-! ### DMA transfers (R295, R297, R307, R320) -/

/-- The clusters whose parts make up a transfer (R295). -/
def xferParts (s : State) (x : Xfer) : List Nat :=
  let m := dmaOf (s.seq x.region).param x.rcd
  if s.kind0 x.region m.src || (!m.stashEn && s.kind0 x.region m.dst) then List.range 8 else [0]

/-- The rows that cluster `c`'s part of a transfer hands to the stash writer, and the units read (R266). -/
def stashParts (s : State) (r c : Nat) (x : Xfer) : List StashPart × List Nat :=
  let p := (s.seq r).param
  let m := dmaOf p x.rcd
  let d := descOf p m.src
  let str := s.roundingOf r m.src
  let rows := (if m.whole then List.range d.entries else [x.e]).flatMap fun e =>
    let v := s.view r c m.src e
    let tiles := if m.whole then (List.range (cdiv v.d.spanRows 64)).flatMap fun a =>
        (List.range (cdiv (v.d.ext 0) 64)).map fun b => (a, b) else [(x.rt, x.ct)]
    tiles.flatMap fun ab => (List.range 64).map fun q =>
      let cells := (List.range 64).map fun j =>
        if isBody v.d (64 * ab.1 + q) (64 * ab.2 + j) then
          some (loadCode s v none (v.d.idx (64 * ab.1 + q) (64 * ab.2 + j))) else none
      ((⟨m.stashEntry + e, ab.1, ab.2, q, v.d.fmt, cells.zipIdx.map fun c => c.1.map fun y =>
        (y.1, rndOf str (elemIndex v.d e (64 * ab.1 + q) (64 * ab.2 + c.2)))⟩ : StashPart),
        cells.flatMap fun c => match c with | some y => y.2 | none => [])
  (rows.map (·.1), rows.flatMap (·.2))

/-- The units that a transfer reads. -/
def xferUnits (s : State) (x : Xfer) : List Nat :=
  let m := dmaOf (s.seq x.region).param x.rcd
  distinct ((s.xferParts x).flatMap fun c =>
    if m.stashEn then (s.stashParts x.region c x).2 else (s.movePart x.region c x).units)

/-- The head of a channel's queue replaced. -/
def setHead (s : State) (key : Nat) (x : Xfer) : State :=
  { s with dmaq := Tbl.set [] s.dmaq key (x :: (Tbl.get [] s.dmaq key).tail) }

/-- Rows of the transfer at the head of a channel handed to the stash writer while units of the region's share are free (R267). -/
def stashFeedN (s : State) (key : Nat) : Nat → State
  | 0 => s
  | n + 1 =>
    match Tbl.get [] s.dmaq key with
    | [] => s
    | x :: _ =>
      match x.rows with
      | [] => s
      | y :: l =>
        if s.stashTakes (x.region / 8) y.entry y.m y.jt y.row && decide (2048 ≤ s.stashUsed x.region) then s
        else stashFeedN ((s.stashRow x.region (1 + key) y.entry y.m y.jt y.row y.srcFmt y.vals).setHead key { x with rows := l }) key n

/-- As many of the head's rows as find a free unit. -/
def stashFeed (s : State) (key : Nat) : State :=
  match Tbl.get [] s.dmaq key with
  | [] => s
  | x :: _ => s.stashFeedN key x.rows.length

/-- The transfer at the head of a channel has its source bytes: its conversions are counted, its writes to scratchpad leave as remote
accesses, those to HBM wait for the end, and stash rows are handed over. -/
def dmaSend (s : State) (key : Nat) : State :=
  match Tbl.get [] s.dmaq key with
  | [] => s
  | x :: _ =>
    let m := dmaOf (s.seq x.region).param x.rcd
    let d := s.pokes x.buf
    if m.stashEn then
      (s.setHead key { x with phase := 2, buf := [],
                              rows := (s.xferParts x).flatMap fun c => (d.stashParts x.region c x).1 }).stashFeed key
    else
      let y := (s.xferParts x).foldl (fun (acc : State × List (Nat × Nat)) c =>
        let mv := d.movePart x.region c x
        let near := fun (p : Nat × Nat) => decide (destOf p.1 < 256)
        let s1 := acc.1.dmaEvents (key / 16) (key % 16) mv.evs
        let s2 := s1.sendRemote (32 + key) key none (mv.bytes.filter near)
        (s2.sendRemote (32 + key) key (some mv.fmt) (mv.accs.filter near), acc.2 ++ mv.bytes.filter fun p => !near p)) (s, [])
      y.1.setHead key { x with phase := 2, buf := [], out := y.2 }

/-- The addresses that a transfer writes. -/
def movedTo (m : Moved) : List Nat := m.bytes.map (·.1) ++ m.accs.map (·.1)

/-- The addresses of banks and windows that a transfer has yet to write. -/
def xferTargets (s : State) (x : Xfer) : List Nat :=
  if x.phase = 2 || (dmaOf (s.seq x.region).param x.rcd).stashEn then []
  else (s.xferParts x).flatMap fun c => movedTo (s.movePart x.region c x)

/-- The regions whose banks and windows a transfer has yet to write (R508). -/
def xferRegions (s : State) (x : Xfer) : List Nat :=
  ((s.xferTargets x).filterMap fun a => match place a with
    | .sp k _ => some (k / 8)
    | .acc k _ _ _ _ => some (k / 8)
    | _ => none).eraseDups

/-- The transfer at the head of a channel begins: its scratchpad source goes out as remote reads (R320), and HBM is read through its home
caches (R329). A read that HBM does not serve is kept as the transfer's fault. It does not begin while a region that it writes closes its
ingress (R508). -/
def dmaBegin (s : State) (key : Nat) : State :=
  match Tbl.get [] s.dmaq key with
  | [] => s
  | x :: _ =>
    if x.phase ≠ 0 || !(s.rd Reg.CLK_DOM_STAT_RUN).testBit (key / 16) || (s.xferRegions x).any (fun r => s.on (In.gateDrain r)) then s
    else
      let m := dmaOf (s.seq x.region).param x.rcd
      let us := s.xferUnits x
      let far := us.filter fun u => decide (destOf (64 * u) < 256)
      let gs := distinct ((us.filter fun u => !decide (destOf (64 * u) < 256)).map (· / 4))
      let y := s.checkReadsAs (!m.whole) gs
      let bad := gs.find? fun g => match place (256 * g) with
        | .hbm k _ => s.stackStatus k != 0 || Tbl.get 0 y.1.poison g == 1
        | _ => false
      match bad with
      | some g => y.1.setHead key { x with phase := 2, fault := some (if s.stackStatus (g / 2 ^ 28) = 5 then 0x54 else 0x53) }
      | none =>
        let s1 := y.1.setHead key { x with phase := 1 }
        let s2 := far.foldl (fun (z : State) u =>
          { z with remotes := z.remotes ++ [⟨z.wid, 32 + key, key, destOf (64 * u), u, some 0, none, []⟩], wid := z.wid + 1 }) s1
        if far.isEmpty then s2.dmaSend key else s2

/-- DMA.GO (R295): the transfer queued, or the island held for a full queue. -/
def dmaGo (s : State) (r i e rt ct : Nat) : OpR :=
  if !s.moveOk r i e then s.opFault 0x50 4 0
  else
    let ch := 16 * (r / 8) + 2 * (r % 8) + (dmaOf (s.seq r).param i).chan
    let q := Tbl.get [] s.dmaq ch
    let x := Xfer.queued r i e rt ct
    if q.length < 4 then (({ s with dmaq := Tbl.set [] s.dmaq ch (q ++ [x]) } : State).dmaBegin ch, none)
    else (s.setSeq r { s.seq r with holds := (s.seq r).holds ++ [.dma ch x] }, none)

/-- The HBM write of a stash row (R267): bytes and events counted (R585), or the row refused for a LOST stack with its entry
NOT_STASHED. -/
def stashWrite (s : State) (d : Nat) (x : StashRow) : State :=
  let k := (nth (x.ws.map (·.1)) 0) / 2 ^ 36
  if s.stackStatus k = 5 then
    let s1 := (s.inc (Reg.STD_REFUSED_COUNT d) 1).stashLog d x.entry 7 (x.region % 8)
    if s1.rd (Reg.STD_ENT_STATE d x.entry) = 3 then s1 else s1.notStashed d x.entry 5
  else (((s.stashEvents d x.evs).deliverAs 255 false x.ws).1).inc48 (Reg.STD_WR_LO_COUNT d) (Reg.STD_WR_HI_COUNT d) x.ws.length

/-! ### MOVE (R296) -/

/-- The first elements of a list in groups of 64, by granule, for the waves of R296. -/
def moveWaves (us : List Nat) : List (List Nat) :=
  let gs := us.foldl (fun (acc : Tbl Unit × List Nat) u =>
    if (acc.1.any fun p => p.1 == u / 4) then acc else (Tbl.put acc.1 (u / 4) (), acc.2 ++ [u / 4])) ([], [])
  chunks 64 gs.2 (cdiv gs.2.length 64)

/-- Whether a MOVE touches only the banks of cluster `k`. -/
def movedInBanks (m : Moved) (k : Nat) : Bool :=
  let own := fun a => match place a with | .sp z _ => z == k | _ => false
  m.units.all (fun u => own (64 * u)) && (movedTo m).all own

/-- The occupancy of a MOVE with a remote or accumulator side (R296): the bytes that cross, and the window rows, whichever take longer. -/
def movedOcc (m : Moved) (k : Nat) : Nat :=
  let far := fun a => destOf a != k
  let out := if m.accs.isEmpty then (m.bytes.filter fun p => far p.1).length
    else (m.accs.filter fun p => far p.1).length * elemBytes m.fmt
  let inn := if m.units.any (farUnit k) then m.srcB else 0
  max 1 (max (max (portSpan k m.units) (portSpan k (distinct ((movedTo m).map (· / 64))))) (max (cdiv inn 64) (cdiv out 64)))

/-- Whether reads and writes of window rows meet at one accumulator port of cluster `k`. -/
def samePort (k : Nat) (us outs : List Nat) : Bool :=
  (List.range 4).any fun m => !(portRows k m us).isEmpty && !(portRows k m outs).isEmpty

/-- A MOVE issued in one cluster goes on in ic `t` with the bytes of fetch `fid`; its writes begin in ic `t0` at the earliest. -/
def takeMv (s : State) (r c t fid t0 : Nat) (op : MvOp) : State :=
  let k := cix r c
  match op with
  | .move i e rt ct =>
    let m := dmaOf (s.seq r).param i
    let mv := (s.seen r fid).movePart r c (Xfer.queued r i e rt ct)
    let s1 := (s.dropFetch r fid).moveEvents k mv.evs
    let start := max t t0
    let acc := if mv.accs.isEmpty then none else some mv.fmt
    let ws := if mv.accs.isEmpty then mv.bytes else mv.accs
    let waves := if movedInBanks mv k then
        (moveWaves (ws.map (·.1 / 64))).map fun g => ws.filter fun q => g.contains (q.1 / 256)
      else (windowWaves k (distinct (ws.map (·.1 / 64)))).map fun us => ws.filter fun q => us.contains (q.1 / 64)
    let s2 := (waves.zipIdx).foldl (fun (z : State) p => z.writeAt r c (start + p.2) 8 acc p.1) s1
    if m.evtEn then s2.pend r (start + waves.length) 9 c (.event 4 m.evtRegion m.evtCtr 1) else s2
  | _ => s.dropFetch r fid

/-- MOVE (R296, R301, R303) in one cluster. A read wave is taken in its own ic; with a remote or accumulator side the writes begin with the
last read wave, or after it where both meet at one accumulator port, and source bytes from outside the cluster are waited for (DESIGN
CHOICE, log 22). -/
def move (s : State) (r c t i e rt ct : Nat) : OpR :=
  let k := cix r c
  if !s.moveOk r i e || (dmaOf (s.seq r).param i).stashEn then s.opFault 0x50 4 c
  else if t < (s.clu k).move then s.opFault 0x4F 4 c
  else
    let mv := s.movePart r c (Xfer.queued r i e rt ct)
    let outs := distinct ((movedTo mv).map (· / 64))
    let inB := movedInBanks mv k
    let waves := if inB then (moveWaves mv.units).map fun g => mv.units.filter fun u => g.contains (u / 4)
      else windowWaves k (distinct mv.units)
    let n := waves.length
    let w := (moveWaves ((movedTo mv).map (· / 64))).length
    let both := samePort k mv.units outs
    let t0 := if inB || both then t + n else t + n - 1
    let fin := if inB then t + n + w else if both then max (t + movedOcc mv k) (t0 + portSpan k outs) else t + movedOcc mv k
    match s.windowBusy r t ((mv.units ++ outs).map (64 * ·)) with
    | some p => s.muFaultIn r (p.1 % 8) p.2.1 1 p.2.2 4 t
    | none => thenOp (thenOp (s.portUse r c t t 4 mv.units) fun u => u.portUse r c t t0 4 outs) fun s1 =>
      let s2 := s1.fetch r c t 4 waves (t + n - 1) 0 fun fid => .takeMv fid t0 (.move i e rt ct)
      ((s2.setClu k { s2.clu k with move := fin }).untilIc r (if inB then fin + 16 else fin - 1), none)

end State
end Sys2Proof.Machine
end

