-- ==== Sys2Proof/Machine/Shears.lean ====
section
/-!
DEFINITION. Shears and Graft (spec/08): the issue of a pass, ranking, pruning, growth, remasking, and the re-encoding of a
tile group.
-/

namespace Sys2Proof.Machine

/-- N and M of a TARGET (Table 8.2): NM24, NM14, NM28. -/
def targetNM : Nat → Nat × Nat
  | 1 => (2, 4) | 2 => (1, 4) | _ => (2, 8)

/-- Whether key `a` of position `p` ranks above or level with key `b` of position `q` (R224). -/
def ranksAbove (a : FVal) (p : Nat) (b : FVal) (q : Nat) : Bool :=
  if FVal.magLt b a then true else if FVal.magLt a b then false else decide (p ≤ q)

/-- Positions in rank order, highest first. -/
def rankBy (key : Nat → FVal) (l : List Nat) : List Nat :=
  ((l.map fun p => (p, key p)).mergeSort fun a b => ranksAbove a.2 a.1 b.2 b.1).map (·.1)

/-- The scope instances of Table 8.3 in order, each as its positions inside the logical window; one wholly outside it is empty. -/
def instances (scope : Nat) (win : Nat × Nat) : List (List Nat) :=
  let inWin := fun (l : List Nat) => l.filter fun p => decide (p / 64 < win.1) && decide (p % 64 < win.2)
  let all := match scope with
    | 0 => [List.range 4096]
    | 1 => (List.range 64).map fun r => (List.range 64).map fun c => 64 * r + c
    | 2 => (List.range 64).map fun c => (List.range 64).map fun r => 64 * r + c
    | 3 => (List.range 1024).map fun g => (List.range 4).map fun i => 4 * g + i
    | _ => (List.range 512).map fun g => (List.range 8).map fun i => 8 * g + i
  all.map inWin

/-- The choice a pass makes on one tile: the structural positions, those grown, and the counts of R226 to R233. -/
structure Choice where
  cur       : List Nat
  grown     : List Nat
  pruned    : Nat
  nGrown    : Nat
  shortfall : Nat
  nans      : Nat
  room      : Nat
  deriving DecidableEq, Repr

/-- The growable count of R228 for candidates `cs` with structural positions `cur`. -/
def growable (target : Nat) (cs cur : List Nat) : Nat :=
  if target = 0 then cs.length
  else
    let nm := targetNM target
    (((cs.map (· / nm.2)).eraseDups).map fun g =>
      min ((cs.filter fun p => p / nm.2 == g).length) (nm.1 - (cur.filter fun p => p / nm.2 == g).length)).foldl (· + ·) 0

/-- `g` candidates grown in rank order, skipping full groups (R228, R231): the structural and the grown positions. -/
def growIn (target g : Nat) : List Nat → List Nat × List Nat × Nat → List Nat × List Nat × Nat
  | [], st => st
  | p :: ps, st =>
    let nm := targetNM target
    if g ≤ st.2.2 then st
    else if target ≠ 0 ∧ nm.1 ≤ (st.1.filter fun q => q / nm.2 == p / nm.2).length then growIn target g ps st
    else growIn target g ps (p :: st.1, p :: st.2.1, st.2.2 + 1)

/-- The operation of a pass on one instance (R227, R231, R233): `crit` ranks entries, `cand` ranks candidates and is none for
a non-finite gradient, `start` are the structural positions at the start of the pass. -/
def passInstance (sr : ShearsRec) (crit : Nat → FVal) (cand : Nat → Option FVal) (start : List Nat) (ch : Choice)
    (inst : List Nat) : Choice :=
  let here := inst.filter fun p => ch.cur.contains p
  let odd := (here.filter fun p => (crit p).isNan).length
  if sr.op = 1 then
    let drop := (rankBy crit here).drop sr.count
    { ch with cur := ch.cur.filter fun p => !drop.contains p, pruned := ch.pruned + drop.length, nans := ch.nans + odd }
  else
    let free := inst.filter fun p => !start.contains p
    let nans := (free.filter fun p => (cand p).isNone).length
    let cs := free.filter fun p => (cand p).isSome && !ch.cur.contains p
    let gk := growable sr.target cs ch.cur
    let ranked := rankBy (fun p => (cand p).getD .zero) cs
    if sr.op = 2 ∨ sr.op = 3 then
      let g := min (min sr.count gk) ch.room
      let x := growIn sr.target g ranked (ch.cur, ch.grown, 0)
      { ch with cur := x.1, grown := x.2.1, nGrown := ch.nGrown + x.2.2, shortfall := ch.shortfall + (sr.count - g),
                nans := ch.nans + nans, room := ch.room - g }
    else
      let n := min (min sr.count here.length) gk
      let drop := (rankBy crit here).drop (here.length - n)
      let cur := ch.cur.filter fun p => !drop.contains p
      let x := growIn sr.target n ranked (cur, ch.grown, 0)
      { ch with cur := x.1, grown := x.2.1, pruned := ch.pruned + n, nGrown := ch.nGrown + x.2.2,
                shortfall := ch.shortfall + (sr.count - n), nans := ch.nans + nans + odd }

/-- The choice of a whole pass on one tile. -/
def choose (sr : ShearsRec) (crit : Nat → FVal) (cand : Nat → Option FVal) (start : List Nat) (scount : Nat)
    (win : Nat × Nat) : Choice :=
  let max' := if sr.maxcnt = 0 then 4096 else sr.maxcnt
  let ch : Choice := ⟨start, [], 0, 0, 0, 0, max' - scount⟩
  if sr.op = 6 then ch
  else if sr.op = 0 then
    let th := f32 sr.thresh
    let drop := start.filter fun p => (crit p).isNan || FVal.lt (crit p).abs th
    { ch with cur := start.filter fun p => !drop.contains p, pruned := drop.length,
              nans := (start.filter fun p => (crit p).isNan).length }
  else (instances sr.scope win).foldl (passInstance sr crit cand start) ch

/-- N:M excess dropped (R183): the kept positions and how many were dropped. -/
def dropExcess (target : Nat) (mag : Nat → FVal) (pos : List Nat) : List Nat × Nat :=
  if target = 0 then (pos, 0)
  else
    let nm := targetNM target
    let out := ((pos.map (· / nm.2)).eraseDups).flatMap fun g =>
      (rankBy mag (pos.filter fun p => p / nm.2 == g)).drop nm.1
    (pos.filter fun p => !out.contains p, out.length)

/-- Codes and half-row scales of one array of a group (R181, R232): kept entries copied, grown ones from `init`, events of the
conversions. -/
def arrayValues (s : State) (t : Tile) (kept grown : List Nat) (init : Nat) : List (Nat × Nat) × List Nat × List Ev :=
  let slot := fun p => ((t.live.find? fun e => 64 * e.row + e.col == p).map (·.slot)).getD 0
  let v := f32 init
  let keptCodes := kept.map fun p => (p, t.code s (slot p))
  if isBlock t.vfmt then
    let halves := (List.range 128).map fun h =>
      let ks := kept.filter fun p => 2 * (p / 64) + p % 64 / 32 == h
      let gs := grown.filter fun p => 2 * (p / 64) + p % 64 / 32 == h
      if !ks.isEmpty then
        let sc := t.scale s (h / 2) (32 * (h % 2))
        let cs := gs.map fun p => (p, blockElem t.vfmt sc .rne v)
        (cs.map (fun q => (q.1, q.2.1)), sc, cs.flatMap (fun q => q.2.2))
      else if gs.isEmpty then ([], 0, [])
      else
        let cv := convBlock t.vfmt (gs.map fun _ => (v, .rne))
        (gs.zip cv.2.1, cv.1, cv.2.2)
    (keptCodes ++ halves.flatMap (·.1), halves.map (·.2.1), halves.flatMap (·.2.2))
  else
    let c := roundElem (efmt t.vfmt) .rne true v
    (keptCodes ++ grown.map (fun p => (p, c.1)), [], grown.flatMap fun _ => c.2)

namespace State

/-- The bytes of the index sections of a tile (Table 6.4), without their padding. -/
def indexBytes (s : State) (t : Tile) : List Nat :=
  ((indexSections t.tfmt t.scount t.masked).foldl (fun (acc : Nat × List Nat) n =>
    (acc.1 + pad16 n, acc.2 ++ s.peeks acc.1 n)) (t.addr + 16, [])).2

/-- Whether two tiles of a group are aligned (R219). -/
def aligned (s : State) (w c : Tile) : Bool :=
  !c.bad && c.tfmt == w.tfmt && c.scount == w.scount && c.masked == w.masked && c.trunc == w.trunc && c.ver == w.ver &&
    s.indexBytes w == s.indexBytes c

/-- A group left unchanged (R220, R222; the ic is that of Table 8.4 in which the group is refused): its count, flag and log entry, and the fault where it is enabled. `kind` 1 capacity,
2 malformed weight tile, 3 companion mismatch. -/
def refuseGroup (s : State) (r c t tileNo kind : Nat) : OpR :=
  let k := cix r c
  let s1 := match kind with
    | 1 => (s.inc (Reg.SH_CAP_REFUSED_COUNT k) 1).wr (Reg.SH_STAT_CAP k) 1
    | 2 => (s.inc (Reg.SH_TILE_MALFORMED_COUNT k) 1).wr (Reg.SH_STAT_TILE k) 1
    | _ => (s.inc (Reg.SH_COMP_MISMATCH_COUNT k) 1).wr (Reg.SH_STAT_COMP k) 1
  let s2 := s1.logPush 4 (fun n => [Reg.SH_REFUSE_LOG_TILE k n, Reg.SH_REFUSE_LOG_KIND k n, Reg.SH_REFUSE_LOG_VALID k n])
    [tileNo, kind, 1]
  let en := match kind with
    | 1 => s.on (Reg.SH_FAULT_EN_CAP k)
    | 2 => s.on (Reg.SH_FAULT_EN_TILE k)
    | _ => s.on (Reg.SH_FAULT_EN_COMP k)
  if en then s2.shFault r c (match kind with | 1 => 3 | 2 => 1 | _ => 2) 3 t else (s2, none)

/-- SH.PASS in one cluster (R234, R235): the groups are put at their starts. A pass of no tile is a no-op (R98). -/
def shPass (s : State) (r c t i : Nat) : OpR :=
  let k := cix r c
  let sr := shearsOf (s.seq r).param i
  if !hasRec (s.seq r).param 3 i then s.opFault 0x50 3 c
  else if t < (s.clu k).shears then s.shFault r c 4 3 t
  else if sr.tcount = 0 then (s, none)
  else
    let s1 := s.setClu k { s.clu k with shears := t + 16 * sr.tcount + 36 }
    let s2 := (List.range sr.tcount).foldl (fun u n => u.pend r (t + 16 * n) 0 c (.group i n)) s1
    (s2.setSeq r { s2.seq r with last := max (s2.seq r).last (t + 16 * sr.tcount + 36) }, none)

/-- The place of tile group `n` of a pass: its number, pointer-list entry, tile row and tile column (R216). -/
def groupPlace (sr : ShearsRec) (d : Desc) (n : Nat) : Nat × Nat × Nat × Nat :=
  let cols := cdiv (d.ext 0) 64
  let per := max 1 (cdiv (d.ext 1) 64 * cols)
  let no := sr.tfirst + n
  (no, no / per, no % per / max 1 cols, no % per % max 1 cols)

/-- The tiles of a group, the weight's first, as a state shows them. -/
def groupTiles (s : State) (r c : Nat) (sr : ShearsRec) (e tr tc : Nat) : List Tile :=
  (sr.wdesc :: sr.cdesc.take sr.ncomp).map fun j => (bodyTile s (s.view r c j e) tr tc).getD { Tile.zero with bad := true }

/-- A group of a pass starts in ic `t` (Table 8.4): its slots are in use for 52 ic, the weight's wave is read in ic t, the companions' after
it and the gradient's in ic t + 4, and the group is judged in ic t + 12. -/
def shGroup (s : State) (r c t i n : Nat) : State :=
  let k := cix r c
  let sr := shearsOf (s.seq r).param i
  let d := descOf (s.seq r).param sr.wdesc
  let g := groupPlace sr d n
  let tiles := s.groupTiles r c sr g.2.1 g.2.2.1 g.2.2.2
  let win := window d g.2.2.1 g.2.2.2
  let gv := s.view r c sr.gdesc g.2.1
  let grad := if sr.op == 2 || sr.op == 4 then distinct ((List.range 4096).flatMap fun p =>
      if p / 64 < win.1 ∧ p % 64 < win.2 then
        [(elemPlace gv (gv.d.idx (64 * g.2.2.1 + p / 64) (64 * g.2.2.2 + p % 64))).1 / 64] else []) else []
  let waves := (List.range 4).map (fun j => match tiles[j]? with | some z => z.units | none => []) ++ [grad]
  let cl := s.clu k
  let groups := (cl.groups.filter fun z => decide (t < z.1 + 52)) ++ tiles.map fun z => (t, z.addr / 64, (z.addr + z.cap) / 64)
  (s.setClu k { cl with groups := groups }).fetch r c t 3 waves (t + 12) 0 fun fid => .takeGroup fid i n

/-- The treatment of a group that started in ic `t`, whose slots and gradient `d` shows (R219 to R233, Table 8.4). -/
def groupTake (s d : State) (r c t i n : Nat) : OpR :=
  let k := cix r c
  let q := s.seq r
  let sr := shearsOf q.param i
  let ds := descOf q.param sr.wdesc
  let g := groupPlace sr ds n
  let no := g.1
  let e := g.2.1
  let tr := g.2.2.1
  let tc := g.2.2.2
  let tiles := d.groupTiles r c sr e tr tc
  let wt := tiles.getD 0 Tile.zero
  let win := window ds tr tc
  let gv := s.view r c sr.gdesc e
  let usesG := sr.op == 2 || sr.op == 4
  let gpos := fun p => (64 * tr + p / 64, 64 * tc + p % 64)
  let s2 := s.inc (Reg.SH_TILES_DONE_COUNT k) 1
  if wt.bad then s2.refuseGroup r c (t + 12) no 2
  else if tiles.any fun z => !d.aligned wt z then s2.refuseGroup r c (t + 12) no 3
  else
    let start := (wt.live.map fun z => 64 * z.row + z.col)
    let st := tiles.getD sr.src wt
    let value := fun (z : Tile) p => match z.live.find? fun y => 64 * y.row + y.col == p with
      | some y => z.value d y
      | none => FVal.zero
    let key := s.streamOf r sr.stream sr.blkOff
    let span := ds.entries * (ds.ext 1 * ds.ext 0)
    let off := key.2.2 + nth q.slice c * cdiv span 4
    let cand := fun p =>
      if usesG then
        let x := readCode d gv (gv.d.idx (gpos p).1 (gpos p).2)
        let v := decodeFmt gv.d.fmt x.1 x.2
        if v.isFinite then some v else none
      else some (FVal.fin false (drawWord key.1 key.2.1 off (e * (ds.ext 1 * ds.ext 0) + (gpos p).1 * ds.ext 0 + (gpos p).2)) 0)
    let ch := choose sr (value st) cand start wt.scount win
    let s3 := s2.inc (Reg.SH_NAN_CNT_COUNT k) ch.nans
    let same := ch.cur.length == start.length && ch.cur.all fun p => start.contains p
    if same && sr.op != 6 then
      (((s3.inc (Reg.SH_PRUNED_COUNT k) ch.pruned).inc (Reg.SH_GROWN_COUNT k) ch.nGrown).inc (Reg.SH_SHORTFALL_COUNT k)
        ch.shortfall, none)
    else
      let mag := fun p => if ch.grown.contains p then
          (let a := arrayValues d wt [] [p] (nth sr.init 0)
           decodeFmt wt.vfmt (nth (a.1.map (·.2)) 0) (if isBlock wt.vfmt then nth a.2.1 (2 * (p / 64) + p % 64 / 32) else 127))
        else value wt p
      let ex := dropExcess sr.target mag (ch.cur.mergeSort fun a b => decide (a ≤ b))
      let pos := ex.1
      let kept := pos.filter fun p => !ch.grown.contains p
      let grown := pos.filter fun p => ch.grown.contains p
      let tfmt := if pos.isEmpty then 0 else if sr.target = 0 then chooseFormat pos wt.vfmt else sr.target + 1
      let changed := !(pos.length == start.length && pos.all fun p => start.contains p)
      let ver := if changed then wt.ver + 1 else wt.ver
      let arrs := (tiles.zip sr.init).map fun z =>
        let a := arrayValues d z.1 kept grown z.2
        (z.1, encodeTile tfmt z.1.vfmt (decide (0 < ex.2)) ver (a.1.mergeSort fun u v => decide (u.1 ≤ v.1)) a.2.1, a.2.2)
      if arrs.any fun z => decide (z.1.cap < z.2.1.length) then (s3.pend r (t + 31) 7 c (.refuse no 1), none)
      else
        let evs := arrs.flatMap fun z => z.2.2
        let s4 := s3.inc (Reg.SH_PRUNED_COUNT k) ch.pruned |>.inc (Reg.SH_GROWN_COUNT k) ch.nGrown
          |>.inc (Reg.SH_SHORTFALL_COUNT k) ch.shortfall |>.inc (Reg.SH_NM_EXCESS_COUNT k) ex.2
          |>.inc (Reg.SH_SAT_CNT_COUNT k) (evs.filter fun z => z == .sat).length
          |>.inc (Reg.SH_UFLOW_CNT_COUNT k) (evs.filter fun z => z == .uflow).length
        let s5 := if 0 < ex.2 then s4.wr (Reg.SH_STAT_TRUNC k) 1 else s4
        ((arrs.zipIdx).foldl (fun (z : State) a =>
          let w := recordWrites a.1.1.addr a.1.2.1
          let late := if a.2 = 0 then (t + 40, t + 44) else (t + 36 + a.2, t + 40 + a.2)
          (z.writeAt r c late.1 7 none w.1).writeAt r c late.2 7 none w.2) s5, none)

/-- The bytes of a group have come in ic `t`, 12 ic after its start. -/
def takeGroup (s : State) (r c t fid i n : Nat) : OpR := (s.dropFetch r fid).groupTake (s.seen r fid) r c (t - 12) i n

end State
end Sys2Proof.Machine
end

