-- ==== Sys2Proof/Machine/Seq.lean ====
section
/-!
DEFINITION. The region sequencers (R282, R283, R299 to R307): issue of a bundle, the work that acts at later ic, holds and
stretches, faults and aborts, and the tick that an empty queue gives.
-/

namespace Sys2Proof.Machine

/-- No launch. -/
def noLaunch : Launch := ⟨0, 0, 0, 0, false, false, false, 0, 0, [], [], [], [], [], 0, 0, 0, none, false, false, false, none⟩

/-- Replaces one bit of a number. -/
def setBit (n i : Nat) (b : Bool) : Nat := putBits n i 1 (b2n b)

namespace State

/-- Launch number `n`. -/
def launch (s : State) (n : Nat) : Launch := Tbl.get noLaunch s.launches n
/-- Launch number `n` replaced; `noLaunch` removes it. -/
def setLaunch (s : State) (n : Nat) (x : Launch) : State := { s with launches := Tbl.set noLaunch s.launches n x }

/-- The records of R91 of launch `n` dropped. -/
def dropAliased (s : State) (n : Nat) : State := { s with aliased := s.aliased.filter fun p => (p.2.store - 1) / 256 != n }

/-- Whether the region's sequencer has work: a launch whose bundle 0 has issued. -/
def active (s : State) (r : Nat) : Bool := (s.seq r).launch.isSome && (s.seq r).started

/-- Whether the sequencer issues its next bundle: running, not halted or stopped, not held (R302), not halted by debug (R575). -/
def issuing (s : State) (r : Nat) : Bool :=
  let q := s.seq r
  s.active r && !q.halted && !q.stopped && q.holds.isEmpty && !(s.rd Reg.DBG_HALT_MASK).testBit r

/-! ### Writes in flight (R305) -/

/-- Whether a remote access is committed to before the ingress of region `r` closed (R508): sent before, or of a DMA transfer, which commits
at its start. -/
def committed (s : State) (r : Nat) (w : Remote) : Bool := decide (w.wid < s.rd (In.gateFrom r)) || decide (32 ≤ w.src)

/-- Whether an access from outside is held at the crossings of region `r`: gated, or entering the gated state (R508, R509). -/
def closed (s : State) (r : Nat) (w : Remote) : Bool :=
  (s.rd Reg.PWR_RSTATE_GATED).testBit r || s.on (In.gateDrain r) && !s.committed r w

/-- Whether a fence scope of Table 10.15 covers destination `d` (a cluster, or 256 plus a stack) of a write that region `r`
issued to another cluster or to HBM. -/
def covers (scope r d : Nat) : Bool :=
  match scope with
  | 0 => false
  | 1 => false
  | 2 => decide (d < 256 ∧ d / 8 = r)
  | 3 => decide (d < 256 ∧ d / 64 = r / 8 ∨ 256 ≤ d ∧ d < 268 ∧ (d - 256) / 3 = r / 8)
  | _ => true

/-- Whether a write numbered below `upto` that a scope covers is still on its way for region `r` (R305, R306). -/
def outstanding (s : State) (r scope upto : Nat) : Bool :=
  (s.remotes.any fun w => w.src == r && w.fetch.isNone && decide (w.wid < upto) && covers scope r w.cl) ||
    (decide (3 ≤ scope) && (Tbl.get [] s.stashq (r / 8)).any fun w => w.region == r && decide (w.wid < upto))

/-- Whether a FENCE of region `r` still waits (R305): for a write that its scope covers, or, but at scope UNIT, for a remote read. -/
def fenced (s : State) (r scope upto : Nat) : Bool :=
  s.outstanding r scope upto ||
    (decide (0 < scope) && s.remotes.any fun w => w.src == r && w.fetch.isSome && decide (w.wid < upto))

/-- Whether anything that region `r` sent is still on its way: remote accesses, stash rows, transfers (R16, R282). -/
def inFlight (s : State) (r : Nat) : Bool :=
  (s.remotes.any fun w => w.src == r) || ((Tbl.get [] s.stashq (r / 8)).any fun w => w.region == r) ||
    s.dmaq.any fun p => p.2.any fun x => x.region == r

/-! ### Faults and stops (R117, R307) -/

/-- A region stopped at its next bundle boundary (R307): holds end, Shears groups not yet started are dropped. -/
def stopRegion (s : State) (r : Nat) : State :=
  let q := s.seq r
  if q.launch.isNone then s
  else
    let keep := q.pend.filter fun p => match p.act with | .group _ _ => false | _ => true
    (s.setSeq r { q with stopped := true, holds := [], ended := q.ended ++ q.holds, pend := keep }).wr (Reg.SQ_STAT_STATE r) 4

/-- The queued transfers of a launch discarded; the one in progress finishes (R307; all of it, DESIGN CHOICE, log 37). -/
def dropXfers (s : State) (regions : Nat) : State :=
  { s with dmaq := Tbl.mapv [] (fun q => q.take 1 ++ (q.drop 1).filter fun x => !regions.testBit x.region) s.dmaq }

/-- Every region of a launch stopped. -/
def stopLaunch (s : State) (n : Nat) : State :=
  let l := s.launch n
  (setBits l.regions 32).foldl (fun t r => t.stopRegion r) (s.dropXfers l.regions)

/-- The pages and zero maps of a faulting region emptied (R201). -/
def dropPages (s : State) (r : Nat) : State :=
  (List.range 32).foldl (fun t i =>
    let k := 8 * r + i / 4
    let x := t.muOf k (i % 4)
    t.setMu k (i % 4) { x with pages := [], zmaps := [] }) s

/-- A fault of region `r` in ic `t`, met by bundle `b` (R117, R282, Table 10.20): recorded, kept as the launch's fault if it is the first
and no abort came before, and every region of the launch stopped. -/
def regionFaultIn (s : State) (r t b : Nat) (f : Flt) : State :=
  let q := s.seq r
  let s1 := s.wrs [(Reg.SQ_FAULT_CODE r, f.sq), (Reg.SQ_FAULT_SLOT r, f.slot), (Reg.SQ_FAULT_CLUSTER r, f.cl),
    (Reg.SQ_FAULT_BUNDLE r, b), (Reg.SQ_FAULT_IC_COUNT r, t)]
  match q.launch with
  | none => s1
  | some n =>
    let l := s1.launch n
    let s2 := if l.fault.isNone && !l.aborted then s1.setLaunch n { l with fault := some ⟨f.code, r, f.cl, b, t⟩ }
      else s1
    (s2.stopLaunch n).dropPages r

/-- A fault of the bundle that issued last. -/
def regionFault (s : State) (r t : Nat) (f : Flt) : State := s.regionFaultIn r t (s.seq r).cur f

/-! ### Acts -/

/-- The slot (Table 10.5) of the unit whose rank is `k`. -/
def rankSlot (k : Nat) : Nat := if k ≤ 4 then 0 else k - 4

/-- Writes of the units of cluster `c` of region `r` leave in ic `t`: its own banks and windows take theirs at once, the rest
starts on its way (R116, R130, R301). What an uncorrectable row turns away is not written, and stage 4 faults the launch (R117). -/
def landWrites (s : State) (r c t rank : Nat) (accFmt : Option Nat) (ws : List (Nat × Nat)) : State :=
  let k := cix r c
  let own := ws.filter fun p => destOf p.1 == k
  let far := ws.filter fun p => destOf p.1 != k
  let x := s.checkWrites own
  let good := keepGood x.2.1 own
  let s1 := match accFmt with
    | none =>
      let y := x.1.inOrder good
      let bs := y.1.settle y.2
      (y.1.pokes bs).inject (bs.map Prod.fst)
    | some f => x.1.accums f good
  let s2 := s1.wave r k t (rank == 7) [] (bankUnits k (distinct (own.map fun p : Nat × Nat => p.1 / 64))) []
  let s3 := (s2.noteRebuilds r t x.2.2).sendRemote r k accFmt far
  if x.2.1.isEmpty then s3 else s3.ue r c t (rankSlot rank)

/-- The capture of a read wave; slot 6 is a Sieve's wave during a hold, which meets no other access of its ic (R209). -/
def capture (s : State) (r c t slot fid : Nat) (us : List Nat) : State :=
  if slot = 6 then
    let x := s.checkReads (distinct (us.map (· / 4)))
    let s1 := x.1.take r fid us
    if x.2.1 then s1.ue r c t 2 else s1
  else (s.readWave r c t slot us).take r fid us

/-- A load of an operand slot issued in ic `t0` whose bytes have come. -/
def takeMu (s : State) (r c fid t0 : Nat) (op : MuOp) : State :=
  match op with
  | .load b mu slot tr qen q i e rt ct => (s.loadTake (s.seen r fid) r c t0 b mu slot tr qen q i e rt ct).dropFetch r fid
  | _ => s.dropFetch r fid

/-- One act of region `r`. -/
def runAct (s : State) (r : Nat) (p : Pend) : OpR :=
  match p.act with
  | .bytes ws => (s.landWrites r p.cl p.due p.rank none ws, none)
  | .accum f ws => (s.landWrites r p.cl p.due p.rank (some f) ws, none)
  | .vreg v ws => (s.setVreg (cix r p.cl) v ws, none)
  | .capture slot fid us => (s.capture r p.cl p.due slot fid us, none)
  | .takeMu fid t0 op => (s.takeMu r p.cl fid t0 op, none)
  | .takeVu fid t0 op => (s.takeVu r p.cl p.due fid t0 op, none)
  | .takeSv fid _ op => (s.takeSv r p.cl p.due fid op, none)
  | .takeMv fid t0 op => (s.takeMv r p.cl p.due fid t0 op, none)
  | .takeBias fid rcd e _ ct => (s.takeBias r p.cl fid rcd e ct, none)
  | .takeRow fid num mu _ rcd drec e rt ct row => (s.takeRow r p.cl p.due fid num mu rcd drec e rt ct row, none)
  | .takeGroup fid rcd n => s.takeGroup r p.cl p.due fid rcd n
  | .product op ahead => (s.runProduct r p.cl p.due ahead op, none)
  | .drainRow num mu tile rcd drec e rt ct row => (s.drainRow r p.cl p.due num mu tile rcd drec e rt ct row, none)
  | .drainMap num mu tile rcd e rt ct map => (s.drainMap r p.cl p.due num mu tile rcd e rt ct map, none)
  | .stash rcd ent e m jt row fmt vals =>
    let dr := drainOf (s.seq r).param rcd
    let d := (s.view r p.cl dr.outDesc e).d
    let str := if dr.stashRnd then some (s.streamOf r dr.stashStream dr.stashBlkOff) else none
    let xs := vals.zipIdx.map fun v => v.1.map fun y =>
      (y, rndOf str (elemIndex d e (64 * m + row) (64 * jt + v.2)))
    (s.stashRow r 0 ent m jt row fmt xs, none)
  | .group rcd n => (s.shGroup r p.cl p.due rcd n, none)
  | .refuse n kind => s.refuseGroup r p.cl p.due n kind
  | .ue slot b => (s.regionFaultIn r p.due b (Flt.of 0x40 slot p.cl), none)
  | .drops mu ds => s.pageDrops r p.cl p.due mu ds
  | .event scope dst ctr imm => ({ s with events := s.events ++ [⟨r, scope, s.wid, dst, ctr, imm⟩] }, none)

/-- Whether an act must wait for a unit of the region's stash share (R267). -/
def stashFull (s : State) (r : Nat) (p : Pend) : Bool :=
  match p.act with
  | .stash _ ent _ m jt row _ _ => s.stashTakes (r / 8) ent m jt row && decide (2048 ≤ s.stashUsed r)
  | _ => false

/-- The acts at the front of the region's list that satisfy `due`, in order, until one faults or must wait for the stash
writer; then the island is held. -/
def flush (s : State) (r : Nat) (due : Pend → Bool) : Nat → OpR
  | 0 => (s, none)
  | n + 1 =>
    let q := s.seq r
    match q.pend with
    | [] => (s, none)
    | p :: l =>
      if !due p then (s, none)
      else if s.stashFull r p && !q.stopped then (s.setSeq r { q with holds := q.holds ++ [.stash] }, none)
      else
        let x := (s.setSeq r { q with pend := l }).runAct r p
        match x.2 with
        | some f => (x.1, some f)
        | none => flush x.1 r due n

/-- Steps enough for every act that one ic can hold. -/
def fuelOf (s : State) (r : Nat) : Nat := 8 * (s.seq r).pend.length + 64

/-! ### The end of an ic -/

/-- How often each number stands in a list. -/
def tally (l : List Nat) : Tbl Nat := l.foldl (fun t b => Tbl.set 0 t b (Tbl.get 0 t b + 1)) []

/-- The extra ic of bank time of cluster `k` in the waves of one ic, max of (A_b − 1) + 2 W_b (R108, R114), and whether the
bank that sets it rebuilt a word. -/
def stretchOf (ws : List Wave) (k : Nat) : Nat × Bool :=
  let mine := ws.filter fun w => w.cl == k
  let gs := distinct (mine.flatMap fun w => w.reads.map (· / 4)) ++ mine.flatMap fun w => distinct (w.writes.map (· / 4))
  let a := tally (gs.map bankOf)
  let w := tally (mine.flatMap (·.rebuilds))
  (List.range 64).foldl (fun m b =>
    let e := (Tbl.get 0 a b - 1) + 2 * Tbl.get 0 w b
    if e > m.1 then (e, decide (Tbl.get 0 w b > 0)) else m) (0, false)

/-- The tenant whose periods a region counts (R470): that of the launch which runs there. -/
def regionUser (s : State) (r : Nat) : Nat :=
  match (s.seq r).launch with
  | some n => (s.launch n).tenant
  | none => 0xFE

/-- The stretch of ic `t` of region `r`, counted in the clusters that set it (R114, R133), and the oscillator's periods
(R351). The Sieve holds the island for `h` periods of the same ic, and it resumes once both have ended (R209). -/
def countStretch (s : State) (r t h : Nat) : State :=
  let ws := (s.seq r).waves.filter fun w => w.ic == t
  let es := (List.range 8).map fun c => (cix r c, stretchOf ws (cix r c))
  let top := es.foldl (fun m e => max m e.2.1) 0
  let held := max top h
  let s1 := (s.inc48 (Reg.CLK_PER_LO_COUNT r) (Reg.CLK_PER_HI_COUNT r) (1 + held)).charge 0 (s.regionUser r) (1 + held)
  let s2 := if held = 0 then s1 else s1.inc (Reg.CLK_HELD_COUNT r) held
  if top = 0 then s2
  else es.foldl (fun u e =>
    if e.2.1 ≠ top then u
    else u.inc (if e.2.2 then Reg.SP_STRETCH_CNT_REBUILD e.1 else Reg.SP_STRETCH_CNT_CONFLICT e.1) top) s2

/-- Whether units of cluster `k`'s window touch the slot of a Shears group in progress in ic `t` (R235). -/
def inGroup (s : State) (k t : Nat) (us : List Nat) : Bool :=
  let gs := (s.clu k).groups.filter fun g => decide (g.1 ≤ t ∧ t < g.1 + 52)
  let base := (spBase + k * spWin) / 64
  us.any fun u => gs.any fun g => decide (g.2.1 ≤ base + u ∧ base + u < g.2.2)

/-- The cluster (0 to 7) whose accesses of ic `t` touch slots of a group in progress (R235), other than the pass's own. -/
def groupHit (s : State) (r t : Nat) : Option Nat :=
  let ws := (s.seq r).waves.filter fun w => w.ic == t && !w.own
  (List.range 8).find? fun c => (ws.filter fun w => w.cl == cix r c).any fun w => s.inGroup (cix r c) t (w.reads ++ w.writes)

/-- The island goes on to the next ic, after a Sieve hold of `h` periods. The waves of the ic stay known for one ic more (R130). -/
def advance (s : State) (r h : Nat) : State :=
  let t := (s.seq r).ic
  let s1 := match s.groupHit r t with
    | some c => let x := s.shFault r c 4 3 t
      match x.2 with | some f => x.1.regionFault r t f | none => x.1
    | none => s
  let s2 := s1.countStretch r t h
  let q := s2.seq r
  (s2.setSeq r { q with ic := t + 1, waves := q.waves.filter fun w => decide (t ≤ w.ic) }).wrs
    [(Reg.SQ_IC_LO_COUNT r, t + 1), (Reg.SQ_IC_HI_COUNT r, (t + 1) / 2 ^ 32)]

/-- Whether what a hold waits for has come (Table 10.14). -/
def holdDone (s : State) (r : Nat) : Hold → Bool
  | .event ctr imm => decide (imm ≤ s.rd (Reg.SQ_EVT_VALUE r ctr))
  | .fence scope upto => upto == 0 || !s.fenced r scope (upto - 1)
  | .dma ch _ => decide ((Tbl.get [] s.dmaq ch).length < 4)
  | .stash => decide (s.stashUsed r < 2048)

/-- A transfer that waited for its channel is queued. -/
def endHold (s : State) : Hold → State
  | .dma ch x => { s with dmaq := Tbl.set [] s.dmaq ch (Tbl.get [] s.dmaq ch ++ [x]) }
  | _ => s

/-- The end of an ic in which nothing but the Sieve holds the island (R207 to R209): the hold passes, what it waited for happens, and
uncorrectable accesses fault the launch. -/
def endIc (s : State) (r : Nat) : State :=
  let t := (s.seq r).ic
  let h := s.sieveDue r t
  let s1 := (s.countSieve r t).sieveAdvance r t h
  let x := s1.flush r (fun p => decide (p.due ≤ t)) (s1.fuelOf r)
  match x.2 with
  | some f => x.1.regionFault r t f
  | none => x.1.advance r h

/-- The end of the region's current ic: its acts, then its holds (R302), then the next ic. -/
def finish (s : State) (r : Nat) : State :=
  let t := (s.seq r).ic
  let x := s.flush r (fun p => decide (p.due ≤ t ∧ p.rank < 10)) (s.fuelOf r)
  match x.2 with
  | some f => x.1.regionFault r t f
  | none =>
    let s1 := x.1
    let q := s1.seq r
    if q.holds.contains .stash then s1
    else
      let hs := q.holds.map fun h => match h with
        | .fence sc 0 => .fence sc (s1.wid + 1)
        | h => h
      let s2 := s1.setSeq r { q with holds := hs.filter fun h => !s1.holdDone r h }
      if (s2.seq r).holds.isEmpty then s2.endIc r else s2

/-! ### Slots -/

/-- The operation of the MU slot in cluster `c`, with the coordinates of R285. -/
def muSlot (s : State) (r t : Nat) (op : MuOp) (c : Nat) : OpR :=
  match op with
  | .nop => (s, none)
  | .load b mu sl tr qen q rcd e rt ct =>
    s.loadSlot r c t b mu sl tr qen q rcd (s.ixv r e) (s.ixv r rt) (s.ixv r ct)
  | .mma mu tile sa sb acc => s.mma r c t mu tile sa sb acc
  | .smma mu tile sa half acc rcd => s.smma r c t mu tile sa half acc rcd
  | .sgw mu sa sb acc zmh rcd => s.sgw r c t mu sa sb acc zmh rcd
  | .rake mu tile tile2 => s.rake r c t mu tile tile2
  | .drain mu tile rcd den drec e rt ct =>
    s.drain r c t mu tile rcd den drec (s.ixv r e) (s.ixv r rt) (s.ixv r ct)
  | .accZero mu tile => s.accZero r c t mu tile

/-- The operation of the VU slot in cluster `c`. -/
def vuSlot (s : State) (r t : Nat) (op : VuOp) (c : Nat) : OpR :=
  match op with
  | .nop => (s, none)
  | .vld vd w rcd e rt ct => s.vuLoad r c t vd w rcd (s.ixv r e) (s.ixv r rt) (s.ixv r ct)
  | .vst va w rcd e rt ct => s.vuStore r c t va w rcd (s.ixv r e) (s.ixv r rt) (s.ixv r ct)
  | .vlds vd ref rcd e rt ct => s.vuLoadSlots r c t vd ref rcd (s.ixv r e) (s.ixv r rt) (s.ixv r ct)
  | .vsts va ref last rcd e rt ct => s.vuStoreSlots r c t va ref last rcd (s.ixv r e) (s.ixv r rt) (s.ixv r ct)
  | .alu k vd va vb vc w => s.vuAlu r c t k vd va vb vc w
  | .movi vd imm => s.vuMovi r c t vd imm
  | .vtr vd va fn => s.vuTr r c t vd va fn
  | .vred m vd va vc => s.vuReduce r c t m vd va vc

/-- The operation of the Sieve slot in cluster `c`. -/
def svSlot (s : State) (r t : Nat) (op : SvOp) (c : Nat) : OpR :=
  match op with
  | .nop => (s, none)
  | .load mu half u rcd e rt ct => s.svLoad r c t mu half u rcd (s.ixv r e) (s.ixv r rt) (s.ixv r ct)
  | .zmap mu u reg kind rcd e rt ct => s.svZmap r c t mu u reg kind rcd (s.ixv r e) (s.ixv r rt) (s.ixv r ct)
  | .transpose rcd rcd2 e rt ct => s.svTranspose r c t rcd rcd2 (s.ixv r e) (s.ixv r rt) (s.ixv r ct)

/-- The operation of the Shears slot in cluster `c`. -/
def shSlot (s : State) (r t : Nat) (op : ShOp) (c : Nat) : OpR :=
  match op with
  | .nop => (s, none)
  | .pass rcd => s.shPass r c t rcd

/-- The operation of the move slot in cluster `c`; DMA.GO acts once for the region. -/
def mvSlot (s : State) (r t : Nat) (op : MvOp) (c : Nat) : OpR :=
  match op with
  | .nop => (s, none)
  | .dma rcd e rt ct => if c = 0 then s.dmaGo r rcd (s.ixv r e) (s.ixv r rt) (s.ixv r ct) else (s, none)
  | .move rcd e rt ct => s.move r c t rcd (s.ixv r e) (s.ixv r rt) (s.ixv r ct)

/-- An operation in the clusters of a list, until one faults. -/
def eachCluster (f : State → Nat → OpR) (s : State) : List Nat → OpR
  | [] => (s, none)
  | c :: cs =>
    let x := f s c
    match x.2 with
    | some e => (x.1, some e)
    | none => eachCluster f x.1 cs

/-- An index register written; IX0 ignores writes (R285). -/
def setIx (s : State) (r d v : Nat) : State :=
  if d = 0 then s else s.setSeq r { s.seq r with ix := (s.seq r).ix.set d (v % 2 ^ 32) }

/-- A jump by `imm` bundles from the current one, or SQ_ILLEGAL when it leaves the kernel (R299). -/
def jump (s : State) (r : Nat) (imm : Int) : OpR :=
  let q := s.seq r
  let n : Int := q.cur + imm
  if 0 ≤ n ∧ n < (q.kern.length : Int) then (s.setSeq r { q with next := n.toNat }, none) else s.opFault 0x4F 5 0

/-- The control slot (Table 10.13). The next bundle is already the one that follows. -/
def control (s : State) (r t : Nat) (op : CtOp) : OpR :=
  let q := s.seq r
  match op with
  | .nop => (s, none)
  | .halt => ((s.setSeq r { q with halted := true }).wr (Reg.SQ_STAT_STATE r) 3, none)
  | .jmp imm => s.jump r imm
  | .bnz a imm => if s.ixv r a ≠ 0 then s.jump r imm else (s, none)
  | .bz a imm => if s.ixv r a = 0 then s.jump r imm else (s, none)
  | .ixset d imm => (s.setIx r d (unsext 32 imm), none)
  | .ixadd d a imm => (s.setIx r d (s.ixv r a + unsext 32 imm), none)
  | .ixldp d imm =>
    if imm < 0 ∨ (q.param.length : Int) < 4 * imm + 4 then s.opFault 0x4F 5 0
    else (s.setIx r d (blk q.param (4 * imm.toNat) 4), none)
  | .decbnz d imm =>
    let v := (s.ixv r d + (2 ^ 32 - 1)) % 2 ^ 32
    let s1 := s.setIx r d v
    if v ≠ 0 then s1.jump r imm else (s1, none)
  | .evinc ctr dst scope imm =>
    match q.launch with
    | none => (s, none)
    | some n =>
      if s.rd (Reg.TEN_REGION_OWNER dst) ≠ (s.launch n).tenant then s.opFault 0x52 5 0
      else (s.pend r t 9 0 (.event scope dst ctr imm), none)
  | .evset ctr dst imm => if dst ≠ r then s.opFault 0x4F 5 0 else (s.wr (Reg.SQ_EVT_VALUE r ctr) imm, none)
  | .evwait ctr dst imm =>
    if dst ≠ r then s.opFault 0x4F 5 0
    else if imm ≤ s.rd (Reg.SQ_EVT_VALUE r ctr) then (s, none)
    else (s.setSeq r { q with holds := q.holds ++ [.event ctr imm] }, none)
  | .fence scope => (s.setSeq r { q with holds := q.holds ++ [.fence scope 0] }, none)

/-- The six slots of a bundle in ic `t` (R284): every slot reads the index registers as they stood before the bundle. -/
def slots (s : State) (r t : Nat) (b : Bundle) : OpR :=
  let cs := List.range 8
  thenOp (thenOp (thenOp (thenOp (thenOp (eachCluster (fun u c => u.muSlot r t b.mu c) s cs)
    fun u => eachCluster (fun u c => u.vuSlot r t b.vu c) u cs)
    fun u => eachCluster (fun u c => u.svSlot r t b.sv c) u cs)
    fun u => eachCluster (fun u c => u.shSlot r t b.sh c) u cs)
    fun u => eachCluster (fun u c => u.mvSlot r t b.mv c) u cs)
    fun u => u.control r t b.ct

/-- A bundle issued in the region's current ic, or the slot whose code is illegal (R283). -/
def issue (s : State) (r : Nat) (b : Except Nat Bundle) : State :=
  let q := s.seq r
  let t := q.ic
  let s0 := s.setSeq r { q with cur := q.next, next := q.next + 1 }
  let x := s0.flush r (fun p => decide (p.due < t ∨ p.due = t ∧ p.rank = 0)) (s0.fuelOf r)
  let y := thenOp x fun u => match b with
    | .error k => u.opFault 0x4F k 0
    | .ok b => u.slots r t b
  match y.2 with
  | some f => y.1.regionFault r t f
  | none => y.1.finish r

/-- The kernel's next bundle issued (R299): reaching bundle KLEN without HALT is illegal. -/
def issueKernel (s : State) (r : Nat) : State :=
  let q := s.seq r
  match q.kern[q.next]? with
  | some w => s.issue r (decodeBundle w)
  | none => (s.setSeq r { q with cur := q.next }).regionFault r q.ic (Flt.of 0x4F 5 0)

/-- Whether every slot of a bundle holds a legal operation, or the first that does not. -/
def legal (b : Bundle) : Except Nat Bundle :=
  if !b.mu.ok then .error 0 else if !b.vu.ok then .error 1 else if !b.sv.ok then .error 2
  else if !b.ct.ok then .error 5 else .ok b

/-- A command that names an operation: the region issues a bundle of it alone in its current ic. A region that issues nothing
(no launch, halted, stopped or held) takes no operation. -/
def issueOp (s : State) (r : Nat) (b : Bundle) : State := if s.issuing r then s.issue r (legal b) else s

/-- Whether a halted or stopped region still has result ic to pass. -/
def draining (s : State) (r : Nat) : Bool :=
  let q := s.seq r
  s.active r && (q.halted || q.stopped) && q.holds.isEmpty && (!q.pend.isEmpty || decide (q.ic ≤ q.last))

/-- One ic of one region: its kernel's next bundle, or a step towards its last result ic. -/
def tickRegion (s : State) (r : Nat) : State :=
  if s.issuing r then s.issueKernel r else if s.draining r then s.finish r else s

/-- A period of the oscillator of an island on which no launch runs (R351). -/
def idlePeriod (s : State) (r : Nat) : State :=
  if s.awake && (s.seq r).launch.isNone && s.rd (Reg.CLK_ISL_STATE r) == 0 then
    s.inc48 (Reg.CLK_PER_LO_COUNT r) (Reg.CLK_PER_HI_COUNT r) 1
  else s

/-- One ic of every region that has work, and one period of every island that idles (log 3). -/
def tick (s : State) : State :=
  (List.range 32).foldl (fun t r => t.idlePeriod r) ((s.seqs.map (·.1)).foldl (fun t r => t.tickRegion r) s)

/-! ### Completion of holds and events -/

/-- The periods of holds counted where Table 10.14 says, and as held periods of the oscillator (R351). -/
def countHolds (s : State) (r periods : Nat) (hs : List Hold) : State :=
  let c := fun (u : State) (b : Bool) (f : Fld) => if b then u.inc f periods else u
  let s1 := c s (hs.any fun h => match h with | .event _ _ => true | _ => false) (Reg.SQ_HOLD_EVT_COUNT r)
  let s2 := c s1 (hs.any fun h => match h with | .fence _ u => u != 0 | _ => false) (Reg.SQ_HOLD_FENCE_COUNT r)
  let s3 := c s2 (hs.any fun h => match h with | .dma _ _ => true | _ => false) (Reg.SQ_HOLD_DMA_COUNT r)
  let s4 := c s3 (hs.contains .stash) (Reg.STD_HOLD_CNT_COUNT (r / 8) (r % 8))
  ((s4.inc (Reg.CLK_HELD_COUNT r) periods).inc48 (Reg.CLK_PER_LO_COUNT r) (Reg.CLK_PER_HI_COUNT r) periods).charge 0
    (s.regionUser r) periods

/-- HOLD_END (R302): the island resumes when nothing it waits for is missing; the periods of the hold are counted (Table 10.14,
R351), and the Sieve has gone on meanwhile (R209). Of a hold that a timeout, a fault or an abort has ended only the periods remain to be
counted (DESIGN CHOICE, log 176). -/
def holdEnd (s : State) (r periods : Nat) : State :=
  let q := s.seq r
  if !q.ended.isEmpty then (s.countHolds r periods q.ended).setSeq r { q with ended := [] }
  else if q.holds.isEmpty || !(q.holds.all (s.holdDone r)) then s
  else
    let s1 := (s.countHolds r periods q.holds).sieveAdvance r q.ic periods
    let s2 := q.holds.foldl (fun u h => u.endHold h) s1
    (s2.setSeq r { s2.seq r with holds := q.holds.filter fun h => match h with | .fence _ 0 => true | _ => false }).finish r

/-- SQ_WAIT_TIMEOUT (R302): a hold by EVWAIT or FENCE has lasted longer than SQ_WAIT_LIMIT. -/
def waitTimeout (s : State) (r : Nat) : State :=
  let q := s.seq r
  let waits := q.holds.any fun h => match h with | .event _ _ => true | .fence _ u => u != 0 | _ => false
  if waits && s.rd (Reg.SQ_WAIT_LIMIT_US r) != 0 then s.regionFault r q.ic (Flt.of 0x51 5 0) else s

/-- EVENT_ARRIVAL (R306): the oldest increment of region `src` whose covered writes are complete arrives. -/
def eventArrival (s : State) (src : Nat) : State :=
  match s.events.find? (fun e => e.src == src) with
  | none => s
  | some e =>
    if s.outstanding src e.scope e.upto then s
    else
      let f := Reg.SQ_EVT_VALUE e.dst e.ctr
      ({ s with events := s.events.erase e }).wr f (s.rd f + e.imm)

/-- A fault that a remote access or a transfer of region `r` brings back to its launch; what outlives its launch (R282) brings it back to
none. -/
def farFault (s : State) (r code : Nat) : State :=
  if s.active r then s.regionFault r (s.seq r).ic (Flt.of code 4 0) else s

/-- A fault that a remote access brings back to its requester: a region, or the transfer at the head of a DMA channel. -/
def srcFault (s : State) (src code : Nat) : State :=
  if src < 32 then s.farFault src code
  else match Tbl.get [] s.dmaq (src - 32) with
    | [] => s
    | x :: _ => (s.setHead (src - 32) { x with fault := some (x.fault.getD code) }).farFault x.region code

/-- The queue that a remote access stands in: its bank's, its MU's window port's, or the accesses to one unit of HBM (R352). -/
def queueKey (w : Remote) : Nat × Nat × Nat :=
  match place (64 * w.unit) with
  | .sp k o => (0, k, bankOf (o / 256))
  | .acc k m _ _ _ => (1, k, m)
  | _ => (2, w.unit, 0)

/-- Whether an access reaches cluster `k`'s own bank or window port of `key` in ic `t` (A_b of R108, R147). -/
def bankUsed (s : State) (key : Nat × Nat × Nat) (t : Nat) : Bool :=
  if key.1 = 0 then ((s.seq (key.2.1 / 8)).waves.any fun w => w.ic == t && w.cl == key.2.1 &&
    (w.reads ++ w.writes).any fun u => bankOf (u / 4) == key.2.2)
  else (s.muOf key.2.1 key.2.2).port.any fun p => decide (p.1 ≤ t ∧ t < p.2)

/-- Whether the island of region `r` passes its ic one after the other, rather than being held or idle. -/
def running (s : State) (r : Nat) : Bool := s.issuing r || s.draining r

/-- Whether remote access number `n` may be served now (R130, R150, R351, R352): it is the head of its queue, its region is open and its
accumulator tile not in use; a bank serves it in an ic without accesses of its own, after at most 64 ic, or by force. -/
def servable (s : State) (n wait : Nat) (forced : Bool) (w : Remote) : Bool :=
  let key := queueKey w
  let r := w.cl / 8
  let head := (s.remotes.take n).all fun x => decide (queueKey x ≠ key)
  if w.cl < 256 then
    head && !s.closed r w && (s.windowBusy r (s.seq r).ic [64 * w.unit]).isNone && decide (wait ≤ 64) &&
      (forced || !s.running r || !s.bankUsed key ((s.seq r).ic - 1))
  else head && !forced && !s.touchesProtected w.ws

/-- The ic's use of the bank or port by a served access, where the island runs: in the ic just past, or, by force, as one more access of
the coming one (R130). -/
def serveWave (s : State) (forced : Bool) (w : Remote) : State :=
  let r := w.cl / 8
  if w.cl ≥ 256 || !s.running r then s
  else
    let t := if forced then (s.seq r).ic else (s.seq r).ic - 1
    let us := bankUnits w.cl [w.unit]
    if w.fetch.isSome then s.wave r w.cl t true us [] [] else s.wave r w.cl t true [] us []

/-- A remote read served: its bytes go to its fetch, and the work that waits for the last of them goes on (R130, R333). An uncorrectable
read, or one that HBM does not serve, faults the requester and delivers nothing. -/
def serveRead (s : State) (w : Remote) (fid : Nat) : State :=
  let x := s.checkReads [w.unit / 4]
  let s1 := x.1.noteFar x.2.2
  let code := match place (64 * w.unit) with
    | .hbm k _ => if s.stackStatus k = 5 then some 0x54
      else if s.stackStatus k ≠ 0 ∨ Tbl.get 0 s1.poison (w.unit / 4) = 1 then some 0x53 else none
    | .hole _ => some 0x53
    | _ => if x.2.1 then some 0x40 else none
  let bs := if code.isSome then [] else at' (64 * w.unit) (s1.peeks (64 * w.unit) 64)
  let last := !(s1.remotes.any fun y => y.src == w.src && y.fetch == some fid)
  let s2 := if w.src < 32 then
      let q := s1.seq w.src
      let ask := if last then Tbl.get [] q.asks fid else []
      s1.setSeq w.src { q with
        bufs := Tbl.set [] q.bufs fid (Tbl.get [] q.bufs fid ++ bs),
        asks := if last then Tbl.set [] q.asks fid [] else q.asks,
        pend := ask.foldl (fun l p => insPend { p with due := max p.due q.ic } l) q.pend,
        last := if ask.isEmpty then q.last else max q.last q.ic }
    else match Tbl.get [] s1.dmaq (w.src - 32) with
      | [] => s1
      | x :: _ =>
        let s3 := s1.setHead (w.src - 32) { x with buf := x.buf ++ bs }
        if last then s3.dmaSend (w.src - 32) else s3
  match code with
  | some f => s2.srcFault w.src f
  | none => s2

/-- A remote write served (R130, R344). -/
def serveWrite (s : State) (w : Remote) : State :=
  match w.accFmt with
  | some f =>
    let x := s.checkWrites w.ws
    let s1 := (x.1.accums f (keepGood x.2.1 w.ws)).noteFar x.2.2
    if x.2.1.isEmpty then s1 else s1.srcFault w.src 0x40
  | none =>
    let x := s.deliver w.ws
    if x.2.2 then x.1.srcFault w.src 0x40
    else if x.2.1 = 5 then x.1.srcFault w.src 0x54
    else if x.2.1 = 0 then x.1 else x.1.srcFault w.src 0x53

/-- A bit of a register field written. -/
def wrBit (s : State) (f : Fld) (i : Nat) (b : Bool) : State := s.wr f (setBit (s.rd f) i b)

/-- Whether a region is gated. -/
def gated (s : State) (r : Nat) : Bool := (s.rd Reg.PWR_RSTATE_GATED).testBit r

/-- The tenant whose access is about to wake a gated region, for its wake energy (R473); of several, the first. -/
def noteWaker (s : State) (r t : Nat) : State :=
  if s.gated r && !(s.rd Reg.PWR_RWAKE_WAKE).testBit r then s.wr (In.waker r) t else s

/-- The tenant of a source of remote accesses: a region, or 32 plus a DMA channel (R320); management where no launch stands behind it. -/
def srcTenant (s : State) (src : Nat) : Nat :=
  let r := if src < 32 then some src else (Tbl.get [] s.dmaq (src - 32)).head?.map Xfer.region
  match r with
  | none => 0xFE
  | some r => match (s.seq r).launch with
    | none => 0xFE
    | some n => (s.launch n).tenant

/-- A remote access served at its bank or home cache (R130, R344): `wait` ic of waiting, `forced` for R130's forced service. An access to
a gated region is held and wakes it (R357, R509); a write to a protected page waits for the page's first-touch copy. One of the region's own that
meets a Shears group in progress faults the launch (R235). -/
def serveRemote (s : State) (n wait : Nat) (forced : Bool) : State :=
  match s.remotes[n]? with
  | none => s
  | some w =>
    let r := w.cl / 8
    if w.cl < 256 && (s.rd Reg.PWR_RSTATE_GATED).testBit r then
      (s.noteWaker r (s.srcTenant w.src)).wrBit Reg.PWR_RWAKE_WAKE r true
    else if !forced && decide (256 ≤ w.cl) && s.touchesProtected w.ws then s.queueTouched w.ws
    else if !s.servable n wait forced w then s
    else
      let s0 : State := { s with remotes := s.remotes.eraseIdx n }
      let s1 := if w.cl < 256 then s0.inc (Reg.SP_REMOTE_WAIT_COUNT w.cl) wait else s0
      let s2 := s1.serveWave forced w
      let s3 := match w.fetch with
        | some fid => s2.serveRead w fid
        | none => s2.serveWrite w
      if w.src = r && decide (w.cl < 256) && s.inGroup w.cl (s.seq r).ic (bankUnits w.cl [w.unit]) then
        let x := s3.shFault r (w.cl % 8) 4 3 (s.seq r).ic
        match x.2 with | some f => x.1.regionFault r (s.seq r).ic f | none => x.1
      else s3

/-- STASH_ROW_WRITE_DONE (R267): the oldest row of a region goes to HBM, or is refused, and its unit frees for the rows that a transfer
of the region holds. -/
def stashDone (s : State) (d region : Nat) : State :=
  let q := Tbl.get [] s.stashq d
  match q.find? (fun x => x.region == 8 * d + region) with
  | none => s
  | some x =>
    if s.touchesProtected x.ws then s.queueTouched x.ws
    else
      let s1 := ({ s with stashq := Tbl.set [] s.stashq d (q.erase x) }).stashWrite d x
      (s1.stashFeed (16 * d + 2 * region)).stashFeed (16 * d + 2 * region + 1)

/-- DMA_TRANSFER_DONE (R295, R298, R320, R344): the transfer at the head of a channel, none of whose accesses is on its way, writes what goes
to HBM and completes, with its event; one that writes a protected page waits for the page's first-touch copy. The next begins. -/
def dmaDone (s : State) (d ch : Nat) : State :=
  let key := 16 * d + ch
  match Tbl.get [] s.dmaq key with
  | [] => s
  | x :: l =>
    if !(s.rd Reg.CLK_DOM_STAT_RUN).testBit d then s
    else if x.phase = 0 then s.dmaBegin key
    else if x.phase ≠ 2 || !x.rows.isEmpty || (s.remotes.any fun w => w.src == 32 + key) ||
        (Tbl.get [] s.stashq d).any fun y => y.chan == 1 + key then s
    else if s.touchesProtected x.out then s.queueTouched x.out
    else
      let m := dmaOf (s.seq x.region).param x.rcd
      let s1 : State := { s with dmaq := Tbl.set [] s.dmaq key l }
      let y := if x.fault.isSome then (s1, 0, false) else s1.deliverAs 255 (!m.whole) x.out
      let code := match x.fault with
        | some f => some f
        | none => if y.2.1 = 0 then none else if y.2.1 = 5 then some 0x54 else some 0x53
      (match code with
      | some f => y.1.farFault x.region f
      | none =>
        if m.evtEn then
          let f := Reg.SQ_EVT_VALUE m.evtRegion m.evtCtr
          y.1.wr f (y.1.rd f + 1)
        else y.1).dmaBegin key

/-! ### Start, end and abort of a region -/

/-- The ic from which resources are free, put back to 0 with the launch's ic (R280, R300). -/
def resetTimes (s : State) (r : Nat) : State :=
  (List.range 8).foldl (fun t c =>
    let k := cix r c
    let x := t.clu k
    let mus := Tbl.mapv Mu.empty (fun m => { m with
      slots := Tbl.mapv SlotPart.empty (fun e => { e with ready := 0 }) m.slots, slotBusy := [],
      tiles := Tbl.mapv AccTile.zero (fun e => { e with doneAt := 0, accAt := 0, freeAt := 0 }) m.tiles,
      pages := [], halfBusy := [], zmaps := [], array := 0, drain := 0, rake := 0, insert := 0, port := [] }) x.mus
    t.setClu k { x with mus := mus, vtr := 0, mask := [], shears := 0, groups := [],
                        move := 0, vsts := none }) s

/-- REGION_START (R280, R201): the region's copy is complete and it issues bundle 0, unless its island is stopped (R554) or something that
an earlier launch sent from the region is on its way: R16 asks a drained boundary of a change of phase, the model of every launch (DESIGN
CHOICE, log 177). A launch that addresses a LOST stack faults (R327). -/
def regionStart (s : State) (r : Nat) : State :=
  let q := s.seq r
  match q.launch with
  | none => s
  | some n =>
    if q.started || q.stopped || (s.launch n).held || s.rd (Reg.CLK_ISL_STATE r) == 2 || s.inFlight r then s
    else
      let s1 := (s.resetTimes r).wrs [(Reg.SQ_STAT_STATE r, 2), (Reg.SQ_IC_LO_COUNT r, 0), (Reg.SQ_IC_HI_COUNT r, 0)]
      let s2 := s1.setSeq r { q with
        started := true, next := 0, cur := 0, ic := 0, last := 0, waves := [], pend := [], cens := [],
        bufs := [], asks := [], looks := [], biases := [], ended := [] }
      if (setBits (s.launch n).stackSet 12).any fun k => s.stackStatus k == 5 then s2.regionFault r 0 (Flt.of 0x54 4 0)
      else s2.issueKernel r

/-- Whether a region of a launch has met R282: halted or stopped, past every result ic, with its remote reads and transfers done, and
every write it issued complete at CSCOPE. A transfer is waited for whatever its destination (DESIGN CHOICE, log 177). -/
def regionDone (s : State) (r : Nat) : Bool :=
  let q := s.seq r
  match q.launch with
  | none => false
  | some n =>
    (q.stopped && !q.started || (q.halted || q.stopped) && q.started && q.holds.isEmpty && q.pend.isEmpty && decide (q.last < q.ic)) &&
      !s.fenced r (max 2 (s.launch n).cscope) s.wid && !s.dmaq.any fun p => p.2.any fun x => x.region == r

/-- REGION_COMPLETE (R282). -/
def regionComplete (s : State) (r : Nat) : State :=
  match (s.seq r).launch with
  | none => s
  | some n =>
    let l := s.launch n
    if s.regionDone r && !l.done.testBit r then
      (s.setLaunch n { l with done := l.done + 2 ^ r, lastR := r }).wr (Reg.SQ_ABORT_GO r) 0
    else s

/-- An abort of launch `n` (R307, R437): it stands unless a fault or the completion came first. It ends a halt by debug (R575). -/
def abortLaunch (s : State) (n : Nat) : State :=
  let l := s.launch n
  ((if l.fault.isNone then s.setLaunch n { l with aborted := true } else s).stopLaunch n).wr Reg.DBG_HALT_MASK
    (s.rd Reg.DBG_HALT_MASK &&& (2 ^ 32 - 1 - l.regions))

/-- SQ_ABORT (R307): the launch that the region runs is stopped. -/
def sqAbort (s : State) (r : Nat) : State :=
  match (s.seq r).launch with
  | none => s
  | some n =>
    let l := s.launch n
    if l.done = l.regions then s
    else ((setBits l.regions 32).foldl (fun t k => if l.done.testBit k then t else t.wr (Reg.SQ_ABORT_GO k) 1) s).abortLaunch n

end State
end Sys2Proof.Machine
end

