-- ==== Sys2Proof/Machine/Region.lean ====
section
/-!
DEFINITION. A region's banks as a whole: zeroisation (R131, R132), remap and map-out (R119 to R122), gating and wake (R506 to
R510).
-/

namespace Sys2Proof.Machine

namespace State

/-- The memory from key `lo` to `hi − 1` reads 0, with no latent error or poison. -/
def zeroKeys (s : State) (lo hi : Nat) : State :=
  { s with mem := Tbl.cut s.mem lo hi, spErr := s.spErr.cut lo hi, spPoison := s.spPoison.cut lo hi }

/-- The accumulator tiles of a cluster's MUs at +0, chain counts 0 (R131, R143). -/
def zeroTiles (s : State) (k : Nat) : State :=
  let x := s.clu k
  s.setClu k { x with mus := Tbl.mapv Mu.empty (fun m => { m with tiles := [] }) x.mus }

/-- ZERO on all rows of all banks of a region, its accumulator tiles at +0 (R131), its pages and zero maps empty (R201). -/
def zeroRegion (s : State) (r : Nat) : State :=
  (List.range 8).foldl (fun t c => t.zeroTiles (cix r c))
    ((s.dropPages r).zeroKeys (spBase + 8 * r * spWin) (spBase + 8 * (r + 1) * spWin))

/-- Whether bank `b` of cluster `k` keeps its contents while gated (R506). -/
def retained (s : State) (k b : Nat) : Bool :=
  if b < 32 then (s.rd (Reg.PWR_RET_BANK_LO k)).testBit b else (s.rd (Reg.PWR_RET_BANK_HI k)).testBit (b - 32)

/-- The banks of a region that are not retained, as (cluster, bank). -/
def lostBanks (s : State) (r : Nat) : List (Nat × Nat) :=
  (List.range 512).filterMap fun i =>
    if s.retained (8 * r + i / 64) (i % 64) then none else some (8 * r + i / 64, i % 64)

/-- The banks of a region that are not retained at 0 (R506). -/
def zeroLost (s : State) (r : Nat) : State :=
  (s.lostBanks r).foldl (fun t p => t.zeroKeys (rowKey p.1 p.2 0) (rowKey p.1 p.2 8192)) s

/-- Island clock in MHz (R350). -/
def islandMHz (s : State) (r : Nat) : Nat := 350 + 25 * s.rd (Reg.CLK_ISL_CUR r)

/-- A region powers down (R506, R508): what it loses is gone, and what is not retained will be 0 at its wake (R131). -/
def powerDown (s : State) (r : Nat) : State :=
  let s1 := (List.range 8).foldl (fun t c => t.setClu (cix r c) Clu.empty) (s.zeroLost r)
  let s2 := ((s1.setSeq r Seq.idle).wrBit Reg.PWR_RSTATE_GATED r true).wr (Reg.CLK_ISL_STATE r) 1
  (s2.wr (In.gateDrain r) 0).wrBit Reg.PWR_RGATE_REQ r false

/-- A gated region wakes (R509); PWR_WAKE_MAX takes the ramp of 1.5 µs and, where some bank was not retained, 8192 ic. -/
def wakeRegion (s : State) (r : Nat) : State :=
  if !s.gated r then s
  else
    let ns := 1500 + if (s.lostBanks r).isEmpty then 0 else cdiv (8192 * 1000) (s.islandMHz r)
    let s1 := ((s.wrBit Reg.PWR_RSTATE_GATED r false).wrBit Reg.PWR_RWAKE_WAKE r false).wr (Reg.CLK_ISL_STATE r) 0
    (s1.inc Reg.PWR_WAKE_CNT_COUNT 1).wr Reg.PWR_WAKE_MAX_NS (max ns (s.rd Reg.PWR_WAKE_MAX_NS))

/-- A message of the power manager to the cores (PWR_MSG). -/
def pwrMsg (s : State) (code region : Nat) : State :=
  s.wrs [(Reg.PWR_MSG_CODE, code), (Reg.PWR_MSG_REGION, region), (Reg.PWR_MSG_PEND, 1)]

/-- An entry of PWR_REFUSE_LOG (R521). -/
def pwrLog (s : State) (kind index die st region aborted : Nat) : State :=
  s.logPush 4 (fun n => [Reg.PWR_REFUSE_LOG_KIND n, Reg.PWR_REFUSE_LOG_INDEX n, Reg.PWR_REFUSE_LOG_DIE n,
    Reg.PWR_REFUSE_LOG_STATE n, Reg.PWR_REFUSE_LOG_REGION n, Reg.PWR_REFUSE_LOG_ABORTED n, Reg.PWR_REFUSE_LOG_VALID n])
    [kind, index, die, st, region, aborted, 1]

/-- Whether a snapshot protects a PERSIST handle of the region (R490, R507). -/
def regionProtected (s : State) (r : Nat) : Bool := !(s.protH.between (1024 * r) (1024 * r + 1024)).isEmpty

/-- The oldest writer among the remote writes that `now` holds of and the DMA transfers in progress into a region that `into` holds of, as
KIND, INDEX and DIE of Table 20.4: the remote writes, in the order in which they were sent, before the transfers. -/
def oldestWriter (s : State) (now : Remote → Bool) (into : Nat → Bool) : Option (Nat × Nat × Nat) :=
  match s.remotes.find? (fun w => w.fetch.isNone && decide (w.cl < 256) && now w) with
  | some w => some (if w.src < 32 then (7, w.via, w.via / 64) else (6, (w.src - 32) % 16, (w.src - 32) / 16))
  | none =>
    match s.dmaq.find? (fun p => match p.2 with
      | [] => false
      | x :: _ => x.phase != 0 && (s.xferRegions x).any into) with
    | some p => some (6, p.1 % 16, p.1 / 16)
    | none => none

/-- The oldest writer with a commitment into a region's banks (R508). -/
def bankWriter (s : State) (r : Nat) : Option (Nat × Nat × Nat) :=
  s.oldestWriter (fun w => w.cl / 8 == r && s.committed r w) (· == r)

/-- SP_ZERO_CTL.GO (R132): a region with no launch starts to be zeroised, woken first if it is gated. GO reads 1
until the zeroisation is done (DESIGN CHOICE, log 191). -/
def spZero (s : State) (r : Nat) : State :=
  if (s.seq r).launch.isSome || s.on (Reg.SP_ZERO_STAT_BUSY r) then s
  else ((s.noteWaker r 0xFE).wakeRegion r).wrs [(Reg.SP_ZERO_STAT_BUSY r, 1), (Reg.SP_ZERO_CTL_GO r, 1)]

/-- ZEROISATION_DONE (R131): the 8192 ic have passed. -/
def zeroDone (s : State) (r : Nat) : State :=
  if !s.on (Reg.SP_ZERO_STAT_BUSY r) then s
  else ((s.zeroRegion r).wrs [(Reg.SP_ZERO_STAT_BUSY r, 0), (Reg.SP_ZERO_CTL_GO r, 0)]).inc (Reg.SP_ZERO_STAT_DONE_CNT r) 1

/-- Whether a region is idle or unassigned, so that its remap tables may change (R120, R121). -/
def regionIdle (s : State) (r : Nat) : Bool := (s.seq r).launch.isNone

/-- The number of valid remap entries of a bank, kept in SP_SPARE_USED. -/
def spareCount (s : State) (c b : Nat) : State :=
  s.wr (Reg.SP_SPARE_USED_COUNT c b) ((List.range 256).filter fun e => s.on (Reg.SP_REMAP_VALID c b e)).length

/-- A write of SP_REMAP[b][e] (R119, R120). A valid entry whose logical row another valid entry of the bank holds is ignored:
no logical row appears in two valid entries. -/
def remapWrite (s : State) (c b e lrow valid : Nat) : State :=
  let r := c / 8
  if !s.regionIdle r && s.rd (Reg.TEN_REGION_OWNER r) != 0xFF then s.wr (Reg.SP_MAPOUT_STAT_STATUS c) 3
  else if valid = 1 ∧ (List.range 256).any (fun x =>
      x != e && s.on (Reg.SP_REMAP_VALID c b x) && s.rd (Reg.SP_REMAP_LROW c b x) == lrow) then s
  else (s.wrs [(Reg.SP_REMAP_LROW c b e, lrow), (Reg.SP_REMAP_VALID c b e, valid)]).spareCount c b

/-- The end of every map-out is a health event, its DETAIL packed as cluster, bank, row, status (log 12). The row's copy to the lowest free spare, with the remap entry that puts it in force (R121); a row in a spare already moves
to the new spare. Poison moves with the row (R118). -/
def mapOut (s : State) (c : Nat) : State :=
  let b := s.rd (Reg.SP_MAPOUT_CTL_BANK c)
  let l := s.rd (Reg.SP_MAPOUT_CTL_ROW c)
  let done := s.wr (Reg.SP_MAPOUT_CTL_GO c) 0
  let log := fun (t : State) (st : Nat) => t.hltLog 8 (c / 8) (c % 8 + b * 2 ^ 3 + l * 2 ^ 9 + st * 2 ^ 22)
  match firstBelow 256 (fun e => !s.on (Reg.SP_REMAP_VALID c b e)) with
  | none => log (done.wr (Reg.SP_MAPOUT_STAT_STATUS c) 2) 2
  | some e =>
    let old := rowKey c b (s.physRow c b l)
    let new := rowKey c b (7936 + e)
    let errs := Tbl.get [] s.spErr old
    let bad := Tbl.get 0 s.spPoison old = 1 ∨ (errs.filter fun p => decide (2 ≤ p.2)).length ≥ 2
    let x := done.rowAccess c (64 * l + (b + 4096 - l % 64) % 64) false
    let s1 : State := { x.1 with
      mem := Tbl.copy 0 x.1.mem old new 256, spErr := Tbl.set [] (Tbl.set [] x.1.spErr old []) new [],
      spPoison := Tbl.set 0 (Tbl.set 0 x.1.spPoison old 0) new (if bad then 1 else 0) }
    let s2 := match firstBelow 256 (fun z => s.on (Reg.SP_REMAP_VALID c b z) && s.rd (Reg.SP_REMAP_LROW c b z) == l) with
      | some z => s1.wr (Reg.SP_REMAP_VALID c b z) 0
      | none => s1
    log ((s2.wrs [(Reg.SP_REMAP_LROW c b e, l), (Reg.SP_REMAP_VALID c b e, 1), (Reg.SP_MAPOUT_STAT_STATUS c, 0),
      (Reg.SP_MAPOUT_STAT_SPARE c, e)]).spareCount c b) 0

/-- SP_MAPOUT_CTL.GO (R121): the request is pending until MAPOUT_EXECUTE. A second GO replaces the ROW and the BANK
of one that is pending (DESIGN CHOICE, log 192). -/
def mapOutRequest (s : State) (c row bank : Nat) : State :=
  s.wrs [(Reg.SP_MAPOUT_CTL_ROW c, row), (Reg.SP_MAPOUT_CTL_BANK c, bank), (Reg.SP_MAPOUT_CTL_GO c, 1),
    (Reg.SP_MAPOUT_STAT_STATUS c, 1)]

/-- MAPOUT_EXECUTE (R121): at idle or at a drained boundary. -/
def mapOutExecute (s : State) (c : Nat) : State :=
  if s.on (Reg.SP_MAPOUT_CTL_GO c) && s.regionIdle (c / 8) then s.mapOut c else s

/-! ### Gating -/

/-- Whether a self-test of region `r` is requested or runs (R565, R567). -/
def testing (s : State) (r : Nat) : Bool :=
  (s.rd Reg.HLT_STEST_STAT_PEND).testBit r || (s.rd Reg.HLT_STEST_STAT_RUN).testBit r

/-- The ingress of a region closes (R508): accesses that come from now on wait. -/
def closeIngress (s : State) (r : Nat) : State := s.wrs [(In.gateDrain r, 1), (In.gateFrom r, s.wid)]

/-- The source of an access that is held at its crossing and wakes region `r` once it is gated (R509): of a cluster, or of a transfer that
waits to begin. -/
def heldAccess (s : State) (r : Nat) : Option Nat :=
  match s.remotes.find? fun w => decide (w.cl < 256) && w.cl / 8 == r with
  | some w => some w.src
  | none => (s.dmaq.find? fun p => match p.2 with
      | [] => false
      | x :: _ => (s.xferRegions x).contains r).map fun p => 32 + p.1

/-- PWR_RGATE (R507): requests for the regions of a mask, each checked on its own. -/
def gateRequest (s : State) (mask : Nat) : State :=
  (setBits mask 32).foldl (fun t r =>
    if t.gated r then t
    else if (t.seq r).launch.isSome then (t.inc Reg.PWR_REFUSED_COUNT 1).pwrLog 4 r (r / 8) 4 r 0
    else if t.on (Reg.SP_ZERO_STAT_BUSY r) || t.testing r then (t.inc Reg.PWR_REFUSED_COUNT 1).pwrLog 8 r (r / 8) 4 r 0
    else
      let t1 := t.wrBit Reg.PWR_RGATE_REQ r true
      if t.regionProtected r then t1 else t1.closeIngress r) s

/-- GATING_DEFERRED_START (R507): every protected handle of the region is in flash. -/
def gateStart (s : State) (r : Nat) : State :=
  if (s.rd Reg.PWR_RGATE_REQ).testBit r && !s.regionProtected r then s.closeIngress r else s

/-- GATING_DONE (R508): the write counters are 0 and the region powers down. An access held meanwhile then wakes it (R509). -/
def gateDone (s : State) (r : Nat) : State :=
  if s.on (In.gateDrain r) && (s.bankWriter r).isNone then
    let t := ((s.powerDown r).inc Reg.PWR_GATE_CNT_COUNT 1).pwrMsg 3 r
    match s.heldAccess r with
    | some src => (t.noteWaker r (s.srcTenant src)).wrBit Reg.PWR_RWAKE_WAKE r true
    | none => t
  else s

/-- GATING_DRAIN_TIMEOUT (R508): a counter is still not 0, and the gating aborts, naming the writer. -/
def gateTimeout (s : State) (r : Nat) : State :=
  match s.on (In.gateDrain r), s.bankWriter r with
  | true, some w =>
    ((((s.wr (In.gateDrain r) 0).wrBit Reg.PWR_RGATE_REQ r false).inc Reg.PWR_ABORTED_COUNT 1).pwrLog w.1 w.2.1 w.2.2 4 r
      1).pwrMsg 4 r
  | _, _ => s

/-- A launch accepted in a region cancels a pending gating request (R507). -/
def gateCancel (s : State) (r : Nat) : State := (s.wr (In.gateDrain r) 0).wrBit Reg.PWR_RGATE_REQ r false

/-- The gated regions of a mask begin to wake for tenant `who` (R473, R509). -/
def wakeBy (s : State) (mask who : Nat) : State :=
  (setBits mask 32).foldl (fun t r => if t.gated r then (t.noteWaker r who).wrBit Reg.PWR_RWAKE_WAKE r true else t) s

/-- PWR_RWAKE (R509): the gated regions of a mask begin to wake. -/
def wakeRequest (s : State) (mask : Nat) : State := s.wakeBy mask 0xFE

end State
end Sys2Proof.Machine
end

