-- ==== Sys2Proof/Machine/Launch.lean ====
section
/-!
DEFINITION. The launch unit (R274 to R281, R435 to R437): launch records, validation in the order of Tables 10.4 and 3.5,
acceptance, the commit point, completion records and their ring.
-/

namespace Sys2Proof.Machine

/-- A launch record from its 512 bits. -/
def parseLaunch (n : Nat) : LRec :=
  { kernel := bitsOf n 47 0, klen := bitsOf n 77 64, phase := bitsOf n 81 80, evo := n.testBit 82, dgrad := n.testBit 83,
    xgen := n.testBit 84, cscope := bitsOf n 87 85, tenant := bitsOf n 95 88, regions := bitsOf n 127 96,
    param := bitsOf n 175 128, plen := bitsOf n 223 192, id := bitsOf n 255 224,
    rsvd := bitsOf n 63 48 + bitsOf n 79 78 + bitsOf n 191 176 + bitsOf n 511 256 }

/-- A refusal as R100 reports it: code of Table 16.8, descriptor, dimension and pointer-list entry. -/
structure Refuse where
  code  : Nat
  desc  : Nat
  dim   : Nat
  entry : Nat
  deriving DecidableEq, Repr

/-- A refusal that names no descriptor. -/
def Refuse.of (code : Nat) : Refuse := ⟨code, 0xFF, 0xFF, 0xFFFFFFFF⟩

/-- The answer of a check. -/
abbrev Chk := Option Refuse

/-- Refuses with `code` when `bad`. -/
def refuseIf (bad : Bool) (code : Nat) : Chk := if bad then some (Refuse.of code) else none

/-- The first refusal over a list. -/
def firstBad {α : Type} (l : List α) (f : α → Chk) : Chk := l.findSome? f

/-- R275: the record on its own. -/
def LRec.bad (x : LRec) : Bool :=
  x.rsvd != 0 || x.phase == 3 || x.klen == 0 || decide (8192 < x.klen) || decide (x.cscope < 2) || decide (5 < x.cscope) ||
    x.regions == 0 || x.dgrad && !x.evo || x.kernel % 32 != 0 || x.param % 256 != 0 || decide (262144 < x.plen)

/-- Alignment and maximum count of section k (Table 10.2). -/
def secLimits (k : Nat) : Nat × Nat :=
  (if k = 0 then 256 else 64,
    match k with | 0 => 255 | 5 => 128 | 8 => 32 | 10 => 64 | 11 => 1024 | _ => 256)

/-- Bytes of section k (R276, R277). -/
def secBytes (p : List Nat) (k : Nat) : Nat :=
  if k = 11 then 8 * cdiv (2 * secCnt p 11) 8 + 8 * stashCnt p else secSize k * secCnt p k

/-- Whether two byte ranges of nonzero length overlap. -/
def overlap (a n b m : Nat) : Bool := decide (0 < n) && decide (0 < m) && decide (a < b + m) && decide (b < a + n)

/-- R276 and R277: the header of a parameter block of `p.length` bytes and the reserved fields of sections 7 to 11. -/
def headerBad (p : List Nat) : Bool :=
  let ks := List.range 12
  decide (p.length < 128) || blk p 96 32 != 0 ||
    (ks.any fun k =>
      let lim := secLimits k
      decide (lim.2 < secCnt p k) || secOff p k % lim.1 != 0 ||
        (if k = 11 then decide (1024 < stashCnt p) else blk p (8 * k + 6) 2 != 0) ||
        decide (0 < secBytes p k) && (decide (p.length < secOff p k + secBytes p k) || decide (secOff p k < 128)) ||
        ks.any fun j => decide (j < k) && overlap (secOff p j) (secBytes p j) (secOff p k) (secBytes p k)) ||
    ((List.range (secCnt p 7)).any fun i => bitsOf (secRec p 7 i) 63 13 != 0) ||
    ((List.range (secCnt p 8)).any fun i => bitsOf (secRec p 8 i) 31 0 != 0) ||
    ((List.range (secCnt p 9)).any fun i => bitsOf (secRec p 9 i) 31 27 + bitsOf (secRec p 9 i) 127 64 != 0) ||
    ((List.range (secCnt p 10)).any fun i => bitsOf (secRec p 10 i) 63 12 != 0) ||
    ((List.range (secCnt p 11)).any fun i => decide (1024 ≤ boundHandle p i)) ||
    ((List.range (stashCnt p)).any fun i =>
      let b := stashBinding p i
      bitsOf b 11 10 + bitsOf b 15 14 + bitsOf b 31 24 != 0)

/-- The first `n` 256-bit bundles of a kernel image. -/
def kernelOf (img : List Nat) (n : Nat) : List Nat := (chunks 32 img n).map ofLe

/-- The part of a dimension that a window of a re-tiled launch takes (R319): descriptor, dimension, PLAN and the window's number. -/
structure Part where
  desc : Nat
  dim  : Nat
  plan : Nat
  win  : Nat
  deriving DecidableEq, Repr

/-- The index at which a part begins. -/
def Part.first (q : Part) : Nat := q.win * q.plan

/-- The extent of a part of the extent `n` (R319). -/
def Part.ext (q : Part) (n : Nat) : Nat := min q.plan (n - q.first)

/-- What validation has read: the record, the parameter block, the kernel with its legal bundles, the set regions, and by
descriptor the pointer lists and the headers of LAYOUT = 1 arrays by entry; `split` the window of a re-tiled launch (R319). The last five fields are empty for a launch; a
collective operation (R393) lists there the descriptors it stores and loads through, those it converts, its (store, load) pairs, and
the descriptors that it converts from or to index elements on the wire (R32). -/
structure LCtx where
  lr      : LRec
  p       : List Nat
  kern    : List Nat
  ops     : List Bundle
  regions : List Nat
  plists  : Tbl (List Nat)
  hdrs    : Tbl (List (Nat × Nat × Nat × Nat))
  split   : List Part
  xst     : List Nat
  xld     : List Nat
  xcv     : List Nat
  xpr     : List (Nat × Nat)
  xix     : List Nat
  deriving DecidableEq, Repr

namespace LCtx

/-- Number of descriptors. -/
def nDesc (x : LCtx) : Nat := secCnt x.p 0
/-- Indices of a section's records. -/
def idxs (x : LCtx) (k : Nat) : List Nat := List.range (secCnt x.p k)
/-- Drain records. -/
def drains (x : LCtx) : List DrainRec := (x.idxs 1).map (drainOf x.p)
/-- Sieve records. -/
def sieves (x : LCtx) : List SieveRec := (x.idxs 2).map (sieveOf x.p)
/-- Shears records. -/
def shearss (x : LCtx) : List ShearsRec := (x.idxs 3).map (shearsOf x.p)
/-- SGW records. -/
def sgws (x : LCtx) : List SgwRec := (x.idxs 4).map (sgwOf x.p)
/-- DMA records. -/
def dmas (x : LCtx) : List DmaRec := (x.idxs 6).map (dmaOf x.p)
/-- The descriptor with entry `e` applied. -/
def entryDesc (x : LCtx) (i e : Nat) : Desc := (descOf x.p i).atEntry (Tbl.get [] x.plists i) e
/-- Cluster records (R277) of the launch: SPOFF and SLICE of cluster `c` of its `j`-th region. -/
def clusterRec (x : LCtx) (j c : Nat) : Nat × Nat :=
  let n := if 8 * j + c < secCnt x.p 9 then secRec x.p 9 (8 * j + c) else 0
  (bitsOf n 26 0, bitsOf n 63 32)
/-- The arrays of a Shears record. -/
def arrays (sr : ShearsRec) : List Nat := sr.wdesc :: sr.cdesc.take sr.ncomp
/-- DRAIN operations with a derivative record in the kernel: (REC, DREC). -/
def derivPairs (x : LCtx) : List (Nat × Nat) :=
  (x.ops.filterMap fun b => match b.mu with
    | .drain _ _ rcd true drec _ _ _ => some (rcd, drec)
    | _ => none).eraseDups

/-- Descriptors that the launch stores through. -/
def stores (x : LCtx) : List Nat :=
  x.xst ++ (x.drains.map (·.outDesc)) ++ (x.shearss.flatMap arrays) ++ ((x.dmas.filter fun m => !m.stashEn).map (·.dst)) ++
    (x.ops.filterMap fun b => match b.sv with | .transpose _ r2 _ _ _ => some r2 | _ => none) ++
    (x.ops.filterMap fun b => match b.vu with
      | .vst _ _ rcd _ _ _ => some rcd
      | .vsts _ _ _ rcd _ _ _ => some rcd
      | _ => none)

/-- Descriptors that the launch loads through. -/
def loads (x : LCtx) : List Nat :=
  x.xld ++ ((x.idxs 5).map fun i => (derivOf x.p i).sdesc) ++ (x.sieves.flatMap fun r => [r.wdesc, r.adesc]) ++
    (x.shearss.flatMap fun r => arrays r ++ (if r.op = 2 ∨ r.op = 4 then [r.gdesc] else [])) ++
    (x.sgws.flatMap fun r => [r.adesc, r.gdesc]) ++ (x.dmas.map (·.src)) ++
    ((List.range (stashCnt x.p)).map fun i => bitsOf (stashBinding x.p i) 23 16) ++
    (x.ops.filterMap fun b => match b.mu with | .load _ _ _ _ _ _ rcd _ _ _ => some rcd | _ => none) ++
    (x.ops.filterMap fun b => match b.sv with | .transpose r1 _ _ _ _ => some r1 | _ => none) ++
    (x.ops.flatMap fun b => match b.vu with
      | .vld _ _ rcd _ _ _ => [rcd]
      | .vlds _ ref rcd _ _ _ => [rcd, ref]
      | .vsts _ ref _ rcd _ _ _ => [rcd, ref]
      | _ => [])

/-- Descriptors that take part in a conversion (R32). -/
def converts (x : LCtx) : List Nat :=
  x.xcv ++ (x.drains.map (·.outDesc)) ++ ((x.idxs 5).map fun i => (derivOf x.p i).sdesc) ++ (x.sieves.map (·.adesc)) ++
    (x.sgws.flatMap fun r => [r.adesc, r.gdesc]) ++
    (x.dmas.flatMap fun m =>
      if m.stashEn then [m.src]
      else if (descOf x.p m.src).fmt ≠ (descOf x.p m.dst).fmt then [m.src, m.dst] else []) ++
    (x.ops.filterMap fun b => match b.vu with
      | .vld _ _ rcd _ _ _ => some rcd
      | .vst _ _ rcd _ _ _ => some rcd
      | _ => none)

/-- The (store, load) pairs of single operations (R93). -/
def pairs (x : LCtx) : List (Nat × Nat) :=
  x.xpr ++ ((x.dmas.filter fun m => !m.stashEn).map fun m => (m.dst, m.src)) ++
    (x.shearss.flatMap fun r =>
      (arrays r).flatMap fun a =>
        ((arrays r ++ (if r.op = 2 ∨ r.op = 4 then [r.gdesc] else [])).filter fun b => b != a).map fun b => (a, b)) ++
    (x.derivPairs.map fun q => ((drainOf x.p q.1).outDesc, (derivOf x.p q.2).sdesc)) ++
    (x.ops.filterMap fun b => match b.sv with | .transpose r1 r2 _ _ _ => some (r2, r1) | _ => none) ++
    (x.ops.filterMap fun b => match b.vu with | .vsts _ ref _ rcd _ _ _ => some (rcd, ref) | _ => none)

/-- Handles that descriptors and records name (R278). -/
def named (x : LCtx) : List Nat :=
  ((x.idxs 0).filterMap fun i => let d := descOf x.p i; if d.space = 1 then some d.handle else none) ++
    (x.drains.flatMap fun r => (if r.bias then [r.biasHandle] else []) ++ (if r.zmap then [r.zmapHandle] else [])) ++
    (x.sieves.flatMap fun r => (if r.zmMode ≠ 0 then [r.zmH] else []) ++ (if r.cenEn then [r.cenH] else [])) ++
    (x.sgws.flatMap fun r => if r.zmMode ≠ 0 then [r.zmH] else [])

/-- Handle numbers bound by the launch. -/
def bound (x : LCtx) : List Nat := (x.idxs 11).map (boundHandle x.p)

/-- The dies of the launch's regions. -/
def dies (x : LCtx) : List Nat := (x.regions.map (· / 8)).eraseDups

end LCtx

/-! ### Footprints (R80) -/

/-- Index range of dimension k that a store or a load can touch, if any. -/
def dimRange (d : Desc) (store : Bool) (k : Nat) : Option (Int × Int) :=
  let m := d.dim k
  let lo : Int := if store then 0 else -(min m.haloLo (d.org k) : Nat)
  let hi : Int := if store then (m.ext : Int) - 1
    else min ((m.ext : Int) + m.haloHi) ((d.parent k : Int) - d.org k) - 1
  if lo ≤ hi then some (lo, hi) else none

/-- Lowest and highest byte that a LAYOUT = 0 descriptor touches, of its elements or of its scales, from base 0. A store fills a partial
last block (R39, R75); a load touches the present elements alone (Table 3.3). -/
def footprint (d : Desc) (store scales : Bool) : Option (Int × Int) :=
  let rs := (List.range 6).map (dimRange d store)
  if rs.any (·.isNone) then none
  else
    let r0 := (rs.getD 0 none).getD (0, 0)
    let block := isBlock d.fmt && !scales
    let w : Int := if scales then 1 else if block then blockBytes d.fmt else elemBytes d.fmt
    let u := fun (i : Int) => if scales || block then i / 32 else i
    let top : Int := if block && !store then ((r0.2 + 1) * elemBits d.fmt + 7) / 8 - 1 else u r0.2 * w + w - 1
    let base : Int := if scales then d.scaleBase else d.base
    let z := (List.range 5).foldl (fun (acc : Int × Int) i =>
      let r := (rs.getD (i + 1) none).getD (0, 0)
      let st := if scales then (d.dim (i + 1)).sstride else (d.dim (i + 1)).stride
      (acc.1 + min (r.1 * st) (r.2 * st), acc.2 + max (r.1 * st) (r.2 * st))) (base, base)
    some (z.1 + u r0.1 * w, z.2 + top)

/-- The footprints of entry `e` of descriptor `i`: elements, and scales for block formats; the whole array for LAYOUT = 1
(R166). -/
def LCtx.prints (x : LCtx) (i e : Nat) (store : Bool) : List (Int × Int) :=
  let d := x.entryDesc i e
  if d.layout = 1 then
    match (Tbl.get [] x.hdrs i)[e]? with
    | some h => if h.2.2.2 = 0 then [] else [((d.base : Int), (d.base : Int) + 64 * h.2.2.2 - 1)]
    | none => []
  else (footprint d store false).toList ++ (if isBlock d.fmt then (footprint d store true).toList else [])

/-- The injectivity test of R90. -/
def injective (d : Desc) : Bool :=
  let ks := (List.range 5).filterMap fun i => let k := i + 1
    if k < d.rank ∧ 1 < d.ext k then some ((d.dim k).stride.natAbs, d.ext k) else none
  let ins := fun (l : List (Nat × Nat)) (q : Nat × Nat) =>
    (l.filter fun z => decide (z.1 ≤ q.1)) ++ q :: l.filter fun z => decide (q.1 < z.1)
  let sorted := ks.foldl ins []
  (sorted.foldl (fun (acc : Bool × Nat) q => (acc.1 && decide (acc.2 ≤ q.1), acc.2 + q.1 * (q.2 - 1))) (true, d.rowBytes)).1

namespace State

/-! ### Order 1: the record and the reads (R275, R276, R581) -/

/-- The refusal code of a failed validation read (R581): `outside` for a hole. -/
def readCode (outside st : Nat) : Nat :=
  match st with | 4 => 0x53 | 5 => 0x54 | 6 => 0x2F | _ => outside

/-- Whether a range lies in the populated part of one stack that `t` owns (R78, R465). -/
def ownRange (s : State) (t a n : Nat) : Bool := inStack a n && s.rd (Reg.TEN_STACK_OWNER (a / 2 ^ 36)) == t

/-- A validation read of a range that must lie in the tenant's stacks. -/
def readOwn (s : State) (t a n code : Nat) : State × Except Refuse (List Nat) :=
  if n = 0 then (s, .ok [])
  else if !s.ownRange t a n then (s, .error (Refuse.of code))
  else
    let x := s.hbmRead a n true
    (x.1, if x.2.1 = 0 then .ok x.2.2 else .error (Refuse.of (readCode code x.2.1)))

/-- Order 1 of Table 10.4 after the record itself. -/
def readLaunch (s : State) (lr : LRec) : State × Except Refuse LCtx :=
  if lr.bad then (s, .error (Refuse.of 1))
  else
    let k := s.readOwn lr.tenant lr.kernel (32 * lr.klen) 1
    match k.2 with
    | .error e => (k.1, .error e)
    | .ok img =>
      let q := k.1.readOwn lr.tenant lr.param lr.plen 1
      match q.2 with
      | .error e => (q.1, .error e)
      | .ok p =>
        if headerBad p then (q.1, .error (Refuse.of 1))
        else
          let kern := kernelOf img lr.klen
          let ops := kern.filterMap fun w => match decodeBundle w with | .ok b => some b | .error _ => none
          (q.1, .ok ⟨lr, p, kern, ops, setBits lr.regions 32, [], [], [], [], [], [], [], []⟩)

/-! ### Orders 2 and 3 -/

/-- A tenant's bit of a table of 256 bits in words of 32. -/
def tenantBit (s : State) (f : Nat → Fld) (t : Nat) : Bool := (s.rd (f (t / 32))).testBit (t % 32)

/-- Order 2: regions and the Xorid phase (R418). -/
def checkRegions (s : State) (x : LCtx) : Chk :=
  let t := x.lr.tenant
  firstBad x.regions (fun r =>
    refuseIf (s.rd (Reg.TEN_REGION_OWNER r) != t) 3 <|>
    refuseIf ((s.seq r).launch.isSome || s.on (Reg.SP_ZERO_STAT_BUSY r) || s.on (Reg.TEN_REGION_PEND r) ||
      s.testing r || s.on (In.testBad r)) 4) <|>
  refuseIf (s.tenantBit Reg.COL_XORID_EN t &&
    (x.lr.xgen != s.tenantBit Reg.COL_XORID_GEN t || s.tenantBit Reg.COL_XORID_HOLD t ||
      s.tenantBit Reg.COL_XORID_GEN t && (x.lr.evo || x.lr.dgrad))) 0x24

/-- Order 3: handles (R129, R278). -/
def checkHandles (s : State) (x : LCtx) : Chk :=
  let t := x.lr.tenant
  firstBad x.bound (fun h => firstBad x.regions fun r =>
    refuseIf (!s.on (Reg.SP_HT_VALID r h)) 5 <|>
    refuseIf (s.rd (Reg.SP_HT_TENANT r h) != t || s.on (Reg.SP_HT_KIND r h) &&
      s.rd (Reg.TEN_REGION_OWNER (s.rd (Reg.SP_HT_CLUSTER r h) / 8)) != t) 6) <|>
  refuseIf (x.named.any fun h => !x.bound.contains h) 7 <|>
  firstBad x.bound (fun h => firstBad x.regions.zipIdx fun q => firstBad (List.range 8) fun c =>
    refuseIf (!s.on (Reg.SP_HT_KIND q.1 h) && decide (
      (if s.on (Reg.SP_HT_ACC q.1 h) then accEnd else spSize) <
        s.rd (Reg.SP_HT_OFFSET q.1 h) + (x.clusterRec q.2 c).1 + s.rd (Reg.SP_HT_EXTENT q.1 h))) 0x19)

/-- The extent that bounds footprints through handle `h`: the smallest among the launch's regions (R278). -/
def extentOf (s : State) (x : LCtx) (h : Nat) : Nat :=
  (x.regions.map fun r => s.rd (Reg.SP_HT_EXTENT r h)).foldl min (2 ^ 27)

/-- Device address of byte 0 of handle `h` for cluster `c` of the launch's `j`-th region `r`. -/
def launchBase (s : State) (x : LCtx) (j r c h : Nat) : Nat :=
  if s.on (Reg.SP_HT_KIND r h) then spBase + s.rd (Reg.SP_HT_CLUSTER r h) * spWin + s.rd (Reg.SP_HT_OFFSET r h)
  else spBase + cix r c * spWin + s.rd (Reg.SP_HT_OFFSET r h) + (x.clusterRec j c).1

/-- Whether bytes `lo` to `hi` of a descriptor's space obey R78. -/
def inBounds (s : State) (x : LCtx) (d : Desc) (lo hi : Int) : Bool :=
  decide (0 ≤ lo) && (if d.space = 1 then decide (hi < s.extentOf x d.handle)
    else s.ownRange x.lr.tenant lo.toNat (hi + 1 - lo).toNat)

/-! ### Order 4: descriptors (Table 3.5) -/

/-- The first reserved field that is nonzero (R71, R94, R166), as its refusal. -/
def descRsvd (x : LCtx) (i : Nat) (d : Desc) : Chk :=
  let w := fun (dim e : Nat) => some (⟨0x10, i, dim, e⟩ : Refuse)
  let n := d.raw
  let noScale := d.layout == 1 || !isBlock d.fmt
  let pl := Tbl.get [] x.plists i
  if bitsOf n 15 15 + bitsOf n 19 19 + bitsOf n 31 30 + bitsOf n 127 112 + bitsOf n 191 176 + n >>> 1792 ≠ 0 ∨
      (!d.plistEn ∧ (d.plistAddr ≠ 0 ∨ d.plistCnt ≠ 0 ∨ d.vdimEn ∨ d.vdim ≠ 0)) ∨ (noScale ∧ d.scaleBase ≠ 0) then
    w 0xFF 0xFFFFFFFF
  else
    (List.range 6).findSome? (fun k =>
      let m := d.dims.getD k (parseDim 0)
      if (d.rank ≤ k ∧ m.raw ≠ 0) ∨ bitsOf m.raw 255 240 ≠ 0 ∨ (k = 0 ∧ (m.stride ≠ 0 ∨ m.sstride ≠ 0)) ∨
          (!isBlock d.fmt && m.sstride != 0) then
        w k 0xFFFFFFFF else none) <|>
    (pl.zipIdx).findSome? (fun q =>
      let z := q.1
      if bitsOf z 63 48 + bitsOf z 127 112 + bitsOf z 255 160 ≠ 0 ∨ (!d.vdimEn ∧ bitsOf z 159 128 ≠ 0) ∨
          (noScale ∧ bitsOf z 111 64 ≠ 0) then w 0xFF q.2 else none)

/-- DESC_FORMAT as far as the descriptor itself shows it (R31, R32, R73, R166). -/
def descFormat (x : LCtx) (i : Nat) (d : Desc) : Chk :=
  let w := fun (dim : Nat) => some (⟨0x11, i, dim, 0xFFFFFFFF⟩ : Refuse)
  if (9 ≤ d.fmt ∧ d.fmt ≤ 13) ∨ (d.fmt = 15 ∧ x.converts.contains i) ∨ (d.fmt ≠ 15 ∧ x.xix.contains i) then w 0xFF
  else if d.layout = 0 then none
  else
    (List.range 6).findSome? (fun k =>
      let m := d.dim k
      if m.stride ≠ 0 ∨ m.sstride ≠ 0 ∨ m.haloLo ≠ 0 ∨ m.haloHi ≠ 0 then w k else none) <|>
    (if d.rank ≠ 2 ∨ d.fmt = 14 ∨ d.fmt = 15 then w 0xFF else none)

/-- Orders 3 to 10 of Table 3.5, the headers read. Where several places fail under one code, the one named is that of a header field
first, then the lowest dimension, then the lowest entry; a pair of R93 fails under the index of the later of its two descriptors (DESIGN
CHOICE, logs 53, 178). On a list descriptor a field of the header that its entries do not replace fails with entry 0, and the injectivity
test, which R90 makes once for the list, with no entry (DESIGN CHOICE, log 179). -/
def descRest (s : State) (x : LCtx) (i : Nat) (d : Desc) : Chk :=
  let r := fun (code dim e : Nat) => some (⟨code, i, dim, e⟩ : Refuse)
  let none' := 0xFFFFFFFF
  let store := x.stores.contains i
  let load := x.loads.contains i || !store
  let es := List.range d.entries
  let num := fun (e : Nat) => if d.plistEn then e else none'
  let at' := fun e => x.entryDesc i e
  let pl := Tbl.get [] x.plists i
  let ks := List.range (min d.rank 6)
  let vd := d.plistEn && d.vdimEn
  (if d.rank = 0 ∨ d.rank = 7 ∨ (d.plistEn ∧ d.rank ≤ d.vdim) then r 0x12 0xFF none' else none) <|>
  (if store ∧ (2 ≤ d.smode ∨ (d.smode = 1 ∧ (d.space = 0 ∨ d.layout = 1 ∨ !([0, 1, 2, 14, 15].contains d.fmt)))) then
    r 0x13 0xFF none' else none) <|>
  (if d.base % 64 ≠ 0 ∨ d.scaleBase % 64 ≠ 0 ∨ d.plistAddr % 64 ≠ 0 then r 0x14 0xFF none' else none) <|>
  ks.findSome? (fun k => if (d.dim k).stride % 64 ≠ 0 ∨ (d.dim k).sstride % 64 ≠ 0 then r 0x14 k none' else none) <|>
  (pl.zipIdx).findSome? (fun q =>
    if bitsOf q.1 47 0 % 64 ≠ 0 ∨ bitsOf q.1 111 64 % 64 ≠ 0 then r 0x14 0xFF q.2 else none) <|>
  (if d.layout = 1 ∧ d.org 0 % 64 ≠ 0 then r 0x14 0 none' else none) <|>
  (if d.layout = 1 ∧ d.org 1 % 64 ≠ 0 then r 0x14 1 none' else none) <|>
  (if d.layout = 0 ∧ isBlock d.fmt ∧ (d.org 0 % 32 ≠ 0 ∨ (d.dim 0).haloLo % 32 ≠ 0 ∨ (d.dim 0).haloHi % 32 ≠ 0) then
    r 0x14 0 none' else none) <|>
  es.findSome? (fun e => let z := at' e
    if d.layout = 0 ∧ isBlock d.fmt ∧ store ∧ z.ext 0 % 32 ≠ 0 ∧ z.org 0 + z.ext 0 ≠ z.parent 0 then r 0x14 0 (num e)
    else none) <|>
  (if store ∧ d.padOvr then r 0x15 0xFF none' else none) <|>
  ks.findSome? (fun k => if store ∧ ((d.dim k).haloLo ≠ 0 ∨ (d.dim k).haloHi ≠ 0) then r 0x15 k none' else none) <|>
  ks.findSome? (fun k => if (d.dim k).plan < d.ext k then r 0x16 k none' else none) <|>
  es.findSome? (fun e => if vd && decide ((d.dim d.vdim).plan < (at' e).ext d.vdim) then r 0x16 d.vdim e else none) <|>
  es.findSome? (fun e => ks.findSome? fun k =>
    if store ∧ d.smode = 0 ∧ d.layout = 0 ∧ k ≠ 0 ∧ (d.dim k).stride = 0 ∧ 1 < (at' e).ext k then r 0x17 k (num e)
    else none) <|>
  es.findSome? (fun e => if store ∧ !d.aliasOk ∧ d.layout = 0 ∧ !injective (at' e) then r 0x18 0xFF none' else none) <|>
  es.findSome? (fun e => if store ∧ !d.aliasOk ∧ (List.range e).any (fun f =>
      (x.prints i e true).any fun a => (x.prints i f true).any fun b => decide (a.1 ≤ b.2 ∧ b.1 ≤ a.2)) then
    r 0x18 0xFF e else none) <|>
  x.pairs.findSome? (fun q =>
    let ds := descOf x.p q.1
    let dl := descOf x.p q.2
    let same := fun (a b : Desc) => a.space == b.space && a.handle == b.handle && a.base == b.base && a.fmt == b.fmt &&
      a.rank == b.rank && ((List.range 6).all fun k => a.ext k == b.ext k && (a.dim k).stride == (b.dim k).stride &&
        (b.dim k).haloLo == 0 && (b.dim k).haloHi == 0)
    let clash := (x.regions.zipIdx).any fun g => (List.range 8).any fun c =>
      let bs : Int := if ds.space = 1 then s.launchBase x g.2 g.1 c ds.handle else 0
      let bl : Int := if dl.space = 1 then s.launchBase x g.2 g.1 c dl.handle else 0
      (List.range ds.entries).any fun e => (List.range dl.entries).any fun f =>
        !same (x.entryDesc q.1 e) (x.entryDesc q.2 f) &&
          (x.prints q.1 e true).any fun a => (x.prints q.2 f false).any fun b =>
            decide (bs + a.1 ≤ bl + b.2 ∧ bl + b.1 ≤ bs + a.2)
    if max q.1 q.2 = i ∧ q.1 < x.nDesc ∧ q.2 < x.nDesc ∧ ds.space = dl.space ∧ clash then r 0x18 0xFF none'
    else none) <|>
  es.findSome? (fun e => ks.findSome? fun k => let m := (at' e).dim k
    if m.pext ≠ 0 ∧ m.pext < m.org + m.ext then r 0x19 k (num e) else none) <|>
  es.findSome? (fun e =>
    match d.layout, (Tbl.get [] x.hdrs i)[e]? with
    | 1, some h =>
      if h.1 < cdiv (d.org 1 + (d.dim 1).plan) 64 then r 0x19 1 (num e)
      else if h.2.1 < cdiv (d.org 0 + (d.dim 0).plan) 64 then r 0x19 0 (num e) else none
    | _, _ => none) <|>
  es.findSome? (fun e =>
    let ps := (if store then x.prints i e true else []) ++ (if load then x.prints i e false else [])
    if ps.any fun a => !s.inBounds x d a.1 a.2 then r 0x19 0xFF (num e) else none) <|>
  es.findSome? (fun e =>
    if d.space = 0 ∧ s.stackStatus ((at' e).base / 2 ^ 36) = 6 then r 0x2F 0xFF (num e) else none)

/-- The headers of a LAYOUT = 1 descriptor, entry by entry (R166): each read once, a failed read refused under R581. -/
def readHeaders (s : State) (x : LCtx) (i : Nat) (d : Desc) :
    List Nat → List (Nat × Nat × Nat × Nat) → State × Except Refuse (List (Nat × Nat × Nat × Nat))
  | [], acc => (s, .ok acc.reverse)
  | e :: es, acc =>
    let z := x.entryDesc i e
    let num := if d.plistEn then e else 0xFFFFFFFF
    if !s.inBounds x d z.base (z.base + 63) then (s, .error ⟨0x19, i, 0xFF, num⟩)
    else if d.space = 1 then
      readHeaders s x i d es (arrHeader s (s.launchBase x 0 (nth x.regions 0) 0 d.handle + z.base) :: acc)
    else
      let y := s.hbmRead z.base 64 true
      if y.2.1 ≠ 0 then (y.1, .error ⟨readCode 0x19 y.2.1, i, 0xFF, num⟩)
      else readHeaders y.1 x i d es (arrHeader y.1 z.base :: acc)

/-- A base advanced to the first element of the parts of a descriptor, by their strides. -/
def advanced (split : List Part) (stride : Nat → Int) (a : Nat) : Nat :=
  (split.foldl (fun (x : Int) q => x + q.first * stride q.dim) a).toNat % 2 ^ 48

/-- Entry `n` of the pointer list of descriptor `d`, whose parts in a window are `split` (R319). -/
def splitEntry (split : List Part) (d : Desc) (n : Nat) : Nat :=
  let v := split.find? fun q => d.vdimEn && q.dim == d.vdim
  ofLe (toLe 8 (advanced split (fun k => (d.dim k).stride) (bitsOf n 47 0) + 2 ^ 48 * bitsOf n 63 48) ++
    toLe 8 ((if isBlock d.fmt then advanced split (fun k => (d.dim k).sstride) (bitsOf n 111 64) else bitsOf n 111 64) +
      2 ^ 48 * bitsOf n 127 112) ++
    toLe 4 (match v with | some q => q.ext (bitsOf n 159 128) | none => bitsOf n 159 128) ++ toLe 12 (bitsOf n 255 160))

/-- Every check of descriptor `i`, with what it reads added to the context. -/
def checkDesc (s : State) (x : LCtx) (i : Nat) : State × Except Refuse LCtx :=
  let d := descOf x.p i
  let y : State × Except Refuse LCtx :=
    if d.plistEn then
      let z := s.readOwn x.lr.tenant d.plistAddr (32 * (d.plistCnt + 1)) 0x19
      (z.1, match z.2 with
        | .error e => .error ⟨e.code, i, 0xFF, 0xFFFFFFFF⟩
        | .ok bs => .ok { x with plists := Tbl.set [] x.plists i ((kernelOf bs (d.plistCnt + 1)).map (if x.split.isEmpty then id else splitEntry (x.split.filter (·.desc == i)) d)) })
    else (s, .ok x)
  match y.2 with
  | .error e => (y.1, .error e)
  | .ok x1 =>
    match descRsvd x1 i d <|> descFormat x1 i d with
    | some e => (y.1, .error e)
    | none =>
      let z : State × Except Refuse LCtx :=
        if d.layout = 1 then
          let h := y.1.readHeaders x1 i d (List.range d.entries) []
          (h.1, match h.2 with
            | .error e => .error e
            | .ok hs =>
              match hs.zipIdx.find? fun q => q.1.2.2.1 != d.fmt with
              | some q => .error ⟨0x11, i, 0xFF, if d.plistEn then q.2 else 0xFFFFFFFF⟩
              | none => .ok { x1 with hdrs := Tbl.set [] x1.hdrs i hs })
        else (y.1, .ok x1)
      match z.2 with
      | .error e => (z.1, .error e)
      | .ok x2 =>
        match z.1.descRest x2 i d with
        | some e => (z.1, .error e)
        | none => (z.1, .ok x2)

/-- Order 4: the descriptors in index order. -/
def checkDescs (s : State) (x : LCtx) : List Nat → State × Except Refuse LCtx
  | [] => (s, .ok x)
  | i :: is =>
    let y := s.checkDesc x i
    match y.2 with
    | .error e => (y.1, .error e)
    | .ok x1 => checkDescs y.1 x1 is

/-! ### Orders 5 to 12 -/

/-- Whether 512-byte maps numbered below `n` from offset `off` stay within handle `h`. -/
def mapsFit (s : State) (x : LCtx) (h off n : Nat) : Bool := decide (off + 512 * n ≤ s.extentOf x h)

/-- The greatest extent of dimension k over the entries of descriptor `i`. -/
def maxExt (x : LCtx) (i k : Nat) : Nat :=
  ((List.range (descOf x.p i).entries).map fun e => (x.entryDesc i e).ext k).foldl max 0

/-- Zero maps of a descriptor's tiles (R156, R204, R580). -/
def mapCount (x : LCtx) (i : Nat) : Nat :=
  let d := descOf x.p i
  d.entries * cdiv d.spanRows 64 * cdiv (d.span 0) 64

/-- Order 5: drain records (R152, R153). -/
def checkDrain (s : State) (x : LCtx) (r : DrainRec) : Chk :=
  let d := descOf x.p r.outDesc
  refuseIf (!(decide (r.fmt ≤ 8) || r.fmt == 14) || decide (r.outDesc < x.nDesc) && d.fmt != r.fmt) 0x11 <|>
  refuseIf (r.rsvd != 0 || decide (8 ≤ r.func) || r.fmt == 14 && (r.func != 0 || r.stashSel != 0 || r.zmap) ||
    r.stashSel == 3) 0x20 <|>
  refuseIf (r.bias && decide (s.extentOf x r.biasHandle < 4 * maxExt x r.outDesc 0) ||
    r.zmap && (r.zmapOff % 512 != 0 || !s.mapsFit x r.zmapHandle r.zmapOff (mapCount x r.outDesc))) 0x19

/-- Order 6: Sieve records (R203). -/
def checkSieve (s : State) (x : LCtx) (r : SieveRec) : Chk :=
  let w := descOf x.p r.wdesc
  let a := descOf x.p r.adesc
  let rate := pairRate a.fmt w.fmt
  refuseIf (r.rsvd != 0 || r.zmMode == 3 || w.layout == 0 || w.space == 0 ||
    (x.regions.any fun g => s.on (Reg.SP_HT_KIND g w.handle)) || a.layout == 1 || r.tn == 2 && (a.fmt == 0 || a.fmt == 14 || a.fmt == 15) ||
    decide (r.budget < if rate = 0 then 24 * r.tn else 8 * r.tn / rate) || r.zmOff % 512 != 0 || r.cenOff % 4 != 0 ||
    r.zmMode != 0 && !s.mapsFit x r.zmH r.zmOff (mapCount x r.adesc)) 0x21

/-- Whether an FP32 pattern is neither infinite nor NaN. -/
def finite32 (n : Nat) : Bool := bitsOf n 30 23 != 255

/-- Body tiles of a tile array over all its entries. -/
def bodyTiles (d : Desc) : Nat := d.entries * (cdiv (d.ext 1) 64 * cdiv (d.ext 0) 64)

/-- Positions of the largest scope instance (Table 8.3). -/
def scopeSize (scope : Nat) : Nat := ((instances scope (64, 64)).map (·.length)).foldl max 0

/-- Order 7: Shears records (R217, R218). Only an OP that grows uses its INIT fields (Table 8.1). -/
def checkShears (x : LCtx) (gen : Bool) (r : ShearsRec) : Chk :=
  let w := descOf x.p r.wdesc
  let g := descOf x.p r.gdesc
  let ids := LCtx.arrays r
  let comp := fun i => let c := descOf x.p i
    c.rank == w.rank && c.plistEn == w.plistEn && c.plistCnt == w.plistCnt && (List.range 6).all fun k =>
      (c.dim k).org == (w.dim k).org && c.ext k == w.ext k && (c.dim k).pext == (w.dim k).pext
  refuseIf (r.rsvd != 0 || r.op == 7 || decide (5 ≤ r.scope) ||
    (ids.any fun i => let c := descOf x.p i; c.layout == 0 || c.space == 0 || c.vdimEn) || (ids.any fun i => !comp i) ||
    (r.op == 2 || r.op == 4) && (g.layout == 1 || g.space == 0 || decide (1 < g.fmt) || g.rank != 2 ||
      (List.range 6).any fun k => g.ext k != w.ext k) ||
    decide (r.ncomp < r.src) || decide (scopeSize r.scope < r.count) || r.count != 0 && (r.op == 0 || r.op == 6) ||
    decide (2 ^ 31 < r.thresh) || !finite32 r.thresh || 
    decide (2 ≤ r.op ∧ r.op ≤ 5) && (r.init.take (r.ncomp + 1)).any (fun v => !finite32 v) ||
    decide (bodyTiles w < r.tfirst + r.tcount)) 0x22 <|>
  refuseIf ((r.op == 2 || r.op == 4) && !x.lr.dgrad) 0x23 <|>
  refuseIf gen 0x24 <|>
  refuseIf ((r.op == 3 || r.op == 5) && ((x.drains.any fun d => d.rnd && d.stream == r.stream ||
      d.stashRnd && d.stashStream == r.stream) ||
    (x.idxs 7).any fun i => (secRec x.p 7 i).testBit 12 && bitsOf (secRec x.p 7 i) 11 0 == r.stream)) 0x2C

/-- Order 8: SGW records (R247). -/
def checkSgw (s : State) (x : LCtx) (r : SgwRec) : Chk :=
  let a := descOf x.p r.adesc
  let g := descOf x.p r.gdesc
  let okFmt := fun (f : Nat) => decide (1 ≤ f ∧ f ≤ 8)
  refuseIf (r.rsvd != 0 || r.zmMode == 1 || r.zmMode == 3 || r.pos == 0 || a.layout == 1 || g.layout == 1 ||
    !okFmt a.fmt || !okFmt g.fmt || decide (r.budget < cdiv 32 (max 1 (pairRate a.fmt g.fmt))) || r.zmOff % 512 != 0 ||
    r.zmMode == 2 && !s.mapsFit x r.zmH r.zmOff (mapCount x r.gdesc)) 0x25

/-- Order 8: derivative records and the drains that name them (R256). -/
def checkDeriv (x : LCtx) (i : Nat) : Chk :=
  let r := derivOf x.p i
  let d := descOf x.p r.sdesc
  let users := (x.derivPairs.filter fun q => q.2 == i).map fun q => drainOf x.p q.1
  refuseIf (r.rsvd != 0 || decide (8 ≤ r.dfunc) || r.dfunc == 2 && (decide (2 ^ 31 < r.slope) || !finite32 r.slope) ||
    d.layout == 1 || d.space == 0 || decide (8 < d.fmt) ||
    users.any fun u => let o := descOf x.p u.outDesc
      u.func != 0 || u.bias || u.stashSel != 0 || o.rank != d.rank || (entryPairs d o true 0).any fun q =>
        (List.range 6).any fun k => (x.entryDesc u.outDesc q.2).ext k != (x.entryDesc r.sdesc q.1).ext k) 0x20

/-- Whether a bundle may store into an accumulator window, and so end what an SGW wrote there (R248). -/
def mayStoreTile (s : State) (x : LCtx) (b : Bundle) : Bool :=
  let acc := fun (i : Nat) => let d := descOf x.p i; d.space == 1 && x.regions.any fun r => s.on (Reg.SP_HT_ACC r d.handle)
  b.mv != .nop || (match b.vu with | .vst _ _ i _ _ _ => acc i | .vsts _ _ _ i _ _ _ => acc i | _ => false) ||
    match b.mu with | .drain _ _ i _ _ _ _ _ => acc (drainOf x.p i).outDesc | _ => false

/-- Whether a drain record may drain a tile that an SGW wrote (R248), whichever entry of its output it takes. -/
def drainFits (x : LCtx) (i : Nat) : Bool :=
  let r := drainOf x.p i
  (List.range (descOf x.p r.outDesc).entries).any fun e => entryMode r (x.entryDesc r.outDesc e)

/-- R248 along a kernel: `l` are the tiles (4·MU + tile) that an SGW wrote last. True when one of them is drained through a record that
may not; the reading ends at the first control transfer, beyond which the tiles depend on the run (DESIGN CHOICE, log 26). -/
def entryDrainBad (s : State) (x : LCtx) : List Nat → List Nat → Bool
  | [], _ => false
  | w :: ws, l =>
    match decodeBundle w with
    | .error _ => false
    | .ok b =>
      let bad := match b.mu with
        | .drain mu tile i den _ _ _ _ => l.contains (4 * mu + tile) && (den || !drainFits x i)
        | _ => false
      let l1 := match b.mu with
        | .sgw mu _ _ _ _ i => (l ++ (setBits (sgwOf x.p i).pos 4).map (4 * mu + ·))
        | .mma mu tile _ _ _ => l.filter (· != 4 * mu + tile)
        | .smma mu tile _ _ _ _ => l.filter (· != 4 * mu + tile)
        | .rake mu tile tile2 =>
          (l.filter (· != 4 * (mu + 1) + tile2)) ++ if l.contains (4 * mu + tile) then [4 * (mu + 1) + tile2] else []
        | .accZero mu tile => l.filter (· != 4 * mu + tile)
        | _ => l
      bad || match b.ct with
        | .halt => false
        | .jmp _ => false
        | .bnz _ _ => false
        | .bz _ _ => false
        | .decbnz _ _ => false
        | _ => entryDrainBad s x ws (if s.mayStoreTile x b then [] else l1)

/-- Order 8: drains of tiles that an SGW wrote (R248). -/
def checkEntryDrains (s : State) (x : LCtx) : Chk := refuseIf (s.entryDrainBad x x.kern []) 0x20

/-- Order 9: DMA records (R298). -/
def checkDma (s : State) (x : LCtx) (m : DmaRec) : Chk :=
  let a := descOf x.p m.src
  let b := descOf x.p m.dst
  let k' := fun k => if m.trans then (if k = 0 then 1 else if k = 1 then 0 else k) else k
  let shapes := (entryPairs a b true 0).any fun q =>
    (List.range 6).any fun k => (x.entryDesc m.src q.1).ext (k' k) != (x.entryDesc m.dst q.2).ext k
  refuseIf (m.rsvd != 0 || m.stashEn && m.dst != 0 || !m.stashEn && (a.rank != b.rank || shapes ||
      a.plistEn && b.plistEn && a.plistCnt != b.plistCnt || a.layout != b.layout ||
      a.layout == 1 && (!m.whole || m.trans)) || m.stashEn && a.layout == 1 ||
    m.evtEn && s.rd (Reg.TEN_REGION_OWNER m.evtRegion) != x.lr.tenant) 0x26

/-- Order 10: the phase (R253). -/
def checkPhase (x : LCtx) : Chk :=
  refuseIf (x.lr.phase != 2 && (x.ops.any fun b => match b.mu with | .sgw _ _ _ _ _ _ => true | _ => false) ||
    x.lr.phase != 0 && (x.drains.any (fun r => r.stashSel != 0) || x.dmas.any fun m => m.stashEn)) 0x27

/-- Stash entries that the launch writes: (entry field, number, live format, whether maps come). -/
def stashWriters (x : LCtx) : List (Nat × Nat × Nat × Bool) :=
  ((x.drains.filter fun r => r.stashSel != 0).map fun r => (r.stashEntry, (descOf x.p r.outDesc).entries, r.fmt, r.zmap)) ++
    ((x.dmas.filter fun m => m.stashEn).map fun m => (m.stashEntry, (descOf x.p m.src).entries, (descOf x.p m.src).fmt, false))

/-- Directory entries that the launch names: 1024·die + entry. -/
def stashNamed (x : LCtx) : List Nat :=
  (((stashWriters x).flatMap fun (w : Nat × Nat × Nat × Bool) => x.dies.flatMap fun d => (List.range w.2.1).map fun j => 1024 * d + (w.1 + j) % 1024) ++
    (List.range (stashCnt x.p)).map fun i => let b := stashBinding x.p i
      1024 * bitsOf b 13 12 + bitsOf b 9 0).eraseDups

/-- Order 11: stash entries (R266) and bindings (R269). -/
def checkStash (s : State) (x : LCtx) : Chk :=
  firstBad (stashWriters x) (fun w => refuseIf (decide (1024 ≤ w.1 + (w.2.1 - 1)) || x.dies.any fun d =>
    (List.range w.2.1).any fun j =>
      let e := w.1 + j
      let st := s.rd (Reg.STD_ENT_STATE d e)
      !(st == 1 || st == 3) || s.on (Reg.STD_ENT_BUSY d e) || s.rd (Reg.STD_ENT_TENANT d e) != x.lr.tenant ||
        s.rd (Reg.STD_ENT_LFMT d e) != w.2.2.1 || s.on (Reg.STD_ENT_MAPS d e) && !w.2.2.2) 0x28) <|>
  firstBad (List.range (stashCnt x.p)) (fun i =>
    let b := stashBinding x.p i
    let e := bitsOf b 9 0
    let d := bitsOf b 13 12
    let j := bitsOf b 23 16
    let st := s.rd (Reg.STD_ENT_STATE d e)
    let ds := descOf x.p j
    let lo : Int := s.rd (Reg.STD_ENT_BASE d e)
    let hi : Int := lo + 64 * s.rd (Reg.STD_ENT_SIZE d e)
    refuseIf (s.rd (Reg.STD_ENT_GEN d e) != bitsOf b 63 32 || s.rd (Reg.STD_ENT_TENANT d e) != x.lr.tenant ||
      st == 0 || st == 1) 0x29 <|>
    refuseIf (st == 3) 0x2A <|>
    refuseIf (decide (x.nDesc ≤ j) || ds.space == 1 || ds.layout == 1 || (List.range ds.entries).any fun en =>
      (x.prints j en false).any fun a => decide (a.1 < lo ∨ hi ≤ a.2)) 0x2B)

/-- The index span of a descriptor (R580). -/
def indexSpan (x : LCtx) (i : Nat) : Nat := let d := descOf x.p i; d.entries * d.spanCount

/-- Whether a value of format `f` goes to format `g` without rounding: exactly (Table 2.4), or as a block copy (R46). -/
def copies (f g : Nat) : Bool := exactConv f g || isBlock f && f == g

/-- Drawing operations as (stream, blocks needed), 0 blocks where a stream is named and nothing is drawn (R52, R63, R218,
R230). -/
def draws (x : LCtx) : List (Nat × Nat) :=
  (x.drains.flatMap fun r =>
    let n := cdiv (indexSpan x r.outDesc) 4
    (if r.rnd then [(r.stream, if r.fmt = 0 ∨ r.fmt = 14 then 0 else r.blkOff + n)] else []) ++
      (if r.stashRnd then [(r.stashStream, if r.stashSel = 0 ∨ copies (if r.stashSel = 1 then r.fmt else 0) (stashFmt r.fmt) then 0
        else r.stashBlkOff + n)] else [])) ++
  (x.shearss.flatMap fun r =>
    if r.op = 3 ∨ r.op = 5 then
      let d := descOf x.p r.wdesc
      let n := cdiv (d.entries * (d.ext 1 * d.ext 0)) 4
      let top := ((x.regions.zipIdx.flatMap fun q => (List.range 8).map fun c => (x.clusterRec q.2 c).2)).foldl max 0
      [(r.stream, r.blkOff + (top + 1) * n)]
    else []) ++
  ((x.idxs 7).flatMap fun i =>
    let e := secRec x.p 7 i
    let d := descOf x.p i
    let used := x.dmas.any (fun m =>
        if m.stashEn then m.src == i && !copies d.fmt (stashFmt d.fmt)
        else m.dst == i && d.layout == 0 && (let f := (descOf x.p m.src).fmt
          if f = d.fmt then isBlock f && m.trans else !exactConv f d.fmt)) ||
      x.ops.any fun b => match b.vu with
        | .vst _ w rcd _ _ _ => rcd == i && !exactConv (if w then 1 else 0) d.fmt
        | .vsts _ _ _ rcd _ _ _ => rcd == i && !exactConv 0 d.fmt
        | _ => false
    if e.testBit 12 then [(bitsOf e 11 0, if used then bitsOf e 127 64 + cdiv (indexSpan x i) 4 else 0)] else [])

/-- Streams declared: (stream, D). -/
def declared (x : LCtx) : List (Nat × Nat) := (x.idxs 10).map fun i => let n := secRec x.p 10 i; (bitsOf n 11 0, bitsOf n 127 64)

/-- Order 12: streams (R64, then R63 and R278). -/
def checkStreams (s : State) (x : LCtx) : Chk :=
  let ds := declared x
  firstBad (ds.map (·.1) ++ (draws x).map (·.1)) (fun n =>
    refuseIf (s.on (Reg.STREAM_BUSY n) || !s.on (Reg.STREAM_EN n)) 0x2C <|>
    refuseIf (s.rd (Reg.STREAM_OWNER n) != x.lr.tenant) 0x2D) <|>
  firstBad (draws x) (fun q => match ds.find? (fun z => z.1 == q.1) with
    | none => some (Refuse.of 0x2E)
    | some z => refuseIf (decide (z.2 < q.2)) 0x2E)

/-- Orders 5 to 12 of Table 10.4. -/
def checkRecords (s : State) (x : LCtx) : Chk :=
  let t := x.lr.tenant
  firstBad x.drains (s.checkDrain x) <|>
  firstBad x.sieves (s.checkSieve x) <|>
  firstBad x.shearss (checkShears x (s.tenantBit Reg.COL_XORID_EN t && s.tenantBit Reg.COL_XORID_GEN t)) <|>
  firstBad x.sgws (s.checkSgw x) <|>
  firstBad (x.idxs 5) (checkDeriv x) <|>
  s.checkEntryDrains x <|>
  firstBad x.dmas (s.checkDma x) <|>
  checkPhase x <|> s.checkStash x <|> s.checkStreams x

/-- Orders 2 to 12 of Table 10.4. -/
def checkAll (s : State) (x : LCtx) : State × Except Refuse LCtx :=
  match s.checkRegions x <|> s.checkHandles x with
  | some e => (s, .error e)
  | none =>
    let z := s.checkDescs x (x.idxs 0)
    match z.2 with
    | .error e => (z.1, .error e)
    | .ok x2 =>
      match z.1.checkRecords x2 with
      | some e => (z.1, .error e)
      | none => (z.1, .ok x2)

/-- Validation of a launch record (R279, Table 10.4). -/
def validate (s : State) (lr : LRec) : State × Except Refuse LCtx :=
  let y := s.readLaunch lr
  match y.2 with
  | .error e => (y.1, .error e)
  | .ok x => y.1.checkAll x

/-! ### Completion records (R435, R436) -/

/-- A completion record (Table 16.7) as a 512-bit number. -/
def complRec (id status dbg code region tenant : Nat) (e : Refuse) (bundle ic : Nat) : Nat :=
  id + status * 2 ^ 32 + dbg * 2 ^ 36 + code * 2 ^ 40 + region * 2 ^ 48 + tenant * 2 ^ 56 + e.desc * 2 ^ 64 +
    e.dim * 2 ^ 72 + e.entry * 2 ^ 96 + bundle % 2 ^ 13 * 2 ^ 128 + ic % 2 ^ 48 * 2 ^ 160

/-- Whether the completion ring has no room (R436). -/
def ringFull (s : State) : Bool :=
  let n := s.rd Reg.HTP_CQ_SIZE_ENTRIES
  n == 0 || (s.rd Reg.HTP_CQ_HEAD_INDEX + 1) % n == s.rd Reg.HTP_CQ_TAIL_INDEX

/-- A record written into the ring. -/
def ringPut (s : State) (n : Nat) : State :=
  let h := s.rd Reg.HTP_CQ_HEAD_INDEX
  ((s.hbmWrite (s.rd Reg.HTP_CQ_BASE_ADDR + 64 * h) (toLe 64 n) true).1).wr Reg.HTP_CQ_HEAD_INDEX
    ((h + 1) % s.rd Reg.HTP_CQ_SIZE_ENTRIES)

/-- A decided record: into the ring, or behind those that wait for room; every core's WAIT condition 1 holds (R310, R436). -/
def commitRec (s : State) (n : Nat) : State :=
  let s1 := (List.range 8).foldl (fun t c => t.wr (In.ccDone c) 1) s
  if s.pendRecs.isEmpty && !s.ringFull then s1.ringPut n else { s1 with pendRecs := s1.pendRecs ++ [n] }

/-- COMPLETION_RING_ENTRY (R436): the oldest waiting record enters once room frees. -/
def ringEntry (s : State) : State :=
  match s.pendRecs with
  | [] => s
  | n :: l => if s.ringFull then s else { s with pendRecs := l }.ringPut n

/-! ### Acceptance (R279 to R281) -/

/-- Device ranges that the launch may write (R117, R307): footprints of its stores, zero maps, census words and open stash
images, as (address, length). -/
def storeRanges (s : State) (x : LCtx) : List (Nat × Nat) :=
  let cl := x.regions.zipIdx.flatMap fun q => (List.range 8).map fun c => (q.2, q.1, c)
  let place' := fun (d : Desc) (a : Int × Int) =>
    let n := (a.2 + 1 - a.1).toNat
    if d.space = 0 then [(a.1.toNat, n)] else cl.map fun k => (s.launchBase x k.1 k.2.1 k.2.2 d.handle + a.1.toNat, n)
  let byH := fun (h off n : Nat) => cl.map fun k => (s.launchBase x k.1 k.2.1 k.2.2 h + off, n)
  ((x.stores.filter fun i => decide (i < x.nDesc)).flatMap fun i => (List.range (descOf x.p i).entries).flatMap fun e =>
    (x.prints i e true).flatMap (place' (descOf x.p i))) ++
  ((x.drains.filter (·.zmap)).flatMap fun r => byH r.zmapHandle r.zmapOff (512 * mapCount x r.outDesc)) ++
  ((x.sieves.filter (·.cenEn)).flatMap fun r => byH r.cenH r.cenOff (s.extentOf x r.cenH - r.cenOff)) ++
  ((stashWriters x).flatMap fun (w : Nat × Nat × Nat × Bool) => x.dies.flatMap fun d => (List.range w.2.1).filterMap fun j =>
    if s.rd (Reg.STD_ENT_STATE d (w.1 + j)) = 1 then
      some (s.rd (Reg.STD_ENT_BASE d (w.1 + j)), 64 * s.rd (Reg.STD_ENT_SIZE d (w.1 + j))) else none)

/-- Handles that the launch's store sides name, 1024·region + handle (R491). -/
def storeHandles (x : LCtx) : List Nat :=
  let hs := ((x.stores.filterMap fun i => let d := descOf x.p i; if d.space = 1 then some d.handle else none) ++
    (x.drains.filterMap fun r => if r.zmap then some r.zmapHandle else none) ++
    (x.sieves.filterMap fun r => if r.cenEn then some r.cenH else none)).eraseDups
  x.regions.flatMap fun r => hs.map fun h => 1024 * r + h

/-- Stacks that the launch's descriptors address, as a mask. -/
def launchStacks (x : LCtx) : Nat :=
  let ks := ((x.idxs 0).flatMap fun i => let d := descOf x.p i
    if d.space = 0 then (List.range d.entries).map fun e => (x.entryDesc i e).base / 2 ^ 36 else []).eraseDups
  (ks.map (2 ^ ·)).foldl (· + ·) 0

/-- A launch accepted (R64, R129, R266, R269, R279 to R281, R491): BUSY on what it names, the copies of kernel and parameter
block in every region, and its regions loading. -/
def accept (s : State) (core : Nat) (x : LCtx) : State :=
  let n := s.wid
  let lr := x.lr
  let wh := storeHandles x
  let held := wh.any fun h => Tbl.get 0 s.protH h != 0
  let ds := declared x
  let l : Launch := { id := lr.id, tenant := lr.tenant, regions := lr.regions, phase := lr.phase, evo := lr.evo,
                      dgrad := lr.dgrad, xgen := lr.xgen, cscope := lr.cscope, core := core, handles := x.bound,
                      streams := ds, stashes := stashNamed x, stores := s.storeRanges x, whandles := wh,
                      stackSet := launchStacks x, done := 0, lastR := 0, fault := none, aborted := false, debug := false,
                      held := held, win := none }
  let ctrs := ds.map fun d => (d.1, s.rd (Reg.STREAM_KEY d.1), s.rd (Reg.STREAM_CTR d.1))
  let s1 := x.bound.foldl (fun t h => x.regions.foldl (fun t r => t.wr (Reg.SP_HT_BUSY r h) 1) t) s
  let s2 := ds.foldl (fun t d => t.wr (Reg.STREAM_BUSY d.1) 1) s1
  let s3 := (stashNamed x).foldl (fun t e => t.wr (Reg.STD_ENT_BUSY (e / 1024) (e % 1024)) 1) s2
  let s4 := if held then s3.inc Reg.SNP_HELD_CNT_COUNT 1 else s3
  let s5 := x.regions.zipIdx.foldl (fun (t : State) q =>
    let r := q.1
    let rec' := if q.2 < secCnt x.p 8 then secRec x.p 8 q.2 else 0
    let sq : Seq := { Seq.idle with
      launch := some n, kern := x.kern, param := x.p, plists := x.plists,
      spoff := (List.range 8).map fun c => (x.clusterRec q.2 c).1,
      slice := (List.range 8).map fun c => (x.clusterRec q.2 c).2, ctrs := ctrs,
      ix := (List.range 16).map fun k => if k = 0 then 0 else bitsOf rec' (32 * k + 31) (32 * k) }
    ((((t.noteWaker r lr.tenant).wakeRegion r).gateCancel r).setSeq r sq).wrs [(Reg.SQ_STAT_STATE r, 1), (Reg.SQ_STAT_PHASE r, lr.phase),
      (Reg.SQ_LAUNCH_ID r, lr.id), (Reg.SQ_IC_LO_COUNT r, 0), (Reg.SQ_IC_HI_COUNT r, 0), (Reg.SQ_FAULT_CODE r, 0),
      (Reg.SQ_FAULT_SLOT r, 0), (Reg.SQ_FAULT_CLUSTER r, 0), (Reg.SQ_FAULT_BUNDLE r, 0), (Reg.SQ_FAULT_IC_COUNT r, 0)])
    { s4 with wid := n + 1 }
  s5.setLaunch n l

/-! ### Re-tiling (R319) -/

/-- The extents over plan: (descriptor, dimension, extent, PLAN), of a pointer list with VDIM_EN its greatest VEXT. -/
def overPlan (s : State) (x : LCtx) : List (Nat × Nat × Nat × Nat) :=
  (x.idxs 0).flatMap fun i =>
    let d := descOf x.p i
    (List.range (min 6 d.rank)).filterMap fun k =>
      let n := if d.plistEn ∧ d.vdimEn ∧ d.vdim = k then
          (List.range (d.plistCnt + 1)).foldl (fun m j => max m (s.peekN (d.plistAddr + 32 * j + 16) 4)) (d.ext k)
        else d.ext k
      if (d.dim k).plan < n then some (i, k, n, (d.dim k).plan) else none

/-- Whether dimension `k` of descriptor `i` is contracted: by an operand load of the kernel, or in a tile array, whose windows firmware does
not split (DESIGN CHOICE, log 184). -/
def contracted (x : LCtx) (i k : Nat) : Bool :=
  (descOf x.p i).layout == 1 || x.ops.any fun b => match b.mu with
    | .load isB _ _ tr qen _ rcd _ _ _ => rcd == i && contraction isB tr qen == k
    | _ => false

/-- The loops that firmware splits, as (extent, PLAN), where the three conditions of R319 hold. Extents that agree in both numbers are one
loop; with two in one descriptor the launch is not split (DESIGN CHOICE, log 184). -/
def retileLoops (s : State) (lr : LRec) : Option (List (Nat × Nat)) :=
  match (s.readLaunch lr).2 with
  | .error _ => none
  | .ok x =>
    let os := s.overPlan x
    let ok := os.all fun o =>
      !contracted x o.1 o.2.1 && (descOf x.p o.1).space == 0 && o.2.2.2 % 64 == 0 && o.2.2.2 != 0 &&
        (os.filter fun q => q.1 == o.1 && q.2.2 == o.2.2).length == 1
    if ok then some (os.map (·.2.2)).eraseDups else none

/-- The windows of each loop: (extent, PLAN, window of this loop) for window `w` of all, the first loop outermost. -/
def windowOf : List (Nat × Nat) → Nat → List (Nat × Nat × Nat)
  | [], _ => []
  | q :: l, w =>
    let inner := (l.map fun z => cdiv z.1 z.2).foldl (· * ·) 1
    (q.1, q.2, w / inner) :: windowOf l (w % inner)

/-- The number of windows. -/
def windows (l : List (Nat × Nat)) : Nat := (l.map fun z => cdiv z.1 z.2).foldl (· * ·) 1

/-- Bytes put in place of those from `off`. -/
def patch (p : List Nat) (off : Nat) (bs : List Nat) : List Nat := p.take off ++ bs ++ p.drop (off + bs.length)

/-- The parts that the extents over plan `os` have in the windows `win`. -/
def splitOf (os : List (Nat × Nat × Nat × Nat)) (win : List (Nat × Nat × Nat)) : List Part :=
  os.filterMap fun o => (win.find? fun q => q.1 == o.2.2.1 && q.2.1 == o.2.2.2).map fun q => ⟨o.1, o.2.1, o.2.2.2, q.2.2⟩

/-- The parameter block of a window (R319): every extent over plan set to the window's, and BASE (and for a block format SCALE_BASE)
advanced; with a pointer list the entries carry the bases. -/
def windowParam (x : LCtx) (split : List Part) : List Nat :=
  (x.idxs 0).foldl (fun p i =>
    let d := descOf x.p i
    let qs := split.filter (·.desc == i)
    let at' := secOff p 0 + 256 * i
    let p1 := qs.foldl (fun p q => patch p (at' + 32 + 32 * q.dim) (toLe 4 (q.ext (d.dim q.dim).ext))) p
    if d.plistEn ∨ qs.isEmpty then p1
    else
      let p2 := patch p1 (at' + 8) (toLe 6 (advanced qs (fun k => (d.dim k).stride) d.base))
      if isBlock d.fmt then patch p2 (at' + 16) (toLe 6 (advanced qs (fun k => (d.dim k).sstride) d.scaleBase)) else p2) x.p

/-- The number of the window's first element in output descriptor `i`, where the dimension split is the outermost of an extent above 1
(R319); 0 otherwise. -/
def firstElem (x : LCtx) (split : List Part) (i : Nat) : Nat :=
  let d := descOf x.p i
  match split.filter (·.desc == i) with
  | [q] =>
    if d.entries = 1 ∧ (List.range 6).all (fun j => decide (j ≤ q.dim ∨ d.ext j ≤ 1)) then
      q.first * ((List.range q.dim).map d.span).foldl (· * ·) 1
    else 0
  | _ => 0

/-- The BLK_OFF fields of drain and rounding records advanced (R319). -/
def windowBlocks (x : LCtx) (split : List Part) (p : List Nat) : List Nat :=
  let adv := fun (p : List Nat) (at' n : Nat) => patch p at' (toLe 8 ((blk p at' 8 + n / 4) % 2 ^ 64))
  let p1 := (x.idxs 1).foldl (fun p i =>
    let n := firstElem x split (drainOf x.p i).outDesc
    adv (adv p (secOff p 1 + 64 * i + 16) n) (secOff p 1 + 64 * i + 24) n) p
  (x.idxs 7).foldl (fun p i => adv p (secOff p 7 + secSize 7 * i + 8) (firstElem x split i)) p1

/-- Window `w` of a re-tiled launch, validated as a launch of its own (R319). -/
def validateWindow (s : State) (lr : LRec) (loops : List (Nat × Nat)) (w : Nat) : State × Except Refuse LCtx :=
  let y := s.readLaunch lr
  match y.2 with
  | .error e => (y.1, .error e)
  | .ok x =>
    let split := splitOf (y.1.overPlan x) (windowOf loops w)
    y.1.checkAll { x with p := windowBlocks x split (windowParam x split), split := split }

/-- Window `w` of a re-tiled launch started, or refused. -/
def startWindow (s : State) (c : Nat) (lr : LRec) (loops : List (Nat × Nat)) (w : Nat) : State :=
  let z := s.validateWindow lr loops w
  match z.2 with
  | .error e => z.1.commitRec (complRec lr.id 3 0 e.code 0x3F lr.tenant e 0 0)
  | .ok x =>
    let t := z.1.accept c x
    t.setLaunch z.1.wid { t.launch z.1.wid with win := some (lr, loops, w) }

/-- The outcome of a validation: the launch accepted, or its refusal committed, or, of a launch refused with SHAPE_EXCEEDS_PLAN that firmware
re-tiles, its first window started (R319). -/
def conclude (z : State × Except Refuse LCtx) (c : Nat) (lr : LRec) : State :=
  match z.2 with
  | .ok x => z.1.accept c x
  | .error e =>
    match if e.code = 0x16 then z.1.retileLoops lr else none with
    | some loops => z.1.startWindow c lr loops 0
    | none => z.1.commitRec (complRec lr.id 3 0 e.code 0x3F lr.tenant e 0 0)

/-- LAUNCH_SUBMIT (R445, R279): core `c` writes MOD_LAUNCH_HI, or, while PEND is 1, the launch unit takes the record it could
not take before. -/
def launchSubmit (s : State) (c hi : Nat) : State :=
  let s0 := if s.on (Reg.MOD_LAUNCH_STAT_PEND c) then s
    else (s.wr (Reg.MOD_LAUNCH_HI_ADDR c) hi).wr (Reg.MOD_LAUNCH_STAT_PEND c) 1
  if 64 ≤ s0.pendRecs.length then s0
  else
    let a := s0.rd (Reg.MOD_LAUNCH_LO_ADDR c) + 2 ^ 32 * s0.rd (Reg.MOD_LAUNCH_HI_ADDR c)
    let s1 := s0.wr (Reg.MOD_LAUNCH_STAT_PEND c) 0
    let y := s1.hbmRead a 64 true
    if y.2.1 ≠ 0 then y.1.commitRec (complRec 0 3 0 (readCode 1 y.2.1) 0x3F 0 (Refuse.of 0) 0 0)
    else
      let lr := parseLaunch (ofLe y.2.2)
      if s1.on (In.subAbort c) then
        (y.1.wr (In.subAbort c) 0).commitRec (complRec lr.id 2 0 0 0x3F lr.tenant (Refuse.of 0) 0 0)
      else
        let z := if y.1.ownRange lr.tenant a 64 then y.1.validate lr else (y.1, .error (Refuse.of 1))
        conclude z c lr

/-! ### The commit point (R437) -/

/-- Bytes with open values written at a range (R117, R307): free values, one each (log 6). -/
def openRange (s : State) (a : Nat) : Nat → State
  | 0 => s
  | n + 1 => openRange { s.poke a (Config.freeByte s.free).toNat with free := s.free + 1 } (a + 1) n

/-- The reset of a region that faulted, after its launch's record (R447): sequencer, index registers, VU registers, Sieve pages
and zero maps, and what its units hold of the fault. The fault registers go on naming the last fault, as their tables say. -/
def regionReset (s : State) (r : Nat) : State :=
  (List.range 8).foldl (fun t c =>
    let k := cix r c
    let x := t.clu k
    t.setClu k { x with vregs := [], vtr := 0, vsts := none, mask := [],
                        mus := Tbl.mapv Mu.empty (fun m => { m with pages := [], halfBusy := [], zmaps := [] }) x.mus }) s

/-- Streams advanced and everything a launch holds released (R65, R129, R269). -/
def releaseLaunch (s : State) (l : Launch) : State :=
  let s1 := l.streams.foldl (fun t d =>
    (t.wr (Reg.STREAM_CTR d.1) (t.rd (Reg.STREAM_CTR d.1) + d.2)).wr (Reg.STREAM_BUSY d.1) 0) s
  let s2 := l.handles.foldl (fun t h => (setBits l.regions 32).foldl (fun t r => t.wr (Reg.SP_HT_BUSY r h) 0) t) s1
  l.stashes.foldl (fun t e => t.wr (Reg.STD_ENT_BUSY (e / 1024) (e % 1024)) 0) s2

/-- The record of launch `l` once every region has completed. -/
def launchRec (s : State) (l : Launch) : Nat :=
  match l.fault with
  | some f => complRec l.id 1 (b2n l.debug) f.code f.region l.tenant (Refuse.of 0) f.bundle f.ic
  | none => complRec l.id (if l.aborted then 2 else 0) (b2n l.debug) 0 0x3F l.tenant (Refuse.of 0) 0 (s.seq l.lastR).ic

/-- The window of a re-tiled launch that follows window `l`, unless it faulted or was aborted (R319). -/
def nextWindow (l : Launch) : Option (LRec × List (Nat × Nat) × Nat) :=
  match l.win with
  | some (lr, loops, w) =>
    if l.fault.isNone && !l.aborted && decide (w + 1 < windows loops) then some (lr, loops, w + 1) else none
  | none => none

/-- Whether a stash writer still holds a row of launch `l` (R268). -/
def stashing (s : State) (l : Launch) : Bool := s.stashq.any fun p => p.2.any fun x => l.regions.testBit x.region

/-- LAUNCH_COMMIT (R437, R65, R268, R447): every region of a launch has completed and every stash write has; its record is
committed. The windows of a re-tiled launch run one after another (R319); the record of the last stands for all, and the streams advance
with it (DESIGN CHOICE, log 184). -/
def launchCommit (s : State) (id tenant : Nat) : State :=
  match s.launches.find? (fun p => p.2.id == id && p.2.tenant == tenant) with
  | none => s
  | some (n, l) =>
    if l.done ≠ l.regions ∨ s.stashing l then s
    else
      let s0 := if l.debug then s.wr (In.jobDbg l.tenant) 1 else s
      let next := nextWindow l
      let s1 := match next with
        | some _ => s0.releaseLaunch { l with streams := l.streams.map fun (d : Nat × Nat) => (d.1, 0) }
        | none => (s0.releaseLaunch l).commitRec (s.launchRec l)
      let s2 := if l.fault.isSome || l.aborted then l.stores.foldl (fun t a => t.openRange a.1 a.2) s1 else s1
      let s3 := (setBits l.regions 32).foldl (fun t r => (t.setSeq r Seq.idle).wrs
        [(Reg.SQ_STAT_STATE r, 0), (Reg.SQ_STAT_PHASE r, 0), (Reg.SQ_ABORT_GO r, 0)]) s2
      let s4 := match l.fault with | some f => s3.regionReset f.region | none => s3
      let s5 := (s4.setLaunch n noLaunch).dropAliased n
      match next with
      | some x => s5.startWindow l.core x.1 x.2.1 x.2.2
      | none => s5

/-- Whether a record of (id, tenant) is in the ring or waits for it. -/
def recKnown (s : State) (id tenant : Nat) : Bool :=
  let hit := fun (n : Nat) => n % 2 ^ 32 == id && bitsOf n 63 56 == tenant
  let size := s.rd Reg.HTP_CQ_SIZE_ENTRIES
  let t := s.rd Reg.HTP_CQ_TAIL_INDEX
  let used := if size = 0 then 0 else (s.rd Reg.HTP_CQ_HEAD_INDEX + size - t) % size
  s.pendRecs.any hit || (List.range used).any fun i => hit (s.peekN (s.rd Reg.HTP_CQ_BASE_ADDR + 64 * ((t + i) % size)) 64)

/-- HTP_ABORT (R437): the ID word brings an abort, with the TENANT last stored, to the commit point. -/
def htpAbort (s : State) (id : Nat) : State :=
  let t := s.rd Reg.HTP_ABORT_TENANT
  let s1 := s.wr Reg.HTP_ABORT_ID id
  let ans := fun (u : State) (v : Nat) => u.wr Reg.HTP_ABORT_STAT_RESULT v
  match s1.launches.find? (fun p => p.2.id == id && p.2.tenant == t) with
  | some (n, l) =>
    if l.fault.isSome || !l.aborted && l.done == l.regions then ans s1 1
    else if l.aborted then ans s1 0 else ans (s1.abortLaunch n) 0
  | none =>
    match firstBelow 8 (fun c => s1.on (Reg.MOD_LAUNCH_STAT_PEND c) &&
        (let a := s1.rd (Reg.MOD_LAUNCH_LO_ADDR c) + 2 ^ 32 * s1.rd (Reg.MOD_LAUNCH_HI_ADDR c)
         let lr := parseLaunch (s1.peekN a 64)
         lr.id == id && lr.tenant == t)) with
    | some c => ans (s1.wr (In.subAbort c) 1) 0
    | none => ans s1 (if s1.recKnown id t then 1 else 2)

/-- HELD_LAUNCH_START (R491): a held launch whose store handles are all in flash may start. -/
def heldStart (s : State) (id tenant : Nat) : State :=
  match s.launches.find? (fun p => p.2.id == id && p.2.tenant == tenant) with
  | none => s
  | some (n, l) =>
    if l.held && l.whandles.all (fun h => Tbl.get 0 s.protH h == 0) then s.setLaunch n { l with held := false } else s

end State
end Sys2Proof.Machine
end

