-- ==== Sys2Proof/Machine/Hbm.lean ====
section
/-!
DEFINITION. What the home caches and stacks do on command: the atomics of Table 12.2 (R334 to R337), flush (R331), page
protection and the first-touch copy (R342 to R346), zeroisation (R347), refresh, calibration and training (R327, R339 to R341).
-/

namespace Sys2Proof.Machine

namespace In
/-- Calibrations of stack k that fell due during a first-touch copy (R341). -/
def calDue (k : Nat) : Fld := fld 3 k 32 0
/-- How many of those needed retraining. -/
def calBad (k : Nat) : Fld := fld 4 k 32 0
end In

/-- Operand bytes of an operation of Table 12.2; 0 for a reserved one. -/
def atomBytes (op : Nat) : Nat :=
  if op = 2 then 2 else if op = 4 ∨ op = 12 then 8 else if 1 ≤ op ∧ op ≤ 11 then 4 else 0

/-- The memory afterwards of Table 12.2, with the events of FADD (R335). -/
def atomValue (op old v c : Nat) : Nat × List Ev :=
  let least := fun (x y : Nat) (b : Bool) => if b then x else y
  match op with
  | 1 => roundElem (efmt 0) .rne false ((f32 old).add (f32 v))
  | 2 => roundElem (efmt 1) .rne false ((decodeElem (efmt 1) old).add (decodeElem (efmt 1) v))
  | 3 => ((old + v) % 2 ^ 32, [])
  | 4 => ((old + v) % 2 ^ 64, [])
  | 5 => (min old v, [])
  | 6 => (max old v, [])
  | 7 => (least old v (decide (sext 32 old ≤ sext 32 v)), [])
  | 8 => (least old v (decide (sext 32 v ≤ sext 32 old)), [])
  | 9 => roundElem (efmt 0) .rne false ((f32 old).min (f32 v))
  | 10 => roundElem (efmt 0) .rne false ((f32 old).max (f32 v))
  | 11 => (if old = c then v else old, [])
  | 12 => (if old = c then v else old, [])
  | _ => (old, [])

namespace State

/-- What stands against an atomic operation at `a` before it acts: ALIGN, HOLE, STACK_LOST or BUSY (R335, R347). -/
def atomCheck (s : State) (op a : Nat) : Nat :=
  let n := atomBytes op
  if n = 0 ∨ a % n ≠ 0 then 2
  else if !inStack a n then 3
  else s.stackStatus (a / 2 ^ 36)

/-- An atomic operation at its home cache, on a page that is not protected: the state, the status and the old value. -/
def atomic (s : State) (op a v c : Nat) : State × Nat × Nat :=
  let n := atomBytes op
  let st := s.atomCheck op a
  if st ≠ 0 then (if st = 3 ∧ a < 12 * 2 ^ 36 then s.inc (Reg.HBM_HOLE_CNT_COUNT (a / 2 ^ 36)) 1 else s, st, 0)
  else
    let d := homeDie (a / 2 ^ 36)
    let s1 := s.cacheTouch (a / 128) true false true
    if Tbl.get 0 s1.poison (a / 256) = 1 then (s1, 4, 0)
    else
      let old := s1.peekN a n
      let r := atomValue op old (v % 2 ^ (8 * n)) (c % 2 ^ (8 * n))
      let s2 := ((s1.pokes (at' a (toLe n r.1))).inject [a]).inc (Reg.HC_ATOM_CNT_COUNT d) 1
      let s3 := if r.2.contains .sat && decide (op ≤ 2) then s2.inc (Reg.HC_FADD_SAT_COUNT d) 1 else s2
      (if r.2.contains .uflow && decide (op ≤ 2) then s3.inc (Reg.HC_FADD_UFLOW_COUNT d) 1 else s3, 0, old)

/-- The end of an operation of core `c`'s HC_ATOM port. -/
def atomEnd (c : Nat) (x : State × Nat × Nat) : State :=
  x.1.wrs ([(Reg.HC_ATOM_CTL_GO c, 0), (Reg.HC_ATOM_STAT_STATUS c, x.2.1)] ++
    if x.2.1 = 0 then [(Reg.HC_ATOM_RES_OLD c, x.2.2)] else [])

/-- The outcome of an operation for the agent it came from: a control core's port, or the message at the front of a host flow. -/
def atomDone (s : State) (src st old : Nat) : State :=
  if src < 8 then atomEnd src (s, st, old)
  else
    let x := Tbl.get Flow.idle s.flows (src - 128)
    let n := (x.done.getD (0, 0, 0)).2.1
    { s with flows := Tbl.set Flow.idle s.flows (src - 128) { x with done := some (st, if st = 0 then n + 1 else n, old) } }

/-- Operations in turn (R336), until one fails or meets a protected page, where the rest is held (R344). -/
def atomsRun (s : State) (src : Nat) : List HeldAtom → State
  | [] => s
  | x :: l =>
    if s.atomCheck x.op x.addr = 0 ∧ s.protectedPage (pageOf x.addr) then
      ({ s with heldw := s.heldw ++ [⟨src, [], true, x :: l⟩] } : State).queueTouched [(x.addr, 0)]
    else
      let y := s.atomic x.op x.addr x.v x.c
      let t := y.1.atomDone src y.2.1 y.2.2
      if y.2.1 ≠ 0 then t else atomsRun t src l

/-- HC_ATOM_CTL written with GO and an OP (R334, R335). An operation on a protected page is held with GO at 1 (R344); a GO while
one is held changes nothing. -/
def atomPort (s : State) (c op : Nat) : State :=
  if s.on (Reg.HC_ATOM_CTL_GO c) then s
  else
    let a := s.rd (Reg.HC_ATOM_ADDR_ADDR c)
    let v := s.rd (Reg.HC_ATOM_OPND_V c)
    let cmp := s.rd (Reg.HC_ATOM_CMP_C c)
    let s1 := s.wr (Reg.HC_ATOM_CTL_OP c) op
    if s.atomCheck op a = 0 ∧ s.protectedPage (pageOf a) then
      (({ s1 with heldw := s1.heldw ++ [⟨c, [], true, [⟨op, a, v, cmp⟩]⟩] } : State).wr (Reg.HC_ATOM_CTL_GO c) 1).queueTouched [(a, 0)]
    else atomEnd c (s1.atomic op a v cmp)

/-! ### Flush -/

/-- One dirty line written back: it stays valid and clean (R331). -/
def flushWay (s : State) (key w : Nat) : State :=
  let cs := Tbl.get CacheSet.empty s.cache key
  let x := cs.ways.getD w (0, false)
  let s1 := (s.lineRead (x.1 - 1) true).inc (Reg.HC_WB_CNT_COUNT (key / 2 ^ 17)) 1
  { s1 with cache := Tbl.set CacheSet.empty s1.cache key { cs with ways := cs.ways.set w (x.1, false) } }

/-- The dirty lines of the stacks of a mask of die `d`, as (set key, way). -/
def dirtyWays (s : State) (d stackSet : Nat) : List (Nat × Nat) :=
  (s.cache.filter fun p => p.1 / 2 ^ 17 == d).flatMap fun p =>
    (List.range 16).filterMap fun w =>
      let x := (Tbl.get CacheSet.empty s.cache p.1).ways.getD w (0, false)
      if x.2 && stackSet.testBit ((x.1 - 1) / 2 ^ 29 % 3) then some (p.1, w) else none

/-- HC_FLUSH.GO (R331), done at once. -/
def hcFlush (s : State) (d stackSet : Nat) : State :=
  ((s.dirtyWays d stackSet).foldl (fun t p => t.flushWay p.1 p.2) s).wr (Reg.HC_FLUSH_STACKS d) stackSet

/-! ### Page protection -/

/-- The writes held whose pages are now free, in their order of arrival (R344). -/
def releaseHeld (s : State) : State :=
  s.heldw.foldl (fun t w =>
    if !w.atoms.isEmpty then t.atomsRun w.src w.atoms
    else if t.touchesProtected w.ws then { t with heldw := t.heldw ++ [w] }
    else
      let y := t.hbmWriteBy w.src (nth (w.ws.map (·.1)) 0) (w.ws.map (·.2)) w.alloc
      if 128 ≤ w.src ∧ w.src < 255 ∧ y.2 ≠ 0 then y.1.atomDone w.src y.2 0 else y.1) ({ s with heldw := [] } : State)

/-- Bit mask of the pages of word `w` that lie from `lo` to `hi − 1`. -/
def wpMask (lo hi w : Nat) : Nat :=
  let a := max lo (32 * w) - 32 * w
  let b := min hi (32 * w + 32) - 32 * w
  if a < b then 2 ^ b - 2 ^ a else 0

/-- The protection bits of pages `lo` to `hi − 1` of stack `j` of die `d` written (R343). -/
def wpBits (s : State) (d j lo hi : Nat) (v : Bool) : State :=
  (List.range ((hi + 31) / 32 - lo / 32)).foldl (fun t i =>
    let w := lo / 32 + i
    let f := Reg.HC_WP_BITS d j w
    let m := wpMask lo hi w
    t.wr f (if v then t.rd f ||| m else t.rd f - (t.rd f &&& m))) s

/-- The calibrations that waited for a copy, run (R341). -/
def calDeferred (s : State) (k : Nat) : State :=
  ((s.inc (Reg.HBM_CAL_CNT_COUNT k) (s.rd (In.calDue k))).inc (Reg.HBM_CAL_FAIL_COUNT k) (s.rd (In.calBad k))).zeros
    [In.calDue k, In.calBad k]

/-- HC_WP_CMD (R343, R346): the bits of the range change at once. Pages whose protection is cleared leave the copy queue
uncopied and their held writes go on; a copy that this ends lets the calibrations that waited for it run (R341). -/
def wpCmd (s : State) (d j first count : Nat) (v : Bool) : State :=
  if 3 ≤ j then s
  else
    let hi := min (first + count) 18432
    let s1 := (s.wrs [(Reg.HC_WP_FIRST_PAGE d, first), (Reg.HC_WP_COUNT_PAGES d, count)]).wpBits d j first hi v
    if v then s1
    else
      let k := 3 * d + j
      let q := Tbl.get [] s1.copyq k
      let q' := q.filter s1.protectedPage
      let s2 := ((({ s1 with copyq := Tbl.set [] s1.copyq k q' } : State).wr (In.slotWaits k)
        ((q.take (s1.rd (In.slotWaits k))).filter s1.protectedPage).length).countQueue d).releaseHeld
      if q'.head? = q.head? then s2 else s2.calDeferred k

/-- PROTECTED_PAGE_WRITE (R344): a write that meets a protected page is held and the page queued. -/
def heldTouch (s : State) (a : Nat) (bs : List Nat) : State :=
  if s.touchesProtected (at' a bs) then (s.hbmWrite a bs true).1 else s

/-- The next free staging slot of stack `k`: slots follow each other from HC_WP_SLOT_BASE, and those that hold a page are
listed. -/
def freeSlot (s : State) (k : Nat) : Option Nat :=
  let base := s.rd (Reg.HC_WP_SLOT_BASE_ADDR (homeDie k) (k % 3))
  let free := s.rd (Reg.HC_WP_SLOT_CNT_FREE (homeDie k) (k % 3))
  if free = 0 then none
  else ((List.range (s.staged.length + 1)).map fun i => base + 2 ^ 21 * i).find? fun a => Tbl.get 0 s.staged a == 0

/-- A page copied through the cache (R344): bytes, and the poison of a granule that gives no data (R333). -/
def copyPage (s : State) (src dst : Nat) : State :=
  let s1 := s.cacheRange src (2 ^ 21) false false
  let s2 := (s1.cacheRange dst (2 ^ 21) true false)
  { s2 with
    mem := Tbl.copy 0 s2.mem src dst (2 ^ 21),
    poison := Tbl.copy 0 s2.poison (src / 256) (dst / 256) 8192,
    hbmErr := Tbl.cut s2.hbmErr dst (dst + 2 ^ 21), lineErr := Tbl.cut s2.lineErr dst (dst + 2 ^ 21) }

/-- The end of the copy at the head of stack `k`'s queue: the writes that are free go on, and so do the calibrations that waited (R341). -/
def copyEnds (s : State) (k : Nat) (q : List Nat) : State :=
  ((((({ s with copyq := Tbl.set [] s.copyq k q } : State).wr (In.slotWaits k) (s.rd (In.slotWaits k) - 1)).countSlotWaits k).countQueue
    (homeDie k)).releaseHeld).calDeferred k

/-- FIRST_TOUCH_COPY_DONE (R344, R345): the page at the head of the stack's queue is copied to the next free staging slot, its
bit clears and the held writes go on; `ns` is how long the oldest was held. A stack that serves no access gives no page, and the writes
meet its status (R327, R347). -/
def copyDone (s : State) (k ns : Nat) : State :=
  match Tbl.get [] s.copyq k, s.freeSlot k with
  | p :: q, some slot =>
    if s.stackStatus k ≠ 0 then s.copyEnds k q
    else
      let d := homeDie k
      let s1 := s.copyPage (2 ^ 36 * k + 2 ^ 21 * (p % 18432)) slot
      let s2 := ({ s1 with staged := Tbl.set 0 s1.staged slot (p + 1 + 2 ^ 18 * s1.wid), wid := s1.wid + 1 } : State).setProtected p 0
      let f := Reg.HC_WP_SLOT_CNT_FREE d (k % 3)
      let s3 := ((s2.wr f (s2.rd f - 1)).inc (Reg.HC_WP_COPIED_COUNT d) 1).wr (Reg.HC_WP_STALL_MAX_NS d)
        (max ns (s2.rd (Reg.HC_WP_STALL_MAX_NS d)))
      s3.copyEnds k q
  | _, _ => s

/-! ### Zeroisation, maintenance, training -/

/-- Whether some page of a stack is protected. -/
def stackProtected (s : State) (k : Nat) : Bool :=
  (List.range 576).any fun w => s.on (Reg.HC_WP_BITS (homeDie k) (k % 3) w)

/-- Whether a stash entry of a stack's pool is not FREE (R262). -/
def poolInUse (s : State) (k : Nat) : Bool :=
  (List.range 1024).any fun e =>
    s.rd (Reg.STD_ENT_STATE (homeDie k) e) != 0 && s.rd (Reg.STD_ENT_STACK (homeDie k) e) == k % 3

/-- Whether an accepted launch addresses a stack. -/
def stackInLaunch (s : State) (k : Nat) : Bool := s.launches.any fun p => p.2.stackSet.testBit k

/-- HBM_ZERO_CTL.GO (R347). A LOST stack is not zeroised, and a GO while one runs changes nothing. -/
def hbmZero (s : State) (k : Nat) : State :=
  if s.rd (Reg.HBM_STAT_STATE k) = 4 ∨ s.rd (Reg.HBM_STAT_STATE k) = 5 then s
  else if s.stackProtected k then s.wr (Reg.HBM_ZERO_STAT_STATUS k) 2
  else if s.stackInLaunch k || s.poolInUse k then s.wr (Reg.HBM_ZERO_STAT_STATUS k) 3
  else s.wrs [(Reg.HBM_ZERO_CTL_GO k, 1), (Reg.HBM_ZERO_STAT_STATUS k, 1), (Reg.HBM_STAT_STATE k, 4)]

/-- The stack's lines invalidated without write-back. -/
def dropLines (s : State) (k : Nat) : State :=
  { s with cache := Tbl.mapv CacheSet.empty (fun cs =>
      { cs with ways := cs.ways.map fun x => if x.1 != 0 && (x.1 - 1) / 2 ^ 29 == k then (0, false) else x }) s.cache }

/-- All bytes of a stack at 0, with no line, error or poison left. -/
def zeroStack (s : State) (k : Nat) : State :=
  let lo := 2 ^ 36 * k
  let hi := lo + hbmSize
  let s1 := s.dropLines k
  { s1 with mem := Tbl.cut s1.mem lo hi, hbmErr := Tbl.cut s1.hbmErr lo hi, lineErr := Tbl.cut s1.lineErr lo hi,
            poison := Tbl.cut s1.poison (lo / 256) (hi / 256) }

/-- HBM_ZERO_DONE (R347). -/
def hbmZeroDone (s : State) (k : Nat) : State :=
  if s.rd (Reg.HBM_STAT_STATE k) ≠ 4 then s
  else ((s.zeroStack k).wrs [(Reg.HBM_ZERO_CTL_GO k, 0), (Reg.HBM_ZERO_STAT_STATUS k, 0), (Reg.HBM_STAT_STATE k, 2)]).inc
    (Reg.HBM_ZERO_STAT_DONE_CNT k) 1

/-- The refresh rate of a stack (R339): HOT shows it doubled above 85 °C or under FORCE2X. -/
def refreshRate (s : State) (k : Nat) : State :=
  s.wr (Reg.HBM_STAT_HOT k) (b2n (decide (85 < s.rd (Reg.HBM_STAT_TEMP k)) || s.on (Reg.HBM_CFG_FORCE2X k)))

/-- HBM_REFRESH (R339). The devices' error check and scrub goes with it, and the severity reports that the controller then reads are
counted (R323): how many there are the spec leaves open, and they are a free value (DESIGN CHOICE, log 181). -/
def hbmRefresh (s : State) (k : Nat) : State :=
  ({ s.refreshRate k with free := s.free + 1 } : State).inc (Reg.HBM_ODECC_CNT_COUNT k) (Config.odeccReports s.free)

/-- CHANNEL_CALIBRATION (R340, R341): run and counted, or deferred while the stack copies a page; `retrain` says that it needed
retraining. -/
def calibrate (s : State) (k : Nat) (retrain : Bool) : State :=
  if !(Tbl.get [] s.copyq k).isEmpty && (s.freeSlot k).isSome then
    (s.inc (In.calDue k) 1).inc (In.calBad k) (b2n retrain)
  else (s.inc (Reg.HBM_CAL_CNT_COUNT k) 1).inc (Reg.HBM_CAL_FAIL_COUNT k) (b2n retrain)

/-- A launch that runs in some region, faulted from its lowest started region. -/
def faultLaunch (s : State) (l : Launch) (code : Nat) : State :=
  match (setBits l.regions 32).find? s.active with
  | some r => s.regionFault r (s.seq r).ic (Flt.of code 4 0)
  | none => s

/-- HBM_STAT of a stack as a word. -/
def hbmStat (s : State) (k : Nat) : Nat :=
  s.rd (Reg.HBM_STAT_STATE k) + s.rd (Reg.HBM_STAT_RATE k) * 2 ^ 4 + s.rd (Reg.HBM_STAT_HOT k) * 2 ^ 6 +
    s.rd (Reg.HBM_STAT_TEMP k) * 2 ^ 8

/-- The health event of a stack that is LOST or trained below 6.4 Gb/s (Table 22.1). -/
def stackHealth (s : State) (k : Nat) : State := s.hltLog 5 k (s.hbmStat k)

/-- STACK_LOST (R327): the stack enters LOST, and every running launch whose descriptors address it faults. -/
def stackLost (s : State) (k : Nat) : State :=
  let s1 := (s.wrs [(Reg.HBM_STAT_STATE k, 5), (Reg.HBM_ZERO_CTL_GO k, 0)]).stackHealth k
  (s1.launches.filter fun p => p.2.stackSet.testBit k && p.2.fault.isNone).foldl (fun t p => t.faultLaunch p.2 0x54) s1

/-- STACK_TRAINING (R327): the first rate from MAXRATE down that passes, or LOST. Bit ρ of `passes` says that rate code ρ
passes. -/
def stackTraining (s : State) (k passes : Nat) : State :=
  match (List.range 3).find? (fun q => decide (s.rd (Reg.HBM_CFG_MAXRATE k) ≤ q) && passes.testBit q) with
  | some q =>
    let s1 := s.wrs [(Reg.HBM_STAT_STATE k, 2), (Reg.HBM_STAT_RATE k, q)]
    if q = 0 then s1 else s1.stackHealth k
  | none => s.stackLost k

end State
end Sys2Proof.Machine
end

