-- ==== Sys2Proof/Machine/Clear.lean ====
section
/-!
DEFINITION. What each *_CNT_CLR clears: the counts of its block and, where its rule says so, sticky flags and logs.
-/

namespace Sys2Proof.Machine

/-- A field for every index below `n`. -/
def each (n : Nat) (f : Nat → List Fld) : List Fld := (List.range n).flatMap f

namespace State

/-- The fields that SP_CNT_CLR clears (R133): the counts of a cluster's banks. -/
def spCleared (c : Nat) : List Fld :=
  (each 64 fun b => [Reg.SP_SBE_CNT_COUNT c b, Reg.SP_REBUILD_CNT_COUNT c b]) ++ [Reg.SP_UE_CNT_COUNT c,
    Reg.SP_STRETCH_CNT_CONFLICT c, Reg.SP_STRETCH_CNT_REBUILD c, Reg.SP_REMOTE_WAIT_COUNT c, Reg.SP_ACC_EVT_SAT c,
    Reg.SP_ACC_EVT_UFLOW c, Reg.SP_ACC_ACC40_FTZ c, Reg.SP_ACC_ACC40_OVF c]

/-- SP_CNT_CLR (R133): the counts of a cluster's banks. -/
def spClear (s : State) (c : Nat) : State := s.zeros (spCleared c)

/-- The fields that MU_CNT_CLR clears (R163): counts and sticky flags of a cluster's MUs. -/
def muCleared (c : Nat) : List Fld :=
  (each 4 fun m => [Reg.MU_SAT_CNT_COUNT c m, Reg.MU_INFCLAMP_CNT_COUNT c m, Reg.MU_NANBLK_CNT_COUNT c m,
    Reg.MU_UFLOW_CNT_COUNT c m, Reg.MU_FTZ_CNT_COUNT c m, Reg.MU_OVF_CNT_COUNT c m, Reg.MU_CHAIN_STAT_LONG c m,
    Reg.MU_CHAIN_STAT_LONG_CNT c m, Reg.MU_BUSY_LO_COUNT c m, Reg.MU_BUSY_HI_COUNT c m])

/-- MU_CNT_CLR (R163): counts and sticky flags of a cluster's MUs. -/
def muClear (s : State) (c : Nat) : State := s.zeros (muCleared c)

/-- The fields that SV_CNT_CLR clears (R213): counts, sticky flags and log. -/
def svCleared (c : Nat) : List Fld :=
  [Reg.SV_IDX_DROPPED_COUNT c, Reg.SV_TILE_MALFORMED_COUNT c, Reg.SV_STAT_IDX c, Reg.SV_STAT_TILE c,
    Reg.SV_STAT_HOLD c, Reg.SV_STAT_CEN_LOST c, Reg.SV_HOLD_CNT_READY c, Reg.SV_HOLD_CNT_OVERRUN c,
    Reg.SV_OVERRUN_CNT_COUNT c, Reg.SV_PAIRS_LO_COUNT c, Reg.SV_PAIRS_HI_COUNT c, Reg.SV_ZSKIP_COUNT c] ++ (each 4
    fun n => [Reg.SV_DROP_LOG_ROW c n, Reg.SV_DROP_LOG_COL c n, Reg.SV_DROP_LOG_MU c n, Reg.SV_DROP_LOG_KIND c n,
    Reg.SV_DROP_LOG_VALID c n])

/-- SV_CNT_CLR (R213): counts, sticky flags and log. -/
def svClear (s : State) (c : Nat) : State := s.zeros (svCleared c)

/-- The fields that SH_CNT_CLR clears (R240): counts, sticky flags and log. -/
def shCleared (c : Nat) : List Fld :=
  [Reg.SH_NM_EXCESS_COUNT c, Reg.SH_CAP_REFUSED_COUNT c, Reg.SH_TILE_MALFORMED_COUNT c,
    Reg.SH_COMP_MISMATCH_COUNT c, Reg.SH_PRUNED_COUNT c, Reg.SH_GROWN_COUNT c, Reg.SH_SHORTFALL_COUNT c,
    Reg.SH_NAN_CNT_COUNT c, Reg.SH_SAT_CNT_COUNT c, Reg.SH_UFLOW_CNT_COUNT c, Reg.SH_TILES_DONE_COUNT c,
    Reg.SH_STAT_TILE c, Reg.SH_STAT_COMP c, Reg.SH_STAT_CAP c, Reg.SH_STAT_TRUNC c] ++ (each 4 fun n =>
    [Reg.SH_REFUSE_LOG_TILE c n, Reg.SH_REFUSE_LOG_KIND c n, Reg.SH_REFUSE_LOG_VALID c n])

/-- SH_CNT_CLR (R240): counts, sticky flags and log. -/
def shClear (s : State) (c : Nat) : State := s.zeros (shCleared c)

/-- The fields that STD_CNT_CLR clears (R273): counts and log. -/
def stdCleared (d : Nat) : List Fld :=
  [Reg.STD_REFUSED_COUNT d, Reg.STD_OPEN_REFUSED_COUNT d, Reg.STD_NOT_STASHED_COUNT d, Reg.STD_WR_LO_COUNT
    d, Reg.STD_WR_HI_COUNT d, Reg.STD_CVT_SAT_COUNT d, Reg.STD_CVT_NANBLK_COUNT d, Reg.STD_CVT_UFLOW_COUNT d] ++
    (each 8 fun r => [Reg.STD_HOLD_CNT_COUNT d r]) ++ (each 4 fun n => [Reg.STD_REFUSE_LOG_ENTRY d n,
    Reg.STD_REFUSE_LOG_REASON d n, Reg.STD_REFUSE_LOG_REGION d n, Reg.STD_REFUSE_LOG_VALID d n])

/-- STD_CNT_CLR (R273): counts and log. -/
def stdClear (s : State) (d : Nat) : State := s.zeros (stdCleared d)

/-- The fields that SQ_CNT_CLR clears (R311): counts. -/
def sqCleared (r : Nat) : List Fld :=
  [Reg.SQ_HOLD_EVT_COUNT r, Reg.SQ_HOLD_FENCE_COUNT r, Reg.SQ_HOLD_DMA_COUNT r] ++ (each 8 fun c =>
    [Reg.SQ_VU_SAT_COUNT r c, Reg.SQ_VU_UFLOW_COUNT r c, Reg.SQ_VU_INFCLAMP_COUNT r c, Reg.SQ_VU_NANBLK_COUNT r c])

/-- SQ_CNT_CLR (R311): counts. -/
def sqClear (s : State) (r : Nat) : State := s.zeros (sqCleared r)

/-- The fields that DMA_CNT_CLR clears (R586): counts. -/
def dmaCleared (d : Nat) : List Fld :=
  (each 16 fun c => [Reg.DMA_SAT_COUNT d c, Reg.DMA_INFCLAMP_COUNT d c, Reg.DMA_NANBLK_COUNT d c,
    Reg.DMA_UFLOW_COUNT d c])

/-- DMA_CNT_CLR (R586): counts. -/
def dmaClear (s : State) (d : Nat) : State := s.zeros (dmaCleared d)

/-- The fields that HBM_CNT_CLR clears (R348): counts and log. -/
def hbmCleared (k : Nat) : List Fld :=
  [Reg.HBM_CE_CNT_COUNT k, Reg.HBM_UE_CNT_COUNT k, Reg.HBM_ODECC_CNT_COUNT k, Reg.HBM_HOLE_CNT_COUNT k,
    Reg.HBM_CAL_CNT_COUNT k, Reg.HBM_CAL_FAIL_COUNT k] ++ (each 4 fun n => [Reg.HBM_UE_LOG_GRANULE k n,
    Reg.HBM_UE_LOG_KIND k n, Reg.HBM_UE_LOG_VALID k n])

/-- HBM_CNT_CLR (R348): counts and log. -/
def hbmClear (s : State) (k : Nat) : State := s.zeros (hbmCleared k)

/-- The fields that HC_CNT_CLR clears (R348): counts; HC_WP_STALL_MAX is a time and stays (log 10). -/
def hcCleared (d : Nat) : List Fld :=
  [Reg.HC_HIT_LO_COUNT d, Reg.HC_HIT_HI_COUNT d, Reg.HC_MISS_LO_COUNT d, Reg.HC_MISS_HI_COUNT d,
    Reg.HC_WB_CNT_COUNT d, Reg.HC_CE_CNT_COUNT d, Reg.HC_UE_CNT_CLEAN d, Reg.HC_UE_CNT_DIRTY d, Reg.HC_ATOM_CNT_COUNT
    d, Reg.HC_FADD_SAT_COUNT d, Reg.HC_FADD_UFLOW_COUNT d, Reg.HC_WP_COPIED_COUNT d, Reg.HC_WP_SLOTWAIT_COUNT d]

/-- HC_CNT_CLR (R348): counts; HC_WP_STALL_MAX is a time and stays (log 10). -/
def hcClear (s : State) (d : Nat) : State := s.zeros (hcCleared d)

/-- The fields that CLK_CNT_CLR clears (R370): counts and log. -/
def clkCleared : List Fld :=
  (each 32 fun i => [Reg.CLK_PER_LO_COUNT i, Reg.CLK_PER_HI_COUNT i, Reg.CLK_HELD_COUNT i]) ++
    [Reg.CLK_XING_STUCK_COUNT, Reg.CLK_XING_LOG_SRC, Reg.CLK_XING_LOG_DST, Reg.CLK_XING_LOG_VALID]

/-- CLK_CNT_CLR (R370): counts and log. -/
def clkClear (s : State) : State := s.zeros (clkCleared)

/-- The fields that ARB_CNT_CLR clears (R370): counts and flag of a die block. -/
def arbDieCleared (d : Nat) : List Fld :=
  [Reg.ARB_STAT_PRIO_ERR d] ++ (each 96 fun n => [Reg.ARB_GRANT_COUNT d n, Reg.ARB_WAIT_COUNT d n,
    Reg.ARB_WAIT_MAX_COUNT d n, Reg.ARB_AGE_CNT_COUNT d n])

/-- ARB_CNT_CLR (R370): counts and flag of a die block. -/
def arbDieClear (s : State) (d : Nat) : State := s.zeros (arbDieCleared d)

/-- The fields that ARB_CNT_CLR clears (R370): counts of the port block. -/
def arbPortCleared : List Fld :=
  (each 7 fun q => [Reg.ARB_SLOT_STAT_SWAPS q, Reg.ARB_SLOT_STAT_LATE q, Reg.ARB_SLOT_LENT_COUNT q,
    Reg.ARB_SLOT_P0_COUNT q])

/-- ARB_CNT_CLR (R370): counts of the port block. -/
def arbPortClear (s : State) : State := s.zeros (arbPortCleared)

/-- The fields that OZL_CNT_CLR clears (R386): counts of a port. -/
def ozlCleared (p : Nat) : List Fld :=
  [Reg.OZL_FEC_CORR_COUNT p, Reg.OZL_FEC_UNCORR_COUNT p, Reg.OZL_CRC_ERR_COUNT p, Reg.OZL_REPLAY_COUNT p,
    Reg.OZL_RETRAIN_CNT_COUNT p, Reg.OZL_DOWN_CNT_COUNT p, Reg.OZL_WAKE_PATTERN p, Reg.OZL_WAKE_ACTIVITY p,
    Reg.OZL_TX_LO_COUNT p, Reg.OZL_TX_HI_COUNT p, Reg.OZL_RX_LO_COUNT p, Reg.OZL_RX_HI_COUNT p] ++ (each 16 fun l =>
    [Reg.OZL_SYMERR_COUNT p l])

/-- OZL_CNT_CLR (R386): counts of a port. -/
def ozlClear (s : State) (p : Nat) : State := s.zeros (ozlCleared p)

/-- The fields that COL_CNT_CLR clears (R420): counts and log. -/
def colCleared : List Fld :=
  [Reg.COL_OPS_DONE_COUNT, Reg.COL_OPS_FAULT_COUNT, Reg.COL_SHARD_CNT_COUNT, Reg.COL_TOKEN_DROP_COUNT,
    Reg.COL_ROUTE_BAD_COUNT, Reg.COL_TX_LO_COUNT, Reg.COL_TX_HI_COUNT, Reg.COL_RX_LO_COUNT, Reg.COL_RX_HI_COUNT,
    Reg.COL_FWD_LO_COUNT, Reg.COL_FWD_HI_COUNT] ++ (each 4 fun n => [Reg.COL_LOG_CODE n, Reg.COL_LOG_GROUP n,
    Reg.COL_LOG_SLOT n, Reg.COL_LOG_VALID n])

/-- COL_CNT_CLR (R420): counts and log. -/
def colClear (s : State) : State := s.zeros (colCleared)

/-- The fields that HTP_CNT_CLR clears (R439): counts. -/
def htpCleared : List Fld :=
  [Reg.HTP_DROP_L2_COUNT, Reg.HTP_DROP_L3_COUNT, Reg.HTP_DROP_FLOW_COUNT, Reg.HTP_DROP_HDR_COUNT,
    Reg.HTP_DROP_WIN_COUNT, Reg.HTP_DUP_COUNT, Reg.HTP_RETX_COUNT, Reg.HTP_RING_FULL_COUNT, Reg.HTP_LINK_DOWN_COUNT,
    Reg.HTP_FEC_CORR_COUNT, Reg.HTP_FEC_UNCORR_COUNT]

/-- HTP_CNT_CLR (R439): counts. -/
def htpClear (s : State) : State := s.zeros (htpCleared)

/-- The fields that SNP_CNT_CLR clears (R504): counts. -/
def snpCleared : List Fld :=
  [Reg.SNP_DONE_CNT_COUNT, Reg.SNP_FAIL_CNT_COUNT, Reg.SNP_REPLAY_OK_COUNT, Reg.SNP_REPLAY_BAD_COUNT,
    Reg.SNP_HELD_CNT_COUNT, Reg.SNP_FLASH_LO, Reg.SNP_FLASH_HI]

/-- SNP_CNT_CLR (R504): counts. -/
def snpClear (s : State) : State := s.zeros (snpCleared)

/-- The fields that PWR_CNT_CLR clears (R523): counts and log; PWR_WAKE_MAX is a time and stays (log 10). -/
def pwrCleared : List Fld :=
  [Reg.PWR_REFUSED_COUNT, Reg.PWR_ABORTED_COUNT, Reg.PWR_GATE_CNT_COUNT, Reg.PWR_WAKE_CNT_COUNT] ++ (each 4
    fun n => [Reg.PWR_REFUSE_LOG_KIND n, Reg.PWR_REFUSE_LOG_INDEX n, Reg.PWR_REFUSE_LOG_DIE n,
    Reg.PWR_REFUSE_LOG_STATE n, Reg.PWR_REFUSE_LOG_REGION n, Reg.PWR_REFUSE_LOG_ABORTED n, Reg.PWR_REFUSE_LOG_VALID
    n])

/-- PWR_CNT_CLR (R523): counts and log; PWR_WAKE_MAX is a time and stays (log 10). -/
def pwrClear (s : State) : State := s.zeros (pwrCleared)

/-- The fields that HLT_CNT_CLR clears (R578): HLT_REGION and HLT_LOG_LOST. -/
def hltCleared : List Fld :=
  (each 32 fun r => [Reg.HLT_REGION_SAT r, Reg.HLT_REGION_UFLOW r, Reg.HLT_REGION_FTZ r, Reg.HLT_REGION_OVF
    r]) ++ [Reg.HLT_LOG_LOST_COUNT]

/-- HLT_CNT_CLR (R578): HLT_REGION and HLT_LOG_LOST. -/
def hltClear (s : State) : State := s.zeros (hltCleared)

end State
end Sys2Proof.Machine
end

