-- ==== Sys2Proof/Machine/Table.lean ====
section
/-!
DEFINITION. Writes of the module's tables with rules of their own: handles (R128), streams (R59), fault enables (R199, R240),
stash pools and the stash directory's commands (R262 to R265), island clocks (R350) and stuck crossings (R357).
-/

namespace Sys2Proof.Machine

namespace In
/-- What the last firmware write of a handle or stream entry returned: 0 done, 1 HANDLE_INVALID, 2 HANDLE_IN_USE,
3 STREAM_IN_USE (R59, R128; the numbers are the model's). -/
def wrRet : Fld := fld 6 0 2 0
end In

/-- The software fields of a handle entry (Table 4.8). -/
structure HEntry where
  valid   : Nat
  kind    : Nat
  acc     : Nat
  persist : Nat
  cluster : Nat
  tenant  : Nat
  offset  : Nat
  extent  : Nat
  deriving DecidableEq, Repr

/-- Whether a valid entry breaks R128. -/
def HEntry.bad (x : HEntry) : Bool :=
  x.offset % 256 != 0 || x.extent % 256 != 0 || decide (x.extent < 256) ||
    (if x.acc = 0 then decide (spSize < x.offset + x.extent)
     else decide (x.offset < spSize) || decide (accEnd < x.offset + x.extent))

namespace State

/-- The entry as it stands. -/
def handleEntry (s : State) (r h : Nat) : HEntry :=
  ⟨s.rd (Reg.SP_HT_VALID r h), s.rd (Reg.SP_HT_KIND r h), s.rd (Reg.SP_HT_ACC r h), s.rd (Reg.SP_HT_PERSIST r h),
    s.rd (Reg.SP_HT_CLUSTER r h), s.rd (Reg.SP_HT_TENANT r h), s.rd (Reg.SP_HT_OFFSET r h), s.rd (Reg.SP_HT_EXTENT r h)⟩

/-- HANDLE_WRITE (R128): the entry takes its new fields, or the write is ignored and its return says why. A write that breaks R128 and
meets BUSY = 1 returns HANDLE_IN_USE (DESIGN CHOICE, log 168). -/
def handleWrite (s : State) (r h : Nat) (x : HEntry) : State :=
  if s.on (Reg.SP_HT_BUSY r h) then s.wr In.wrRet 2
  else if x.valid = 1 ∧ x.bad then s.wr In.wrRet 1
  else s.wrs [(Reg.SP_HT_VALID r h, x.valid), (Reg.SP_HT_KIND r h, x.kind), (Reg.SP_HT_ACC r h, x.acc),
    (Reg.SP_HT_PERSIST r h, x.persist), (Reg.SP_HT_CLUSTER r h, x.cluster), (Reg.SP_HT_TENANT r h, x.tenant),
    (Reg.SP_HT_OFFSET r h, x.offset), (Reg.SP_HT_EXTENT r h, x.extent), (In.wrRet, 0)]

/-- STREAM_TABLE_WRITE (R59). -/
def streamWrite (s : State) (n key ctr owner en : Nat) : State :=
  if s.on (Reg.STREAM_BUSY n) then s.wr In.wrRet 3
  else s.wrs [(Reg.STREAM_KEY n, key), (Reg.STREAM_CTR n, ctr), (Reg.STREAM_OWNER n, owner), (Reg.STREAM_EN n, en),
    (In.wrRet, 0)]

/-- SV_FAULT_EN_WRITE (R199): ignored while a launch runs in the cluster's region. -/
def svFaultEn (s : State) (k idx tile : Nat) : State :=
  if (s.seq (k / 8)).launch.isSome then s else s.wrs [(Reg.SV_FAULT_EN_IDX k, idx), (Reg.SV_FAULT_EN_TILE k, tile)]

/-- SH_FAULT_EN_WRITE (R240). -/
def shFaultEn (s : State) (k tile comp cap : Nat) : State :=
  if (s.seq (k / 8)).launch.isSome then s
  else s.wrs [(Reg.SH_FAULT_EN_TILE k, tile), (Reg.SH_FAULT_EN_COMP k, comp), (Reg.SH_FAULT_EN_CAP k, cap)]

/-! ### The stash directory -/

/-- STD_POOL_WRITE (R262): the base or the limit of pool `k` of die `d`. -/
def poolWrite (s : State) (d k : Nat) (lim : Bool) (a : Nat) : State :=
  if s.poolInUse (3 * d + k) then s
  else (s.wr (if lim then Reg.STD_POOL_LIM_ADDR d k else Reg.STD_POOL_BASE_ADDR d k) a).setPoolTop d k

/-- The end of a directory command: its status, and no command pending (R265). -/
def stdEnd (s : State) (d st : Nat) : State := s.wrs [(Reg.STD_CMD_STAT_STATUS d, st), (Reg.STD_CMD_STAT_PEND d, 0)]

/-- STD_OPEN (R265): the three checks of Table 9.9 in order, then the entry and its place at the pool top. -/
def stdOpen (s : State) (d e k maps lfmt tenant rows cols : Nat) : State :=
  let s0 := s.wrs [(Reg.STD_ARG_ROWS_ROWS d, rows), (Reg.STD_ARG_COLS_COLS d, cols)]
  if k = 3 ∨ 8 < lfmt ∨ rows = 0 ∨ cols = 0 then s0.stdEnd d 4
  else if s0.rd (Reg.STD_ENT_STATE d e) ≠ 0 then s0.stdEnd d 1
  else if s0.rd (Reg.TEN_STACK_OWNER (3 * d + k)) ≠ tenant then s0.stdEnd d 2
  else
    let sf := stashFmt lfmt
    let size := imgSize sf rows cols maps
    let top := s0.poolTop d k
    let s1 := s0.wrs [(Reg.STD_ENT_GEN d e, s0.rd (Reg.STD_ENT_GEN d e) + 1), (Reg.STD_ENT_LFMT d e, lfmt),
      (Reg.STD_ENT_SFMT d e, sf), (Reg.STD_ENT_MAPS d e, maps), (Reg.STD_ENT_STACK d e, k), (Reg.STD_ENT_TENANT d e, tenant),
      (Reg.STD_ENT_ROWS d e, rows), (Reg.STD_ENT_COLS d e, cols), (Reg.STD_ENT_SIZE d e, size), (Reg.STD_ENT_TILES d e, 0)]
    if top + 64 * size ≤ s1.rd (Reg.STD_POOL_LIM_ADDR d k) then
      ((s1.wrs [(Reg.STD_ENT_BASE d e, top), (Reg.STD_ENT_STATE d e, 1)]).setPoolTop d k).stdEnd d 0
    else
      ((((s1.wr (Reg.STD_ENT_BASE d e) 0).notStashed d e 1).inc (Reg.STD_OPEN_REFUSED_COUNT d) 1).stashLog d e 6 0).stdEnd d 5

/-- STD_CLOSE (Table 9.9). -/
def stdClose (s : State) (d e : Nat) : State :=
  if s.on (Reg.STD_ENT_BUSY d e) then s.stdEnd d 3
  else if s.rd (Reg.STD_ENT_STATE d e) ≠ 1 then s.stdEnd d 1
  else if s.rd (Reg.STD_ENT_TILES d e) = cdiv (s.rd (Reg.STD_ENT_ROWS d e)) 64 * cdiv (s.rd (Reg.STD_ENT_COLS d e)) 64 then
    (s.wr (Reg.STD_ENT_STATE d e) 2).stdEnd d 0
  else (s.notStashed d e 3).stdEnd d 0

/-- STD_MARK (Table 9.9). -/
def stdMark (s : State) (d e : Nat) : State :=
  let st := s.rd (Reg.STD_ENT_STATE d e)
  if s.on (Reg.STD_ENT_BUSY d e) then s.stdEnd d 3
  else if st = 0 then s.stdEnd d 1
  else if st = 3 then s.stdEnd d 0
  else (s.notStashed d e 4).stdEnd d 0

/-- STD_FREE (Table 9.9). -/
def stdFree (s : State) (d e : Nat) : State :=
  if s.on (Reg.STD_ENT_BUSY d e) then s.stdEnd d 3
  else ((s.wr (Reg.STD_ENT_STATE d e) 0).setPoolTop d (s.rd (Reg.STD_ENT_STACK d e))).stdEnd d 0

/-- STD_CMD as a register write (Table 9.12), with rows and columns from STD_ARG_ROWS and STD_ARG_COLS. -/
def stdCmd (s : State) (d n : Nat) : State :=
  let e := bitsOf n 13 4
  match bitsOf n 2 0 with
  | 1 => s.stdOpen d e (bitsOf n 17 16) (bitsOf n 18 18) (bitsOf n 23 20) (bitsOf n 31 24)
      (s.rd (Reg.STD_ARG_ROWS_ROWS d)) (s.rd (Reg.STD_ARG_COLS_COLS d))
  | 2 => s.stdClose d e
  | 3 => s.stdMark d e
  | 4 => s.stdFree d e
  | _ => s.stdEnd d 4

/-! ### Clocks and crossings -/

/-- The step that island `i` runs at: the least of the three targets (R350). -/
def islandStep (s : State) (i : Nat) : Nat :=
  min (min (s.rd (Reg.CLK_ISL_CAP i)) 14) (min (s.rd (Reg.CLK_ISL_PWR i)) (s.rd (Reg.CLK_ISL_THERM i)))

/-- ISLAND_CLOCK_CHANGE (R350): the new CUR takes effect. -/
def clockChange (s : State) (i : Nat) : State := s.wr (Reg.CLK_ISL_CUR i) (s.islandStep i)

/-- CROSSING_STUCK (R357). -/
def crossingStuck (s : State) (src dst : Nat) : State :=
  (s.inc Reg.CLK_XING_STUCK_COUNT 1).wrs [(Reg.CLK_XING_LOG_SRC, src), (Reg.CLK_XING_LOG_DST, dst), (Reg.CLK_XING_LOG_VALID, 1)]

end State
end Sys2Proof.Machine
end

