-- ==== Sys2Proof/Machine/Arb.lean ====
section
/-!
DEFINITION. Arbitration: the trees of a compute die (R358 to R364) and the slot tables of the ports (R365 to R368).
-/

namespace Sys2Proof.Machine

/-! ### Trees -/

/-- The resources of a die that arbiters guard, by number: 0 to 63 cluster ingress ports, 64 to 79 and 80 to 95 the sub-links of the row
and of the column Trellis edge, 96 to 99 of the path to the IOD, 100 to 131 HBM cache request ports, and 132 + 32·j + pc the HBM
controller's queue of pseudo-channel pc of stack j. The longest burst of each (Table 13.6). -/
def burstMax (res : Nat) : Nat := if res < 64 then 4 else if res < 100 then 16 else if res < 132 then 32 else 1

/-- The root's input above a leaf: its region's node for a cluster port, an input of its own for the others (R362). -/
def rootInput (n : Nat) : Nat := if n < 64 then n / 8 else n - 56

/-- The priority a waiter presents: its own, raised by aging but never to P0 (R361). -/
def Waiter.level (x : Waiter) : Nat := if x.prio ≤ 1 then x.prio.val else max 1 (x.prio.val - x.up)

/-- `node_grant` of R362 over a node's inputs: `ready` those that present the priority served, `w` their latched weights, and
`force` the holder of a burst lock. Answers the new `cur` values and the input granted. -/
def nodeGrant (cur : Tbl Int) (w : Nat → Nat) (inputs ready : List Nat) (force : Option Nat) : Tbl Int × Nat :=
  let total := (ready.map w).foldl (· + ·) 0
  let c1 : Tbl Int := inputs.foldl (fun (t : Tbl Int) i =>
    Tbl.set 0 t i (if ready.contains i then Tbl.get 0 t i + (w i : Int) else 0)) cur
  let best := (inputs.filter ready.contains).foldl (fun (b : Option Nat) i => match b with
    | none => some i
    | some j => if Tbl.get 0 c1 j < Tbl.get 0 c1 i then some i else some j) none
  let g := (force.or best).getD 0
  (Tbl.set 0 c1 g (Tbl.get 0 c1 g - (total : Int)), g)

/-! ### Routes (R11, R353, R354) -/

/-- The requester number of a die at which traffic from die `a` enters it: the Trellis ingress of the row edge or of the column edge. The
dies of a row differ in bit 0, those of a column in bit 1. -/
def ingressLeaf (a b : Nat) : Nat := if a ^^^ b = 1 then 83 else 84

/-- The first sub-link, as a resource of die `a`, of its edge to die `b`. -/
def edgeBase (a b : Nat) : Nat := if a ^^^ b = 1 then 64 else 80

/-- The dies that traffic from die `a` to die `b` crosses: between the diagonal pairs first the edge of its own row, then the edge
between the rows (R11). -/
def diePath (a b : Nat) : List Nat :=
  if a = b then [a] else if a ^^^ b = 3 then [a, a ^^^ 1, b] else [a, b]

/-- Die and die-local number k of the destination of an address: a cluster (0 to 63), or 64 + the stack among those of its home die
(R354); none for what lies beyond the dies. -/
def sinkOf (addr : Nat) : Option (Nat × Nat) :=
  match place addr with
  | .sp k _ => some (k / 64, k % 64)
  | .acc k _ _ _ _ => some (k / 64, k % 64)
  | .hbm k _ => some (State.homeDie k, 64 + k % 3)
  | .hole k => some (State.homeDie k, 64 + k % 3)
  | _ => none

/-- The resources that a transfer requests at its destination's die: the cluster's ingress port; or the cache request port, which is
that of the set modulo 32 (log 185), and the queue of the pseudo-channel (R326). -/
def sinkRes (addr k : Nat) : List Nat :=
  if k < 64 then [k]
  else
    let g := addr % 2 ^ 36 / 256
    [100 + State.lineSet (addr / 128) % 32, 132 + 32 * (k - 64) + (g % 32 ^^^ g / 32 % 32)]

/-- Along the dies of a path: the resource of each die and the leaf at which the transfer requests it. -/
def hopsAlong (leaf n k addr : Nat) : List Nat → List (Nat × Nat × Nat)
  | [] => []
  | [b] => (sinkRes addr k).map fun q => (b, q, leaf)
  | a :: b :: l => (a, edgeBase a b + (n + k) % 16, leaf) :: hopsAlong (ingressLeaf a b) n k addr (b :: l)

/-- Every arbiter that a transfer of requester `n` of die `die` (4: the IOD) to `addr` meets: die, resource and leaf (R11, R354). A
transfer to the IOD has no k in the spec: the model takes 0 (log 185). -/
def hops (die n addr : Nat) : List (Nat × Nat × Nat) :=
  match sinkOf addr with
  | none => if die < 4 then [(die, 96 + n % 4, n)] else []
  | some (b, k) => if die < 4 then hopsAlong n n k addr (diePath die b) else hopsAlong 85 n k addr [b]

/-- Inputs of the root. -/
def rootInputs : List Nat := List.range 41
/-- Inputs of region `r`'s node. -/
def regionInputs (r : Nat) : List Nat := (List.range 8).map (64 + 8 * r + ·)

namespace State

/-- The weight of a leaf among the waiters of a resource (R362, R364). -/
def leafWeight (s : State) (d : Nat) (ws : List Waiter) (x : Waiter) : Nat :=
  let foreign := max 1 (s.rd (Reg.ARB_CFG_FOREIGN_W d))
  let ingress := decide (83 ≤ x.leaf) && decide (x.leaf ≤ 85)
  if s.rd (Reg.ARB_CFG_MODE d) = 0 then (if ingress then foreign else 1)
  else if ingress then 2 ^ 16 * foreign
  else
    let ten := fun (y : Waiter) => s.rd (Reg.ARB_REQ_CFG_TENANT d y.leaf)
    let n := (ws.filter fun y => y.level == x.level && ten y == ten x).length
    2 ^ 16 * s.rd (Reg.TEN_SHARE_SHARE (ten x)) / max 1 n

/-- The weights of a node's inputs at every priority, latched for its next cycle. -/
def latch (s : State) (d : Nat) (ws : List Waiter) (key : Nat → Nat) (inputs : List Nat) (t : Tbl Nat) : Tbl Nat :=
  inputs.foldl (fun t i => (List.range 4).foldl (fun t p =>
    Tbl.set 0 t (4 * i + p) (((ws.filter fun x => key x.leaf == i && x.level == p).map (s.leafWeight d ws)).foldl (· + ·) 0)) t) t

/-- The waiters after a transfer was granted to leaf `g`: every other one at P2 or P3 has seen one more, and is promoted by one
level when AGE have passed (R361). -/
def ageWaiters (s : State) (d g : Nat) (ws : List Waiter) : State × List Waiter :=
  let age := max 1 (s.rd (Reg.ARB_CFG_AGE d))
  ws.foldl (fun (acc : State × List Waiter) x =>
    if x.leaf.val = g ∨ x.level ≤ 1 then (acc.1, acc.2 ++ [x])
    else if age ≤ x.seen + 1 then
      (acc.1.inc (Reg.ARB_AGE_CNT_COUNT d x.leaf) 1, acc.2 ++ [{ x with up := x.up + 1, seen := 0 }])
    else (acc.1, acc.2 ++ [{ x with seen := x.seen + 1 }])) (s, [])

/-- Priority of the agent a held write came from (Table 13.4): a control core P0, a flow of the host its own, every other the reset
value of its record (log 186). -/
def heldPrio (s : State) (w : HeldWrite) : Nat :=
  if w.src < 8 then 0
  else if 128 ≤ w.src ∧ w.src < 255 then
    if s.on (Reg.HTP_FLOW_MGMT (w.src - 128)) then 0
    else if s.rd (Reg.HTP_FLOW_PRIO (w.src - 128)) = 0 then 2 else s.rd (Reg.HTP_FLOW_PRIO (w.src - 128))
  else 2

/-- The priorities of the writes that page `p` holds (R344): at the home cache, and those of regions, DMA channels and stash rows. -/
def holdersPrio (s : State) (p : Nat) : List Nat :=
  let at_ := fun (l : List (Nat × Nat)) => l.any fun q => pageOf q.1 == p
  (s.heldw.filter fun w => at_ w.ws || w.atoms.any fun x => pageOf x.addr == p).map s.heldPrio ++
  (s.remotes.filter fun w => w.fetch.isNone && at_ w.ws).map (fun w =>
    if w.src < 32 then 1 else s.rd (Reg.ARB_REQ_CFG_PRIO ((w.src - 32) / 16) (64 + (w.src - 32) % 16))) ++
  (if (List.range 4).any (fun d => (Tbl.get [] s.stashq d).any fun x => at_ x.ws) then [2] else [])

/-- The priority that the copy engine of die `d` inherits (R359, R360): the highest among the writes held by the pages it copies. -/
def copyPrio (s : State) (d : Nat) : Option Nat :=
  let l := (List.range 3).flatMap fun j => ((Tbl.get [] s.copyq (3 * d + j)).take 1).flatMap s.holdersPrio
  if l.isEmpty then none else some (l.foldl min 3)

/-- The priority of requester `n` of die `die` (Tables 13.4 and 13.5): fixed, written, inherited, or, for the others, that of the transfer
itself. -/
def reqPrio (s : State) (die n p : Nat) : Nat :=
  if die ≥ 4 then p
  else if n < 64 then 1
  else if n < 80 then s.rd (Reg.ARB_REQ_CFG_PRIO die n)
  else if n = 80 then 2
  else if n = 81 then (s.copyPrio die).getD p
  else if n = 96 then 0 else p

/-- The waiters of an arbiter at its next cycle: `cycles` later, at the priority their requesters have now (R360), with the arrivals
(die, requester number, address, priority, burst less 1) whose route takes them to it. A leaf of a tree presents one transfer, and
maintenance requests no tree; a controller's queue holds 16 granules beside maintenance (Table 13.6). -/
def arrive (s : State) (d res cycles : Nat) (ws : List Waiter) (new : List (Nat × Nat × Nat × Nat × Nat)) : List Waiter :=
  let old := ws.map fun x => { x with wait := x.wait + cycles, prio := Fin.ofNat 4 (s.reqPrio x.die x.req x.prio) }
  new.foldl (fun l q =>
    match (hops q.1 q.2.1 q.2.2.1).find? fun h => h.1 == d && h.2.1 == res with
    | none => l
    | some h =>
      let full := if res < 132 then q.2.1 == 96 || l.any fun x => x.leaf.val == h.2.2 else q.2.1 != 96 && decide (16 ≤ (l.filter fun x => x.req != 96).length)
      if full then l
      else l ++ [⟨Fin.ofNat 97 h.2.2, q.1, q.2.1, q.2.2.1 / 64, Fin.ofNat 4 (s.reqPrio q.1 q.2.1 q.2.2.2.1), 0, 0, 0, min (q.2.2.2.2 + 1) (burstMax res)⟩]) old

/-- Whether the fabric withholds a transfer: it goes to a bank (or window port) of a cluster whose remote queue holds two requests
(R352). -/
def withheld (s : State) (res unit : Nat) : Bool :=
  let key := queueKey ⟨0, 0, 0, 0, unit, none, none, []⟩
  decide (res < 64) && decide (2 ≤ (s.remotes.filter fun w => queueKey w == key).length)

/-- The highest priority that an arbiter may serve: P0 not twice in a row while others wait (R361). -/
def served (p0 : Bool) (levels : List Nat) : Nat :=
  let low := levels.filter (0 < ·)
  if low.isEmpty || (levels.contains 0 && !p0) then levels.foldl min 3 else low.foldl min 3

/-- The counts of a grant to the leaf of a waiter (Table 13.8). -/
def granted (s : State) (d : Nat) (x : Waiter) : State :=
  let s1 := (s.inc (Reg.ARB_GRANT_COUNT d x.leaf) 1).inc (Reg.ARB_WAIT_COUNT d x.leaf) x.wait
  s1.wr (Reg.ARB_WAIT_MAX_COUNT d x.leaf) (max (min x.wait (2 ^ 32 - 1)) (s1.rd (Reg.ARB_WAIT_MAX_COUNT d x.leaf)))

/-- A grant of an HBM controller's queue, which is no tree: the oldest of the highest priority (R361; log 186). -/
def queueGrant (s : State) (d : Nat) (a : Arb) (ws : List Waiter) : State × Arb :=
  let p := served a.p0 (ws.map Waiter.level)
  match ws.find? fun x => x.level == p with
  | none => (s, { a with waits := ws })
  | some x =>
    let aged := s.ageWaiters d 128 (ws.erase x)
    (if x.leaf < 96 then aged.1.granted d x else aged.1, { a with waits := aged.2, p0 := decide (p = 0) })

/-- ARBITRATION_CYCLE (R352, R354, R358 to R364): one transfer of resource `res` of die `d` is granted. The holder of
a burst lock requests until its burst ends. -/
def arbitrate (s : State) (d res cycles : Nat) (new : List (Nat × Nat × Nat × Nat × Nat)) : State :=
  let a := Tbl.get Arb.idle s.arbs (256 * d + res)
  let ws := s.arrive d res cycles a.waits new
  let put := fun (t : State) (x : Arb) => ({ t with arbs := Tbl.set Arb.idle t.arbs (256 * d + res) x } : State)
  let free := ws.filter fun x => !s.withheld res x.unit
  let p := match a.lock with | some l => l.2.1.val | none => served a.p0 (free.map Waiter.level)
  let stuck := match a.lock with | some l => s.withheld res l.2.2.2 | none => free.isEmpty
  if stuck then put s { a with waits := ws }
  else if 132 ≤ res then (let y := s.queueGrant d a ws; put y.1 y.2)
  else
    let all := match a.lock with
      | some l => free.filter (fun x => x.leaf != l.1) ++ [⟨l.1, d, l.1.val, l.2.2.2, l.2.1, 0, 0, 0, 1⟩]
      | none => free
    let ready := (all.filter fun x => x.level == p).map (·.leaf.val)
    let hold := a.lock.map (·.1.val)
    let top := nodeGrant a.cur (fun i => Tbl.get 0 a.w (4 * i + p)) rootInputs (ready.map rootInput).eraseDups (hold.map rootInput)
    let low' := (hold.map (64 + ·)).filter (· < 128)
    let sub := if top.2 < 8 then
        nodeGrant top.1 (fun i => Tbl.get 0 a.w (4 * i + p)) (regionInputs top.2)
          ((ready.map (64 + ·)).filter (regionInputs top.2).contains) low'
      else (top.1, top.2 + 120)
    let g := match hold with | some n => n | none => sub.2 - 64
    let w1 := s.latch d all rootInput rootInputs a.w
    let w2 := if top.2 < 8 then s.latch d all (64 + ·) (regionInputs top.2) w1 else w1
    let aged := s.ageWaiters d g ws
    let p0 := decide (p = 0)
    match a.lock with
    | some l => put (aged.1.inc (Reg.ARB_GRANT_COUNT d g) 1)
        ⟨sub.1, w2, aged.2, if l.2.2.1 ≤ 1 then none else some (l.1, l.2.1, l.2.2.1 - 1, l.2.2.2 + 1), p0⟩
    | none =>
      match free.find? (fun x => x.leaf.val == g && x.level == p) with
      | none => put s { a with waits := ws }
      | some x =>
        put (aged.1.granted d x) ⟨sub.1, w2, aged.2.filter fun y => y.leaf.val != g,
          if x.burst ≤ 1 then none else some (x.leaf, Fin.ofNat 4 p, x.burst - 1, x.unit + 1), p0⟩

/-- A write of ARB_REQ_CFG[n].PRIO (R360). -/
def prioWrite (s : State) (d n p : Nat) : State :=
  if n < 64 ∨ 80 ≤ n ∨ p = 0 then s.wr (Reg.ARB_STAT_PRIO_ERR d) 1 else s.wr (Reg.ARB_REQ_CFG_PRIO d n) p

end State

/-! ### Slot tables -/

namespace In
/-- The slot that port q sends next (R366). -/
def slotPos (q : Nat) : Fld := fld 7 q 8 0
/-- The tenant that port q lent a slot to last, 0xFF before the first (R366). -/
def slotLent (q : Nat) : Fld := fld 8 q 8 0xFF
/-- Transfers of class (owner o, priority p) that port q has passed over in the owner's slots (R366). -/
def slotAge (q o p : Nat) : Fld := fld 9 (1024 * q + 4 * o + p) 12 0
/-- 1: the last transfer of owner o in the owner's slots of port q was P0 with others of the owner waiting (R361). -/
def slotP0 (q o : Nat) : Fld := fld 72 (256 * q + o) 1 0
end In

/-- OWNER of a flit header. -/
def Flit.owner (f : Flit) : Nat := bitsOf f.hdr 15 8
/-- PRIO of a flit header. -/
def Flit.prio (f : Flit) : Nat := bitsOf f.hdr 17 16
/-- TYPE of a flit header. -/
def Flit.typ (f : Flit) : Nat := bitsOf f.hdr 3 0

namespace State

/-- A port's link layer. -/
def link (s : State) (p : Nat) : Link := Tbl.get Link.idle s.links p
/-- A port's link layer replaced. -/
def setLink (s : State) (p : Nat) (x : Link) : State := { s with links := Tbl.set Link.idle s.links p x }

/-- The owner of slot `i` of port `q`'s active table (R365). -/
def slotOwner (s : State) (q i : Nat) : Nat := bitsOf (s.rd (Reg.ARB_SLOT_ACT q (i / 4))) (8 * (i % 4) + 7) (8 * (i % 4))

/-- The tables of port `q` exchanged (R367). -/
def slotSwap (s : State) (q : Nat) : State :=
  if !s.on (Reg.ARB_SLOT_CTL_ARM q) then s
  else ((List.range 64).foldl (fun t w =>
    t.wrs [(Reg.ARB_SLOT_ACT q w, s.rd (Reg.ARB_SLOT_SHD q w)), (Reg.ARB_SLOT_SHD q w, s.rd (Reg.ARB_SLOT_ACT q w))])
    (s.wrs [(Reg.ARB_SLOT_CTL_ARM q, 0), (In.slotPos q, 0)])).inc (Reg.ARB_SLOT_STAT_SWAPS q) 1

/-- A write of a shadow word (R365, R367): ignored and counted while a swap is armed, and the management byte stays 0xFE. -/
def shadowWrite (s : State) (q w v : Nat) : State :=
  if s.on (Reg.ARB_SLOT_CTL_ARM q) then s.inc (Reg.ARB_SLOT_STAT_LATE q) 1
  else s.wr (Reg.ARB_SLOT_SHD q w) (if w % 4 = 0 then putBits v 0 8 0xFE else v)

/-- The effective priority of a waiting flit in its owner's slots (R361, R366): one level less per 256 slots passed over (the
reset value of AGE; the ports have no AGE of their own, log 11). -/
def slotLevel (s : State) (q : Nat) (f : Flit) : Nat :=
  if f.prio ≤ 1 then f.prio
  else max 1 (f.prio - (s.rd (In.slotAge q f.owner f.prio)) / 256)

/-- Among flits, the first of the highest effective priority. -/
def bestFlit (s : State) (q : Nat) (l : List Flit) : Option Flit :=
  l.foldl (fun (b : Option Flit) f => match b with
    | none => some f
    | some g => if s.slotLevel q f < s.slotLevel q g then some f else some g) none

/-- The flit of the owner's traffic in its own slot: after a P0 transfer one below P0, when one waits (R361, R366). -/
def ownFlit (s : State) (q o : Nat) (l : List Flit) : Option Flit :=
  let mine := l.filter fun f => f.owner == o
  let low := mine.filter fun f => decide (0 < f.prio)
  s.bestFlit q (if s.on (In.slotP0 q o) && !low.isEmpty then low else mine)

/-- The flit that a slot carries (R366), with whether the slot was lent. `l` are the flits that may be sent. -/
def slotPick (s : State) (q : Nat) (l : List Flit) : Option (Flit × Bool) :=
  let o := s.slotOwner q (s.rd (In.slotPos q))
  let own := if o = 0xFE then s.bestFlit q (l.filter fun f => f.prio == 0)
    else if o = 0xFF then none else s.ownFlit q o l
  match own with
  | some f => some (f, false)
  | none =>
    match l.find? (fun f => f.prio == 0) with
    | some f => some (f, true)
    | none =>
      let last := s.rd (In.slotLent q)
      let ts := (distinct (l.map (·.owner)))
      match (ts.find? (last < ·)).or ts.head? with
      | none => none
      | some t => (s.bestFlit q (l.filter fun f => f.owner == t)).map fun f => (f, true)

/-- The counts and positions after a slot (R366): lent slots, P0 outside management slots, the aging of the owner's other
classes, a granted flit's class back at its own priority (R361), and the next slot, with the swap at the wrap (R367). -/
def slotDone (s : State) (q : Nat) (l : List Flit) (pick : Option (Flit × Bool)) : State :=
  let pos := s.rd (In.slotPos q)
  let o := s.slotOwner q pos
  let s1 := match pick with
    | none => s
    | some (f, lent) =>
      let a := if lent then s.inc (Reg.ARB_SLOT_LENT_COUNT q) 1 else s
      let b := if f.prio = 0 && o != 0xFE then a.inc (Reg.ARB_SLOT_P0_COUNT q) 1 else a
      let c := (if lent && f.prio != 0 then b.wr (In.slotLent q) f.owner else b).wr (In.slotAge q f.owner f.prio) 0
      if lent then c
      else
        (((l.filter fun (g : Flit) => g.owner == f.owner && decide (2 ≤ g.prio) && g.prio != f.prio).map Flit.prio).eraseDups).foldl
          (fun t p => t.inc (In.slotAge q f.owner p) 1) (c.wr (In.slotP0 q f.owner) (b2n (f.prio == 0)))
  let s2 := s1.wr (In.slotPos q) (pos + 1)
  if pos = 255 then s2.slotSwap q else s2

end State
end Sys2Proof.Machine
end

