-- ==== Sys2Proof/Machine/Crc.lean ====
section
/-!
DEFINITION. The cyclic redundancy checks that the spec names: CRC-64 of ECMA-182 (R375) and CRC-32C (R401).
-/

namespace Sys2Proof.Machine

/-- One byte into a CRC of `w` bits, most significant bit first. -/
def crcByte (w poly crc b : Nat) : Nat :=
  (List.range 8).foldl (fun c _ =>
    (if c.testBit (w - 1) then (2 * c) % 2 ^ w ^^^ poly else (2 * c) % 2 ^ w)) (crc ^^^ (b % 256) * 2 ^ (w - 8))

/-- CRC-64 with initial value all ones and final inversion. -/
def crc64 (l : List Nat) : Nat :=
  l.foldl (crcByte 64 0x42F0E1EBA9EA3693) (2 ^ 64 - 1) ^^^ (2 ^ 64 - 1)

/-- One byte into a reflected CRC-32C; 0x82F63B78 is 0x1EDC6F41 with its bits reversed. -/
def crc32cByte (crc b : Nat) : Nat :=
  (List.range 8).foldl (fun c _ => if c % 2 = 1 then c / 2 ^^^ 0x82F63B78 else c / 2) (crc ^^^ b % 256)

/-- CRC-32C: reflected, initial value all ones, final inversion. -/
def crc32c (l : List Nat) : Nat := l.foldl crc32cByte 0xFFFFFFFF ^^^ 0xFFFFFFFF

end Sys2Proof.Machine
end

