-- ==== Sys2Proof/Machine/Ozl.lean ====
section
/-!
DEFINITION. The Ozpel link ports (spec/14): training, width and faults (R371 to R384), flits, replay and credits (R374 to R377),
the route of a flit (R389), and the sending of one slot (R366).
-/

namespace Sys2Proof.Machine

namespace In
/-- Transmitter's lane number received at physical lane l of port p, in 4-bit field l, as found by the last training (R379). -/
def lanePerm (p : Nat) : Fld := fld 13 p 64 0xFEDCBA9876543210
/-- Wake patterns sent since OZL_CTL.WAKE_TX was written (R385). -/
def wakeSent (p : Nat) : Fld := fld 14 p 8 0
/-- Symbol errors of physical lane l of port p in the window of R381 so far. -/
def symWin (p l : Nat) : Fld := fld 70 (16 * p + l) 32 0
/-- Uncorrectable codewords of port p in a row (R382). -/
def badRun (p : Nat) : Fld := fld 71 p 4 0
end In

/-- The lanes of a width code (Table 14.4): 16, 12, 8, 4. -/
def lanesOfCode (w : Nat) : Nat := 16 - 4 * w

/-- The width code of R380 for `g` good lanes under a cap, none below 4 lanes. -/
def widthFor (g cap : Nat) : Option Nat :=
  (List.range 4).find? fun w => decide (cap ≤ w) && decide (lanesOfCode w ≤ g)

/-- Receive lanes that are good: not marked bad and carrying no lane number twice (R379). -/
def dupLanes (perm bad : Nat) : Nat :=
  ((List.range 16).filter fun l => !bad.testBit l && (List.range 16).any fun m =>
    m != l && !bad.testBit m && bitsOf perm (4 * m + 3) (4 * m) == bitsOf perm (4 * l + 3) (4 * l)).foldl
      (fun n l => n + 2 ^ l) 0

/-- The lane map of `w` lanes: physical lane of logical lane j, which is the j-th lowest good lane as the transmitter numbers
them (R380). -/
def laneMap (perm bad w : Nat) : Nat :=
  let phys := fun (t : Nat) => firstBelow 16 fun l => !bad.testBit l && bitsOf perm (4 * l + 3) (4 * l) == t
  let good := (List.range 16).filterMap phys
  ((good.take w).zipIdx.map fun q => q.1 * 2 ^ (4 * q.2)).foldl (· + ·) 0

/-- A flit of an Ozpel port with its payload at 512 bytes (R375). -/
def Flit.full (f : Flit) : Flit := ⟨f.hdr, (List.range 512).map (nth f.pay)⟩
/-- CRC-64 over header and payload (R375). -/
def Flit.crc (f : Flit) : Nat := crc64 (toLe 16 f.hdr ++ f.pay)

namespace State

/-- OZL_STAT of a port as a word. -/
def ozlStat (s : State) (p : Nat) : Nat :=
  s.rd (Reg.OZL_STAT_STATE p) + s.rd (Reg.OZL_STAT_WIDTH p) * 2 ^ 4 + s.rd (Reg.OZL_STAT_MISWIRE p) * 2 ^ 6 +
    s.rd (Reg.OZL_STAT_REFCLK p) * 2 ^ 7

/-- The health event of a change of width or of DOWN (R384). -/
def ozlHealth (s : State) (p : Nat) : State := s.hltLog 4 p (s.ozlStat p)

/-- The link layer emptied: every unacknowledged flit is reported LINK_DOWN to the engine (R384). -/
def dropReplay (s : State) (p : Nat) : State :=
  let x := s.link p
  s.setLink p { x with replay := [], resend := 0, lost := x.lost ++ x.replay, discard := false, nak := false }

/-- Entry to DOWN (R384). -/
def ozlDown (s : State) (p : Nat) : State :=
  (((s.dropReplay p).wrs [(Reg.OZL_STAT_STATE p, 6), (Reg.OZL_CTL_RETRAIN p, 0)]).inc (Reg.OZL_DOWN_CNT_COUNT p) 1).ozlHealth p

/-- OZL_ENABLE (R378): EN = 1, and with the clock present DISABLED leaves for DETECT. -/
def ozlEnable (s : State) (p : Nat) : State :=
  let s1 := s.wr (Reg.OZL_CTL_EN p) 1
  if s1.on (Reg.OZL_STAT_REFCLK p) && s1.rd (Reg.OZL_STAT_STATE p) == 0 then
    s1.wrs [(Reg.OZL_STAT_STATE p, 2), (Reg.OZL_LANE_BAD_RX p, 0)]
  else s1

/-- EN = 0: the port is DISABLED (Table 14.2). -/
def ozlDisable (s : State) (p : Nat) : State :=
  (s.dropReplay p).wrs [(Reg.OZL_CTL_EN p, 0), (Reg.OZL_STAT_STATE p, 0), (Reg.OZL_CTL_RETRAIN p, 0)]

/-- OZL_RETRAIN (R383): full training of a port that is up or DOWN; bad lanes are tested again. The link layer starts anew, so
what was not acknowledged is reported (log 13). -/
def ozlRetrain (s : State) (p : Nat) : State :=
  let st := s.rd (Reg.OZL_STAT_STATE p)
  if st = 4 ∨ st = 5 ∨ st = 6 then
    (s.dropReplay p).wrs [(Reg.OZL_STAT_STATE p, 3), (Reg.OZL_CTL_RETRAIN p, 1), (Reg.OZL_LANE_BAD_RX p, 0)]
  else s

/-- Width and state after the exchange of masks (R380), at most the width `most`. -/
def ozlWidth (s : State) (p : Nat) (most : Nat) : State × Bool :=
  let rx := s.rd (Reg.OZL_LANE_BAD_RX p)
  let tx := s.rd (Reg.OZL_LANE_BAD_TX p)
  match widthFor (16 - max (popCount rx 16) (popCount tx 16)) (max most (s.rd (Reg.OZL_CFG_MAXW p))) with
  | none => (s.ozlDown p, false)
  | some w =>
    let m := laneMap (s.rd (In.lanePerm p)) rx (lanesOfCode w)
    let old := s.rd (Reg.OZL_STAT_WIDTH p)
    let s1 := s.wrs [(Reg.OZL_STAT_STATE p, 4), (Reg.OZL_STAT_WIDTH p, w), (Reg.OZL_LANE_MAP_LO p, m),
      (Reg.OZL_LANE_MAP_HI p, m / 2 ^ 32), (Reg.OZL_CTL_RETRAIN p, 0)]
    (if w = old then s1 else s1.ozlHealth p, true)

/-- FULL_TRAINING_DONE (R372, R379, R380): the masks found bad at both ends, inverted lanes, lane numbers received, and the
peer's serial and port. -/
def trainingDone (s : State) (p rx tx inv perm serial peer : Nat) : State :=
  let st := s.rd (Reg.OZL_STAT_STATE p)
  if st ≠ 2 ∧ st ≠ 3 then s
  else
    let rx' := rx ||| dupLanes perm rx
    let s1 := s.wrs [(Reg.OZL_LANE_BAD_RX p, rx'), (Reg.OZL_LANE_BAD_TX p, tx), (Reg.OZL_LANE_POL_INV p, inv),
      (In.lanePerm p, perm), (Reg.OZL_PEER_LO p, serial), (Reg.OZL_PEER_HI p, serial / 2 ^ 32),
      (Reg.OZL_PEER_PORT_PORT p, peer), (Reg.OZL_STAT_MISWIRE p, b2n (peer != (p ^^^ 1))), (Reg.OZL_CTL_ACCEPT p, 0)]
    let y := s1.ozlWidth p 0
    if y.2 then
      let x := y.1.link p
      y.1.setLink p { x with replay := [], resend := 0, txSeq := 0, rxSeq := 0, discard := false, nak := false, credits := 256, freed := 0 }
    else y.1

/-- OZL_ACCEPT (R372). -/
def ozlAccept (s : State) (p : Nat) : State := s.wr (Reg.OZL_CTL_ACCEPT p) 1

/-- WAKE_TX (R385): the first pattern leaves. -/
def wakeTx (s : State) (p : Nat) : State := s.wrs [(Reg.OZL_CTL_WAKE_TX p, 1), (In.wakeSent p, 1)]

/-- WAKE_TX_REPEAT (R385): 100 µs on, until the peer starts DETECT or 10 ms have passed. -/
def wakeRepeat (s : State) (p : Nat) (peer : Bool) : State :=
  if !s.on (Reg.OZL_CTL_WAKE_TX p) then s
  else if peer || decide (100 ≤ s.rd (In.wakeSent p)) then s.wrs [(Reg.OZL_CTL_WAKE_TX p, 0), (In.wakeSent p, 0)]
  else s.inc (In.wakeSent p) 1

/-- A retrain begins (R382, R384): one that comes during a retrain merges with it. -/
def retrain (s : State) (p : Nat) : State :=
  if s.rd (Reg.OZL_STAT_STATE p) ≠ 4 then s
  else
    let x := s.link p
    let l := (x.retr.filter fun t => decide (x.ms < t + 1000)) ++ [x.ms]
    let s1 := ((s.setLink p { x with retr := l }).wr (Reg.OZL_STAT_STATE p) 5).inc (Reg.OZL_RETRAIN_CNT_COUNT p) 1
    if s.rd (Reg.OZL_CFG_RETRAIN_MAX p) < l.length then s1.ozlDown p else s1

/-- Whether physical receive lane `l` is one of the lanes in use. -/
def laneActive (s : State) (p l : Nat) : Bool :=
  let m := s.rd (Reg.OZL_LANE_MAP_LO p) + s.rd (Reg.OZL_LANE_MAP_HI p) * 2 ^ 32
  (List.range (lanesOfCode (s.rd (Reg.OZL_STAT_WIDTH p)))).any fun j => bitsOf m (4 * j + 3) (4 * j) == l

/-- LANE_LOSS_OF_LOCK (R381, R382): lane `l` loses lock, or, with none named, codewords that carry no flit bring the uncorrectable ones
in a row to eight. -/
def lockLost (s : State) (p : Nat) (l : Option Nat) : State :=
  let st := s.rd (Reg.OZL_STAT_STATE p)
  if st ≠ 4 ∧ st ≠ 5 then s
  else
    match l with
    | none => ((s.inc (Reg.OZL_FEC_UNCORR_COUNT p) (8 - s.rd (In.badRun p))).wr (In.badRun p) 0).retrain p
    | some l =>
      if s.laneActive p l then (s.wr (Reg.OZL_LANE_BAD_RX p) (setBit (s.rd (Reg.OZL_LANE_BAD_RX p)) l true)).retrain p else s

/-- PEER_RETRAIN (R382). -/
def peerRetrain (s : State) (p : Nat) : State := s.retrain p

/-- `n` symbol errors on physical lane `l` (R381, R386). -/
def symbolErrs (s : State) (p l n : Nat) : State := (s.inc (Reg.OZL_SYMERR_COUNT p l) n).inc (In.symWin p l) n

/-- SYMBOL_ERROR_WINDOW (R381, R382): the window ends; `errs` are the errors of each lane in those of its codewords that carried no
flit. -/
def symbolWindow (s : State) (p : Nat) (errs : List Nat) : State :=
  let x := s.link p
  let s0 := s.setLink p { x with ms := x.ms + 1 }
  if s.rd (Reg.OZL_STAT_STATE p) ≠ 4 then s0.zeros ((List.range 16).map (In.symWin p))
  else
    let s1 := (List.range 16).foldl (fun t l => t.symbolErrs p l (nth errs l)) s0
    let bad := (List.range 16).filter fun l => decide (s.rd (Reg.OZL_CFG_SYM_LIMIT p) < s1.rd (In.symWin p l))
    let s2 := bad.foldl (fun t l => t.wr (Reg.OZL_LANE_BAD_RX p) (setBit (t.rd (Reg.OZL_LANE_BAD_RX p)) l true))
      (s1.zeros ((List.range 16).map (In.symWin p)))
    if bad.isEmpty then s2 else s2.retrain p

/-- RETRAIN_DONE (R382, R383): the peer's mask is known; the width never rises, and flits resume with the replay. -/
def retrainDone (s : State) (p tx : Nat) : State :=
  if s.rd (Reg.OZL_STAT_STATE p) ≠ 5 then s
  else
    let y := (s.wr (Reg.OZL_LANE_BAD_TX p) tx).ozlWidth p (s.rd (Reg.OZL_STAT_WIDTH p))
    if y.2 then (let x := y.1.link p; y.1.setLink p { x with resend := x.replay.length }) else y.1

/-- PORT_DOWN (R384): RETRAIN has not finished within 40 µs. -/
def portDown (s : State) (p : Nat) : State := if s.rd (Reg.OZL_STAT_STATE p) = 5 then s.ozlDown p else s

/-! ### Flits -/

/-- The port toward destination coordinates (R389), or none when they are the module's own. -/
def routePort (s : State) (x y z : Nat) : Option Nat :=
  let own := [s.rd Reg.OZL_COORD_X, s.rd Reg.OZL_COORD_Y, s.rd Reg.OZL_COORD_Z]
  let size := [s.rd Reg.OZL_COORD_SX + 1, s.rd Reg.OZL_COORD_SY + 1, s.rd Reg.OZL_COORD_SZ + 1]
  if [x, y, z] = own then none
  else if s.on Reg.COL_ROUTE_CTL_TABLE then
    let i := x + 16 * y + 256 * z
    some (bitsOf (s.rd (Reg.COL_ROUTE_ACT (i / 8))) (4 * (i % 8) + 2) (4 * (i % 8)))
  else
    (List.range 3).findSome? fun k =>
      let a := nth own k
      let b := nth [x, y, z] k
      let n := nth size k
      if a = b then none
      else
        let plus := (b + n - a % n) % n
        some (2 * k + if plus ≤ n - plus then 0 else 1)

/-- The acknowledgement of every flit up to `ack` (R376). -/
def ackUpto (s : State) (p ack : Nat) : State :=
  let x := s.link p
  let keep := x.replay.filter fun f => decide ((bitsOf f.hdr 47 32 + 2 ^ 16 - ack - 1) % 2 ^ 16 < 2 ^ 15)
  s.setLink p { x with replay := keep, resend := min x.resend keep.length }

/-- NAK_RECEIVE (R376): the sender resends from the first flit not acknowledged. -/
def nakReceive (s : State) (p ack : Nat) : State :=
  let s1 := s.ackUpto p ack
  let x := s1.link p
  s1.setLink p { x with resend := x.replay.length }

/-- A flit of a reserved class is discarded and logged (R390). -/
def colDiscard (s : State) (chan : Nat) : State :=
  s.logPush 4 (fun n => [Reg.COL_LOG_CODE n, Reg.COL_LOG_GROUP n, Reg.COL_LOG_SLOT n, Reg.COL_LOG_VALID n])
    [0xFF, bitsOf chan 12 5, bitsOf chan 4 0, 1]

/-- A delivered flit (R389, R390): forwarded when its destination is another module, else the engine's. -/
def deliverFlit (s : State) (f : Flit) : State :=
  let bytes := 64 * bitsOf f.hdr 7 4
  let chan := bitsOf f.hdr 111 96
  match s.routePort (bitsOf f.hdr 83 80) (bitsOf f.hdr 87 84) (bitsOf f.hdr 91 88) with
  | some p =>
    let x := s.link p
    (s.setLink p { x with outq := x.outq ++ [f] }).inc48 Reg.COL_FWD_LO_COUNT Reg.COL_FWD_HI_COUNT bytes
  | none =>
    if chan / 2 ^ 14 = 3 then s.colDiscard chan
    else s.inc48 Reg.COL_RX_LO_COUNT Reg.COL_RX_HI_COUNT bytes

/-- The injection of R577 into a lane of port `p`: a burst of 40 symbol errors, more than R374 corrects, in its next codeword. -/
def laneInject (s : State) (p : Nat) : State × Bool :=
  if s.on Reg.DBG_INJ_ARM && s.rd Reg.DBG_INJ_TARGET == 5 && s.rd Reg.DBG_INJ_ADDR_LO % 8 == p then
    ((s.wr Reg.DBG_INJ_ARM 0).inc (Reg.OZL_SYMERR_COUNT p (bitsOf (s.rd Reg.DBG_INJ_ADDR_LO) 7 4)) 40, true)
  else (s, false)

/-- The physical lane on which symbol `i` of a codeword arrives: logical lane i mod L (R374). -/
def symbolLane (s : State) (p i : Nat) : Nat :=
  let j := i % lanesOfCode (s.rd (Reg.OZL_STAT_WIDTH p))
  bitsOf (s.rd (Reg.OZL_LANE_MAP_LO p) + s.rd (Reg.OZL_LANE_MAP_HI p) * 2 ^ 32) (4 * j + 3) (4 * j)

/-- One codeword with `n` symbols in error: up to 15 are corrected (R374). Answers whether it is uncorrectable. -/
def codeword (s : State) (p n : Nat) : State × Bool :=
  if 15 < n then ((s.inc (Reg.OZL_FEC_UNCORR_COUNT p) 1).inc (In.badRun p) 1, true)
  else ((if n = 0 then s else s.inc (Reg.OZL_FEC_CORR_COUNT p) 1).wr (In.badRun p) 0, false)

/-- The codewords that a flit lies in, each by its symbols in error. Answers whether one of them is uncorrectable and whether eight in a
row were (R382). An armed injection strikes the first. -/
def codewords (s : State) (p : Nat) (errs : List (List Nat)) : State × Bool × Bool :=
  let y := s.laneInject p
  let counts := errs.map fun e => e.eraseDups.length
  let counts' := if y.2 then 40 :: counts.drop 1 else counts
  let s1 := errs.foldl (fun t e => e.eraseDups.foldl (fun u i => u.symbolErrs p (u.symbolLane p i) 1) t) y.1
  counts'.foldl (fun (acc : State × Bool × Bool) n =>
    let z := acc.1.codeword p n
    (z.1, acc.2.1 || z.2, acc.2.2 || decide (8 ≤ z.1.rd (In.badRun p)))) (s1, false, false)

/-- A flit that came through whole (R372, R376, R377): its ACK and CREDIT, and, in sequence, its delivery. A miswired port that is not
accepted delivers management flits alone; what it does with a data flit is not said, and the model discards it (log 187). -/
def flitGood (s : State) (p : Nat) (f : Flit) : State :=
  let s2 := s.ackUpto p (bitsOf f.hdr 63 48)
  let x := s2.link p
  let s3 := s2.setLink p { x with credits := min (x.credits + bitsOf f.hdr 73 64) 256 }
  let x := s3.link p
  if f.typ = 3 then s3.nakReceive p (bitsOf f.hdr 63 48)
  else if f.typ = 2 ∨ f.typ = 1 ∧ !(s.on (Reg.OZL_STAT_MISWIRE p) && !s.on (Reg.OZL_CTL_ACCEPT p)) then
    if bitsOf f.hdr 47 32 = (x.rxSeq + 1) % 2 ^ 16 then
      ((s3.setLink p { x with rxSeq := (x.rxSeq + 1) % 2 ^ 16, discard := false, freed := x.freed + 1 }).inc48
        (Reg.OZL_RX_LO_COUNT p) (Reg.OZL_RX_HI_COUNT p) 1).deliverFlit f
    else s3
  else s3

/-- FLIT_RECEIVE (R374 to R377): a flit with its CRC, and the symbols in error of the codewords that it lies in.
A flit in error, and every later one until the resend, is discarded and a NAK is owed; idle flits carry ACK and CREDIT alone. -/
def flitReceive (s : State) (p : Nat) (f : Flit) (crc : Nat) (errs : List (List Nat)) : State :=
  if s.rd (Reg.OZL_STAT_STATE p) ≠ 4 then s
  else
    let y := s.codewords p errs
    let bad := f.crc != crc
    let s1 := if bad && !y.2.1 then y.1.inc (Reg.OZL_CRC_ERR_COUNT p) 1 else y.1
    let x := s1.link p
    let s2 := if bad || y.2.1 then s1.setLink p { x with discard := true, nak := true } else s1.flitGood p f
    if y.2.2 then (s2.wr (In.badRun p) 0).retrain p else s2

/-- The flits of a port that may be sent (R372, R376, R377). -/
def sendable (s : State) (q : Nat) : List Flit :=
  let x := s.link q
  if q = 6 then (if s.on Reg.HTP_STAT_LINK then x.outq else [])
  else if x.credits = 0 ∨ 1024 ≤ x.replay.length then []
  else if s.on (Reg.OZL_STAT_MISWIRE q) && !s.on (Reg.OZL_CTL_ACCEPT q) then x.outq.filter fun f => f.typ == 2
  else x.outq

/-- A flit as it leaves: ACK and CREDIT of the link (Table 14.1). -/
def restamp (x : Link) (f : Flit) : Flit := ⟨putBits (putBits f.hdr 48 16 x.rxSeq) 64 10 x.freed, f.pay⟩

/-- A new flit as it leaves, with the link's next SEQ as well. -/
def stamp (x : Link) (f : Flit) : Flit := restamp x ⟨putBits f.hdr 32 16 (x.txSeq + 1), f.pay⟩

/-- A flit of the link itself: 0 idle, 3 NAK (Table 14.1). It takes no number; the SEQ it shows is the last given out (log 187). -/
def linkFlit (x : Link) (typ : Nat) : Flit := restamp x (Flit.full ⟨putBits typ 32 16 x.txSeq, []⟩)

/-- What a port puts on the wire: the flit with its CRC (R375). -/
def onWire (x : Link) (f : Flit) : Link := { x with wire := some (f, f.crc), freed := 0 }

/-- The new flits that the engine or the host transport offers to a port (R390). On an Ozpel port each has 512 bytes of payload (R375). -/
def offer (s : State) (q : Nat) (new : List Flit) : State :=
  let x := s.link q
  let s1 := s.setLink q { x with outq := x.outq ++ if q = 6 then new else new.map Flit.full }
  if q = 6 then s1
  else s1.inc48 Reg.COL_TX_LO_COUNT Reg.COL_TX_HI_COUNT ((new.map fun f => 64 * bitsOf f.hdr 7 4).foldl (· + ·) 0)

/-- PORT_SLOT (R366, R375 to R377, R470): the next slot of a port, after the new flits have been offered. A NAK that is owed, and then a
resend, takes the place of the slot, and the position does not advance; in a slot that no one uses an idle flit returns credits. -/
def portSlot (s : State) (q : Nat) (new : List Flit) : State :=
  let s0 := s.offer q new
  let x := s0.link q
  if q ≠ 6 ∧ s.rd (Reg.OZL_STAT_STATE q) ≠ 4 ∨ q = 6 ∧ !s.on Reg.HTP_STAT_LINK then s0
  else if q ≠ 6 ∧ x.nak then s0.setLink q (onWire { x with nak := false } (linkFlit x 3))
  else if q ≠ 6 ∧ x.resend ≠ 0 then
    let f := x.replay.getD (x.replay.length - x.resend) ⟨0, []⟩
    (s0.setLink q (onWire { x with resend := x.resend - 1 } (restamp x f))).inc (Reg.OZL_REPLAY_COUNT q) 1
  else
    let l := s0.sendable q
    let pick := s0.slotPick q l
    let s1 := s0.slotDone q l pick
    let y := s1.link q
    match pick with
    | none => if q = 6 then s1 else s1.setLink q (onWire y (linkFlit y 0))
    | some (f, _) =>
      if q = 6 then (s1.setLink q { y with outq := y.outq.erase f }).charge 5 f.owner (f.pay.length - 32)
      else
        let g := stamp y f
        let y1 : Link := { y with outq := y.outq.erase f, replay := y.replay ++ [g], txSeq := (y.txSeq + 1) % 2 ^ 16, credits := y.credits - 1 }
        ((s1.setLink q (onWire y1 g)).inc48 (Reg.OZL_TX_LO_COUNT q) (Reg.OZL_TX_HI_COUNT q) 1).charge 4 f.owner (64 * bitsOf f.hdr 7 4)

end State
end Sys2Proof.Machine
end

