-- ==== Sys2Proof/Machine/Col.lean ====
section
/-!
DEFINITION. The collective engine's operations as wholes (spec/15): records and their checks (R391 to R393), READY (R394),
status words and completion (R395, R412, R413), held operations, groups, routes and the manager's role (R387 to R389, R415 to
R419).
-/

namespace Sys2Proof.Machine

/-- An operation record (Table 15.1); `rsvd` is nonzero when a reserved field is. -/
structure ColRec where
  op       : Nat
  strict   : Bool
  acc      : Bool
  pass     : Bool
  dropFlt  : Bool
  prio     : Nat
  wfmt     : Nat
  group    : Nat
  tenant   : Nat
  opid     : Nat
  sd       : Nat
  dd       : Nat
  ad       : Nat
  xd       : Nat
  peer     : Nat
  k        : Nat
  epm      : Nat
  param    : Nat
  plen     : Nat
  evtEn    : Bool
  evtCtr   : Nat
  evtReg   : Nat
  ndesc    : Nat
  status   : Nat
  tagTbl   : Nat
  shard    : Nat
  tagMode  : Nat
  tagRec   : Nat
  rsvd     : Nat
  deriving DecidableEq, Repr

/-- An operation record from its 1024 bits. -/
def parseCol (n : Nat) : ColRec :=
  { op := bitsOf n 3 0, strict := n.testBit 4, acc := n.testBit 5, pass := n.testBit 6, dropFlt := n.testBit 7,
    prio := bitsOf n 9 8, wfmt := bitsOf n 15 12, group := bitsOf n 23 16, tenant := bitsOf n 31 24, opid := bitsOf n 63 32,
    sd := bitsOf n 71 64, dd := bitsOf n 79 72, ad := bitsOf n 87 80, xd := bitsOf n 95 88, peer := bitsOf n 107 96,
    k := bitsOf n 111 108, epm := bitsOf n 127 112, param := bitsOf n 175 128, plen := bitsOf n 223 192,
    evtEn := n.testBit 224, evtCtr := bitsOf n 230 225, evtReg := bitsOf n 235 231, ndesc := bitsOf n 255 240,
    status := bitsOf n 303 256, tagTbl := bitsOf n 367 320, shard := bitsOf n 415 384, tagMode := bitsOf n 417 416,
    tagRec := bitsOf n 495 448,
    rsvd := bitsOf n 11 10 + bitsOf n 191 176 + bitsOf n 239 236 + bitsOf n 319 304 + bitsOf n 383 368 + bitsOf n 447 418 +
      bitsOf n 1023 496 }

/-- A refusal code of R391 or R393 that has no number in the spec: 0 COL_FULL, 1 COL_PARAM, 2 COL_GROUP (log 14). -/
def colCode (k : Nat) : Nat := 1 + Config.colRefusal k % 255

/-- Operations 1 and 2. -/
def ColRec.reduces (x : ColRec) : Bool := x.op == 1 || x.op == 2

/-- Descriptors read, in order of Table 15.2. -/
def ColRec.srcs (x : ColRec) : List Nat :=
  match x.op with
  | 1 => [x.sd] | 2 => [x.sd] | 3 => [x.sd] | 4 => [x.sd, x.ad] | 5 => [x.sd, x.ad, x.xd] | 6 => [x.ad]
  | 7 => (List.range x.ndesc).map (x.sd + ·)
  | 8 => [x.sd] | _ => []

/-- Descriptors written (Table 15.2). -/
def ColRec.dsts (x : ColRec) : List Nat :=
  match x.op with
  | 1 => [x.dd] | 2 => [x.dd] | 3 => [x.dd] | 4 => [x.dd, x.xd] | 5 => [x.dd] | 6 => [x.xd] | 9 => [x.dd] | _ => []

/-- Whether the operation converts between WFMT and the format of its SDESC or DDESC. -/
def ColRec.usesW (x : ColRec) : Bool := x.op == 3 || x.op == 4 || x.op == 8 || x.op == 9

/-- A WFMT-to-DDESC conversion that Table 2.4 or R49 covers; an equal format is a copy. -/
def wireOk (w d : Nat) : Bool := w == d || exactConv w d || isBlock w && decide (d ≤ 2)

namespace LCtx

/-- Elements of descriptor `i` in the order of R392: body positions, or value slots below SCOUNT. `tiles` lists the SCOUNT of
each body tile of a LAYOUT = 1 array. -/
def colCount (x : LCtx) (i : Nat) : Nat :=
  ((List.range (descOf x.p i).entries).map fun e => (x.entryDesc i e).count).foldl (· + ·) 0

end LCtx

/-- The pieces of a PERMUTE (R409): PIECE, peer, DIR, descriptor, and whether a reserved bit is set. -/
structure Piece where
  piece : Nat
  peer  : Nat
  recv  : Bool
  desc  : Nat
  rsvd  : Bool
  deriving DecidableEq, Repr

/-- A piece from its eight words. -/
def parsePiece (w : List Nat) : Piece :=
  ⟨nth w 0, bitsOf (nth w 1) 11 0, (nth w 1).testBit 16, nth w 2,
    bitsOf (nth w 1) 15 12 + bitsOf (nth w 1) 31 17 + (w.drop 3).foldl (· + ·) 0 != 0⟩

/-- Step 1 of R393 on the record itself. -/
def colRecBad (c : ColRec) : Bool :=
  c.rsvd != 0 || c.op == 0 || decide (10 ≤ c.op) || c.prio == 0 || c.tagMode == 3 || c.param % 256 != 0 ||
    c.status % 32 != 0 || c.tagTbl % 8 != 0 || c.tagRec % 8 != 0

/-- The sections that R391 allows. -/
def colSectionsBad (p : List Nat) : Bool :=
  headerBad p || stashCnt p != 0 || ((List.range 12).any fun k => !([0, 7, 10, 11].contains k) && secCnt p k != 0)

/-- Bytes of `n` elements of format `f` on the wire and in staging: blocks with their scales, ACC40 in 5 bytes (R397). -/
def wireLen (f n : Nat) : Nat :=
  if isBlock f then cdiv n 32 * (blockBytes f + 1) else if f = 14 then 5 * n else n * elemBytes f

/-- Bytes that a descriptor's body covers. -/
def colBytes (x : LCtx) (i : Nat) : Nat := wireLen (descOf x.p i).fmt (x.colCount i)

/-- Whether a peer's READY disagrees with the member's own (R394): SEND pairs with RECV. -/
def Ready.clash (a b : Ready) : Bool :=
  !(a.op == b.op && a.op != 8 && a.op != 9 || a.op == 8 && b.op == 9 || a.op == 9 && b.op == 8) || a.gen != b.gen ||
    a.bytes != b.bytes || a.elems != b.elems

/-- A status decided for an operation; a later one does not change it but an abort (R395, R412). -/
def ColOp.settle (o : ColOp) (r : Nat × Nat × Nat × Nat) : ColOp :=
  { o with res := if o.res.isSome && r.1 != 1 then o.res else some r }

namespace State

/-! ### What a descriptor of an operation holds -/

/-- The view of entry `e` of descriptor `i` at the handle addresses of the operation's region. -/
def colView (s : State) (x : LCtx) (i e : Nat) : View :=
  let d := x.entryDesc i e
  let b := if d.space = 1 then s.launchBase x 0 (nth x.regions 0) 0 d.handle else 0
  ⟨d, b + d.base, b + d.scaleBase, none⟩

/-- Body tiles of a LAYOUT = 1 view in body order, each with its logical window. -/
def colTiles (s : State) (v : View) : List (Tile × (Nat × Nat)) :=
  (List.range (cdiv (v.d.ext 1) 64)).flatMap fun a => (List.range (cdiv (v.d.ext 0) 64)).filterMap fun b =>
    (bodyTile s v a b).map fun t => (t, window v.d a b)

/-- The entries that the engine sees in a body tile: those of the logical window that repeat no coordinate (R180). -/
def colEnts (t : Tile × (Nat × Nat)) : List TEnt :=
  t.1.live.filter fun e => decide (e.slot < t.1.scount) && decide (e.row < t.2.1) && decide (e.col < t.2.2)

/-- The codes and scales of the value slots below SCOUNT of a tile (R392); a slot that holds no entry reads +0 (R180). -/
def slotCodes (s : State) (t : Tile × (Nat × Nat)) : List (Nat × Nat) :=
  let es : Tbl (Nat × Nat) := (colEnts t).foldl (fun a e => Tbl.put a e.slot (t.1.code s e.slot, t.1.scale s e.row e.col)) []
  (List.range t.1.scount).map fun j => Tbl.get (0, 127) es j

/-- The codes and scales of descriptor `i` in the order of R392, with the 64-byte units read. -/
def colCodes (s : State) (x : LCtx) (i : Nat) : List (Nat × Nat) × List Nat :=
  (List.range (descOf x.p i).entries).foldl (fun (acc : List (Nat × Nat) × List Nat) e =>
    let v := s.colView x i e
    if v.d.isZeroExt then acc
    else if v.d.layout = 1 then
      let ts := s.colTiles v
      (acc.1 ++ ts.flatMap s.slotCodes, acc.2 ++ ts.flatMap (·.1.units))
    else
      let ys := v.d.bodyRows.map fun r => loadTile s v none r 0 1 (v.d.ext 0)
      (acc.1 ++ ys.flatMap (·.1), acc.2 ++ ys.flatMap (·.2))) ([], [])

/-- A read of a whole descriptor by the engine: true when some access fails (R413). -/
def colRead (s : State) (x : LCtx) (i : Nat) : State × Bool × List (Nat × Nat) :=
  let y := s.colCodes x i
  let z := s.checkReads (distinct (y.2.map (· / 4)))
  (z.1.noteFar z.2.2, z.2.1, y.1)

/-- SCOUNT and MASK_VER of every body tile of descriptor `i`; empty for LAYOUT = 0 (R399). -/
def colTags (s : State) (x : LCtx) (i : Nat) : List (Nat × Nat) :=
  (List.range (descOf x.p i).entries).flatMap fun e =>
    let v := s.colView x i e
    if v.d.layout = 1 && !v.d.isZeroExt then (s.colTiles v).map fun t => (t.1.scount, t.1.ver) else []

/-- Elements of descriptor `i` (R392). -/
def colN (s : State) (x : LCtx) (i : Nat) : Nat :=
  if (descOf x.p i).layout = 1 then ((s.colTags x i).map (·.1)).foldl (· + ·) 0 else x.colCount i

/-! ### Submission (R391 to R393) -/

/-- Step 1 of R393: the record and its parameter block. A read that fails is refused as COL_PARAM, or as R581 says. -/
def colParam (s : State) (c : ColRec) : State × Except Refuse (List Nat) :=
  if colRecBad c then (s, .error (Refuse.of (colCode 1)))
  else
    let y := s.readOwn c.tenant c.param c.plen (colCode 1)
    match y.2 with
    | .error e => (y.1, .error e)
    | .ok p => (y.1, if colSectionsBad p then .error (Refuse.of (colCode 1)) else .ok p)

/-- The region whose handle table the operation uses: the lowest that the tenant owns (log 15). -/
def colRegion (s : State) (t : Nat) : Option Nat := firstBelow 32 fun r => s.rd (Reg.TEN_REGION_OWNER r) == t

/-- The context of R393's checks: the launch checks of handles and descriptors see the operation's descriptors. -/
def colCtx (s : State) (c : ColRec) (p : List Nat) : LCtx :=
  let lr : LRec := { kernel := 0, klen := 0, phase := 0, evo := false, dgrad := false, xgen := false, cscope := 0,
                     tenant := c.tenant, regions := 0, param := c.param, plen := c.plen, id := 0, rsvd := 0 }
  let d := fun i => (descOf p i).fmt
  let cv := (if c.reduces then [c.sd, c.dd] else []) ++ (if c.op = 7 then c.srcs else []) ++ (if c.op = 5 then [c.sd, c.dd] else []) ++
    (if (c.op = 3 ∨ c.op = 4 ∨ c.op = 8) ∧ d c.sd ≠ c.wfmt then [c.sd] else []) ++
    (if (c.op = 3 ∨ c.op = 4 ∨ c.op = 9) ∧ d c.dd ≠ c.wfmt then [c.dd] else [])
  let pr := if c.op = 6 then [] else c.dsts.flatMap fun a => c.srcs.map fun b => (a, b)
  let ix := if c.wfmt = 15 then
      (if c.op = 3 ∨ c.op = 4 ∨ c.op = 8 then [c.sd] else []) ++ (if c.op = 3 ∨ c.op = 4 ∨ c.op = 9 then [c.dd] else [])
    else []
  ⟨lr, p, [], [], (s.colRegion c.tenant).toList, [], [], [], c.dsts, c.srcs, cv, pr, ix⟩

/-- Step 2 of R393. -/
def colGroup (s : State) (c : ColRec) : Chk :=
  refuseIf (!s.on (Reg.COL_GROUP_VALID c.group) || s.rd (Reg.COL_GROUP_TENANT c.group) != c.tenant ||
    c.evtEn && s.rd (Reg.TEN_REGION_OWNER c.evtReg) != c.tenant) (colCode 2)

/-- Step 3 of R393. A tenant without a region has no handle table. -/
def colHandles (s : State) (x : LCtx) : Chk :=
  refuseIf (x.regions.isEmpty && !(x.bound ++ x.named).isEmpty) 6 <|> s.checkHandles x

/-- Members of a group. -/
def gsize (s : State) (g : Nat) : Nat := s.rd (Reg.COL_GROUP_SIZE_M1 g) + 1

/-- The pieces of a PERMUTE's list. -/
def permPieces (s : State) (x : LCtx) (c : ColRec) : List Piece :=
  let ws := (s.colCodes x c.ad).1.map (·.1)
  (chunks 8 ws (ws.length / 8)).map parsePiece

/-- Destination ranges of descriptor `i`. -/
def colPrints (s : State) (x : LCtx) (i : Nat) : List (Nat × Nat) :=
  let d := descOf x.p i
  let b := if d.space = 1 then s.launchBase x 0 (nth x.regions 0) 0 d.handle else 0
  (List.range d.entries).flatMap fun e => (x.prints i e true).map fun a => (b + a.1.toNat, (a.2 + 1 - a.1).toNat)

/-- The bytes of the elements of descriptor `i` as a destination, as ranges: rows and scale rows up to the planned extents, and of a
LAYOUT = 1 array the value slots that a store may write (R395, R399). -/
def colDests (s : State) (x : LCtx) (i : Nat) : List (Nat × Nat) :=
  (List.range (descOf x.p i).entries).flatMap fun e =>
    let v := s.colView x i e
    if v.d.layout = 1 then
      (s.colTiles v).flatMap fun t => (t.1.live.filter fun n => decide (n.slot < t.1.scount)).map fun n =>
        let b := valBits t.1.vfmt * n.slot
        (t.1.addr + valueOff t.1.tfmt t.1.vfmt t.1.scount t.1.masked + b / 8, (b % 8 + valBits t.1.vfmt + 7) / 8)
    else
      let d : Desc := if v.d.plistEn && v.d.vdimEn then { v.d with dims := v.d.dims.modify v.d.vdim fun m => { m with ext := m.plan } }
        else v.d
      let rs := d.bodyRows.map (d.idx · 0)
      rs.map (fun ix => ((rowAddr v ix).toNat, d.rowBytes)) ++
        (if isBlock d.fmt then rs.map (fun ix => ((scaleRowAddr v ix).toNat, cdiv (d.ext 0) 32)) else [])

/-- Step 5 of R393: COL_PARAM on the operation's own terms. -/
def colTerms (s : State) (x : LCtx) (c : ColRec) : Chk :=
  let G := s.gsize c.group
  let d := descOf x.p
  let n := s.colN x
  let has := fun i => decide (i < x.nDesc)
  let fmtOk := fun f => [0, 1, 2, 14].contains f
  let usesK := c.op == 4 || c.op == 5
  let lay := (c.srcs ++ c.dsts).any fun i => (d i).layout == 1
  let ps := s.permPieces x c
  let rcv := ps.filter (·.recv)
  let dest := rcv.map fun p => s.colPrints x p.desc
  let bad :=
    !((c.srcs ++ c.dsts).all has) ||
    c.op == 1 && n c.sd != n c.dd || c.op == 2 && (n c.sd % G != 0 || n c.sd != G * n c.dd) ||
    c.op == 3 && n c.dd != G * n c.sd || c.op == 4 && (d c.sd).ext 0 != (d c.dd).ext 0 ||
    c.op == 5 && (d c.sd).ext 0 != (d c.dd).ext 0 ||
    c.reduces && (!fmtOk (d c.sd).fmt || !fmtOk (d c.dd).fmt || (d c.sd).fmt == 14 && !c.acc) ||
    lay && c.op != 1 && c.op != 7 ||
    (c.op == 3 || c.op == 4 || c.op == 9) && !wireOk c.wfmt (d c.dd).fmt ||
    c.usesW && !fmtValid c.wfmt ||
    (c.op == 3 || c.op == 4 || c.op == 8) && isBlock c.wfmt && (d c.sd).ext 0 % 32 != 0 ||
    usesK && (c.k == 0 || decide (8 < c.k) || c.epm == 0) ||
    usesK && ((d c.ad).fmt != 15 || (d c.ad).ext 0 != 2 * c.k || (d c.xd).fmt != 15 || (d c.xd).ext 0 != c.k ||
      (d c.xd).ext 1 != (d c.ad).ext 1) ||
    c.op == 4 && (!(d c.dd).plistEn || (d c.dd).entries != c.epm || !(d c.dd).vdimEn || (d c.dd).vdim != 1) ||
    (c.op == 8 || c.op == 9) && decide (G ≤ c.peer) ||
    c.op == 7 && c.ndesc == 0 ||
    c.op == 6 && ((d c.ad).fmt != 15 || (d c.ad).ext 0 != 8 || ps.any (fun p => p.rsvd || !has p.desc || decide (G ≤ p.peer)) ||
      decide (colBytes x c.xd < ((rcv.map fun p => colBytes x p.desc)).foldl (· + ·) 0) ||
      (dest.zipIdx.any fun p => dest.zipIdx.any fun q => decide (q.2 < p.2) &&
        p.1.any fun a => q.1.any fun b => overlap a.1 a.2 b.1 b.2))
  refuseIf bad (colCode 1)

/-- Streams drawn by conversions that write through a descriptor (R391, R63): the source format is the partial's, the wire's or
FP32. -/
def colDraws (x : LCtx) (c : ColRec) : List (Nat × Nat) :=
  let src := if c.reduces then (if c.acc then 14 else 0) else if c.op = 5 then 0 else c.wfmt
  (x.idxs 7).flatMap fun i =>
    let e := secRec x.p 7 i
    let f := (descOf x.p i).fmt
    let used := c.dd == i && c.dsts.contains i && f != src && !exactConv src f
    if e.testBit 12 then [(bitsOf e 11 0, if used then bitsOf e 127 64 + cdiv (indexSpan x i) 4 else 0)] else []

/-- Step 6 of R393 (R63, R64). -/
def colStreams (s : State) (x : LCtx) (c : ColRec) : Chk :=
  let ds := declared x
  firstBad (ds.map (·.1) ++ (colDraws x c).map (·.1)) (fun n =>
    refuseIf (s.on (Reg.STREAM_BUSY n) || !s.on (Reg.STREAM_EN n)) 0x2C <|>
    refuseIf (s.rd (Reg.STREAM_OWNER n) != c.tenant) 0x2D) <|>
  firstBad (colDraws x c) (fun q => match ds.find? (fun z => z.1 == q.1) with
    | none => some (Refuse.of 0x2E)
    | some z => refuseIf (decide (z.2 < q.2)) 0x2E)

/-- The checks of R393 in order. A record that names a reserved code in WFMT is refused with DESC_FORMAT (R31), where the descriptors are
checked (DESIGN CHOICE, log 182). -/
def colCheck (s : State) (c : ColRec) : State × Except Refuse LCtx :=
  let y := s.colParam c
  match y.2 with
  | .error e => (y.1, .error e)
  | .ok p =>
    let x := y.1.colCtx c p
    match y.1.colGroup c <|> y.1.colHandles x <|> refuseIf (decide (9 ≤ c.wfmt ∧ c.wfmt ≤ 13)) 0x11 with
    | some e => (y.1, .error e)
    | none =>
      let z := y.1.checkDescs x (x.idxs 0)
      match z.2 with
      | .error e => (z.1, .error e)
      | .ok x2 =>
        match z.1.colTerms x2 c <|> z.1.colStreams x2 c with
        | some e => (z.1, .error e)
        | none => (z.1, .ok x2)

/-! ### Operations in the state -/

/-- The operation in slot `k`. -/
def colAt (s : State) (k : Nat) : Option ColOp := Tbl.get none s.cols k
/-- Slots in use. -/
def colSlots (s : State) : List Nat := (List.range 32).filter fun k => (s.colAt k).isSome
/-- The context of an accepted operation. -/
def opCtx (s : State) (o : ColOp) : LCtx := { s.colCtx (parseCol o.rcd) o.param with plists := o.plists, regions := o.region.toList }

/-- COL_STAT after a change (R389, R391, R417). -/
def colStat (s : State) : State :=
  s.wrs [(Reg.COL_STAT_INFLIGHT, s.colSlots.length), (Reg.COL_STAT_QUEUED, s.colQueue.length),
    (Reg.COL_STAT_HELD, b2n (s.on Reg.COL_MGR_STAT_LOST || s.on Reg.COL_ROUTE_CTL_SWAP))]

/-- The slot of the operation in flight that a (GROUP, OPID) names. -/
def colFind (s : State) (g id : Nat) : Option Nat :=
  firstBelow 32 fun k => match s.colAt k with
    | some o => (parseCol o.rcd).group == g && (parseCol o.rcd).opid == id
    | none => false

/-- An operation in flight replaced. -/
def colPut (s : State) (k : Nat) (o : Option ColOp) : State := { s with cols := Tbl.set none s.cols k o }

/-- Elements and bytes that a member expects (R394): of a reduction, gather or transfer those of the whole tensor sent; of DISPATCH
and COMBINE those of one row; of GNORM one partial; of a PERMUTE none, since its pieces carry their own (log 16). -/
def colExpect (s : State) (x : LCtx) (c : ColRec) : Nat × Nat :=
  let n := match c.op with
    | 1 => s.colN x c.sd | 2 => s.colN x c.sd | 3 => s.colN x c.sd | 8 => s.colN x c.sd | 9 => s.colN x c.dd
    | 4 => (descOf x.p c.sd).ext 0 | 5 => (descOf x.p c.sd).ext 0 | 7 => 1 | _ => 0
  let f := if c.reduces then (if c.acc then 14 else 0) else if c.op = 7 then 14
    else if c.op = 5 then (descOf x.p c.sd).fmt else c.wfmt
  (wireLen f n, n)

/-- The ranks with which the operation exchanges READYs. -/
def colPeers (s : State) (x : LCtx) (c : ColRec) : List Nat :=
  let own := s.rd (Reg.COL_GROUP_RANK c.group)
  let all := (List.range (s.gsize c.group)).filter (· != own)
  match c.op with
  | 8 => [c.peer] | 9 => [c.peer]
  | 6 => ((s.permPieces x c).map (·.peer)).eraseDups.filter (· != own)
  | _ => all

/-- The ranks to which this member sends data: the next of the ring for reductions and GNORM (R394, R396). -/
def colTargets (s : State) (x : LCtx) (c : ColRec) : List Nat :=
  let own := s.rd (Reg.COL_GROUP_RANK c.group)
  let G := s.gsize c.group
  match c.op with
  | 1 => [(own + 1) % G].filter (· != own) | 2 => [(own + 1) % G].filter (· != own) | 7 => [(own + 1) % G].filter (· != own)
  | 9 => []
  | 6 => ((s.permPieces x c).filter fun p => !p.recv && p.peer != own).map (·.peer)
  | _ => s.colPeers x c

/-- The READY that this member sends. -/
def ownReady (s : State) (k : Nat) (o : ColOp) : Ready :=
  let c := parseCol o.rcd
  let e := s.colExpect (s.opCtx o) c
  ⟨c.group, c.opid, s.rd (Reg.COL_GROUP_RANK c.group), c.op, s.rd (Reg.COL_GROUP_GEN c.group), e.1, e.2, k⟩

/-- READYs that have arrived for operation `o`, taken in. -/
def takeReady (s : State) (k : Nat) (o : ColOp) (l : List Ready) : ColOp :=
  let own := s.ownReady k o
  let o1 := { o with readys := o.readys ++ l }
  if l.any (fun r => Ready.clash own r) then o1.settle (4, 0, 0, 0) else o1

/-- An operation put into slot `k`: unless held it sends its READYs, and takes those that wait in the table. -/
def colStart (s : State) (k : Nat) (o : ColOp) : State :=
  let c := parseCol o.rcd
  let o1 := { o with held := s.on Reg.COL_MGR_STAT_LOST || s.on Reg.COL_ROUTE_CTL_SWAP }
  let mine := s.readys.filter fun r => r.group == c.group && r.opid == c.opid
  let s1 := ({ s with readys := s.readys.filter fun r => !(r.group == c.group && r.opid == c.opid) } : State).colPut k
    (some (s.takeReady k o1 mine))
  let msgs := if o1.held then [] else (s.colPeers (s.opCtx o) c).map fun r => ColMsg.ready r (s.ownReady k o)
  ({ s1 with colOut := s1.colOut ++ msgs } : State).colStat

/-- An accepted record (R393): BUSY on group, handles and streams, and a slot or a place in the queue. -/
def colAccept (s : State) (rcd : Nat) (x : LCtx) : State :=
  let c := parseCol rcd
  let ds := declared x
  let o : ColOp := { rcd := rcd, param := x.p, plists := x.plists, region := x.regions.head?,
                     ctrs := ds.map fun d => (d.1, s.rd (Reg.STREAM_KEY d.1), s.rd (Reg.STREAM_CTR d.1)), streams := ds,
                     handles := x.bound,
                     dests := c.dsts.flatMap (s.colDests x),
                     late := if c.op = 6 then (((s.permPieces x c).filter (·.recv)).map (·.desc)).flatMap (s.colDests x) else [],
                     held := false, readys := [], sent := [], res := none }
  let s1 := x.bound.foldl (fun t h => x.regions.foldl (fun t r => t.wr (Reg.SP_HT_BUSY r h) 1) t) s
  let s2 := ds.foldl (fun t d => t.wr (Reg.STREAM_BUSY d.1) 1) s1
  let s3 := s2.wrs [(Reg.COL_GROUP_BUSY c.group, 1), (Reg.COL_SUBMIT_STAT_CODE, 0), (Reg.COL_SUBMIT_STAT_DESC, 0xFF)]
  match firstBelow 32 fun k => (s3.colAt k).isNone with
  | some k => (s3.wr Reg.COL_SUBMIT_STAT_SLOT k).colStart k o
  | none => ({ s3 with colQueue := s3.colQueue ++ [o] } : State).colStat

/-- A refusal reported in COL_SUBMIT_STAT. -/
def colRefuse (s : State) (e : Refuse) : State :=
  s.wrs [(Reg.COL_SUBMIT_STAT_CODE, e.code), (Reg.COL_SUBMIT_STAT_DESC, e.desc)]

/-- The submission of the record at `a` (R391); `t` is the tenant that firmware sets in it, if it does (R434). -/
def colSubmitAs (s : State) (t : Option Nat) (a : Nat) : State :=
  if s.colSlots.length = 32 ∧ 64 ≤ s.colQueue.length then s.colRefuse (Refuse.of (colCode 0))
  else
    let y := s.hbmRead a 128 true
    if y.2.1 ≠ 0 then y.1.colRefuse (Refuse.of (readCode (colCode 1) y.2.1))
    else
      let n := match t with | some t => putBits (ofLe y.2.2) 24 8 t | none => ofLe y.2.2
      let z := y.1.colCheck (parseCol n)
      match z.2 with
      | .error e => z.1.colRefuse e
      | .ok x => z.1.colAccept n x

/-- A submission by a write of COL_SUBMIT_HI (R391). -/
def colSubmit (s : State) (a : Nat) : State := s.colSubmitAs none a

/-! ### Completion -/

/-- The status word (Table 15.3). -/
def colWord (r : Nat × Nat × Nat × Nat) : List Nat :=
  toLe 4 r.1 ++ toLe 4 r.2.1 ++ toLe 8 r.2.2.1 ++ toLe 4 r.2.2.2 ++ List.replicate 12 0

/-- Everything that an operation holds released, its streams advanced (R65, R393). The group stays BUSY while another operation
of it is in flight. -/
def colRelease (s : State) (o : ColOp) : State :=
  let c := parseCol o.rcd
  let s1 := o.streams.foldl (fun t d =>
    (t.wr (Reg.STREAM_CTR d.1) (t.rd (Reg.STREAM_CTR d.1) + d.2)).wr (Reg.STREAM_BUSY d.1) 0) s
  let s2 := o.handles.foldl (fun t h => o.region.toList.foldl (fun t r => t.wr (Reg.SP_HT_BUSY r h) 0) t) s1
  let others := (List.range 32).filterMap s2.colAt ++ s2.colQueue
  if others.any (fun z => (parseCol z.rcd).group == c.group) then s2 else s2.wr (Reg.COL_GROUP_BUSY c.group) 0

/-- The completion of operation `o`, already out of the state (R395): destinations of a faulted or aborted operation left open,
the status word, counts and log, then the event. -/
def colEnd (s : State) (o : ColOp) (k : Nat) (r : Nat × Nat × Nat × Nat) : State :=
  let c := parseCol o.rcd
  let s1 := if r.1 = 0 then s else o.dests.foldl (fun t a => t.openRange a.1 a.2) s
  let s2 := ((s1.deliverBy 64 (at' c.status (colWord r))).1).colRelease o
  let s3 := if r.1 = 0 then s2.inc Reg.COL_OPS_DONE_COUNT 1
    else (s2.inc Reg.COL_OPS_FAULT_COUNT 1).logPush 4
      (fun n => [Reg.COL_LOG_CODE n, Reg.COL_LOG_GROUP n, Reg.COL_LOG_SLOT n, Reg.COL_LOG_VALID n]) [r.1, c.group, k, 1]
  if c.evtEn then
    let f := Reg.SQ_EVT_VALUE c.evtReg c.evtCtr
    s3.wr f (s3.rd f + 1)
  else s3

/-- The oldest queued operation takes a free slot. -/
def colNext (s : State) : State :=
  match s.colQueue, firstBelow 32 fun k => (s.colAt k).isNone with
  | o :: l, some k => ({ s with colQueue := l } : State).colStart k o
  | _, _ => s.colStat

/-- COL_OP_COMPLETE (R395): an operation whose status is decided and whose writes are complete. One decided while queued
completes from the queue. -/
def colComplete (s : State) (g id : Nat) : State :=
  if s.heldw.any fun w => w.src == 64 then s
  else
    match s.colFind g id with
    | some k =>
      match s.colAt k with
      | some o => match o.res with
        | some r => ((s.colPut k none).colEnd o k r).colNext
        | none => s
      | none => s
    | none =>
      match s.colQueue.find? fun o => (parseCol o.rcd).group == g && (parseCol o.rcd).opid == id && o.res.isSome with
      | some o => (({ s with colQueue := s.colQueue.erase o } : State).colEnd o 0 (o.res.getD (1, 0, 0, 0))).colStat
      | none => s

/-- A status decided for the operation (GROUP, OPID), in flight or queued. -/
def colDecide (s : State) (g id : Nat) (r : Nat × Nat × Nat × Nat) : State :=
  match s.colFind g id with
  | some k => s.colPut k ((s.colAt k).map fun o => o.settle r)
  | none => { s with colQueue := s.colQueue.map fun o =>
      if (parseCol o.rcd).group == g && (parseCol o.rcd).opid == id then o.settle r else o }

/-- Whether (GROUP, OPID) names an operation not yet decided. -/
def colOpen (s : State) (g id : Nat) : Option ColOp :=
  ((List.range 32).filterMap s.colAt ++ s.colQueue).find? fun o =>
    (parseCol o.rcd).group == g && (parseCol o.rcd).opid == id && o.res.isNone

/-- A report to the manager (R412). -/
def colReport (s : State) (g id code : Nat) : State := { s with colOut := s.colOut ++ [.report g id code] }

/-- COL_TIMEOUT (R413, R417). -/
def colTimeout (s : State) (g id : Nat) : State :=
  match s.colOpen g id with
  | none => s
  | some o =>
    if o.held && s.on Reg.COL_MGR_STAT_LOST then s.colDecide g id (9, 0, 0, 0)
    else (s.colDecide g id (3, 0, 0, 0)).colReport g id 3

/-- COL_LINK_FAULT (R412): the engine takes a flit that port `p` reported LINK_DOWN and completes its operation. -/
def colLinkFault (s : State) (p g id : Nat) : State :=
  let x := s.link p
  match x.lost.find? fun f => decide (bitsOf f.hdr 111 110 < 2) && bitsOf f.hdr 108 101 == g with
  | none => s
  | some f =>
    let s1 := s.setLink p { x with lost := x.lost.erase f }
    if (s1.colOpen g id).isSome then (s1.colDecide g id (2, 0, 0, 0)).colReport g id 2 else s1

/-- MANAGER_ABORT (R395, R412). -/
def colAbort (s : State) (g id : Nat) : State := s.colDecide g id (1, 0, 0, 0)

/-! ### READY (R394) -/

/-- READY_FLIT: a READY arrives and is matched, held in the table, or answered NOT_READY. -/
def readyFlit (s : State) (x : Ready) : State :=
  match s.colFind x.group x.opid with
  | some k => s.colPut k ((s.colAt k).map fun o => s.takeReady k o [x])
  | none => if s.readys.length < 1024 then { s with readys := s.readys ++ [x] }
    else { s with colOut := s.colOut ++ [.notReady x.rank x.group x.opid] }

/-- READY_REPEAT: 10 µs after a NOT_READY. -/
def readyRepeat (s : State) (g id rank : Nat) : State :=
  match s.colFind g id with
  | some k => match s.colAt k with
    | some o => if o.held then s else { s with colOut := s.colOut ++ [.ready rank (s.ownReady k o)] }
    | none => s
  | none => s

/-- HELD_OP_START (R389, R417). -/
def heldOpStart (s : State) (g id : Nat) : State :=
  if s.on Reg.COL_MGR_STAT_LOST || s.on Reg.COL_ROUTE_CTL_SWAP then s
  else
    match s.colFind g id with
    | some k => match s.colAt k with
      | some o => if o.held && o.res.isNone then s.colStart k { o with held := false } else s
      | none => s
    | none => s

/-! ### Groups, routes, manager -/

/-- ROUTE_SWAP (R389): with SWAP set and no started operation in flight the tables exchange. -/
def routeSwap (s : State) : State :=
  let running := s.colSlots.any fun k => match s.colAt k with | some o => !o.held | none => false
  if !s.on Reg.COL_ROUTE_CTL_SWAP || running then s
  else
    ((List.range 512).foldl (fun t w => t.wrs [(Reg.COL_ROUTE_ACT w, s.rd (Reg.COL_ROUTE_SHD w)),
      (Reg.COL_ROUTE_SHD w, s.rd (Reg.COL_ROUTE_ACT w))]) (s.wr Reg.COL_ROUTE_CTL_SWAP 0)).colStat

/-- A request for a swap of the route tables. -/
def routeSwapRequest (s : State) : State := (s.wr Reg.COL_ROUTE_CTL_SWAP 1).colStat

/-- GROUP_WRITE (R388): a write of a group entry. -/
def groupWrite (s : State) (g valid tenant size rank gen : Nat) : State :=
  if s.on (Reg.COL_GROUP_BUSY g) || valid == 1 && decide (size < rank) then s.wr Reg.COL_STAT_GROUP_BUSY 1
  else s.wrs [(Reg.COL_GROUP_VALID g, valid), (Reg.COL_GROUP_TENANT g, tenant), (Reg.COL_GROUP_SIZE_M1 g, size),
    (Reg.COL_GROUP_RANK g, rank), (Reg.COL_GROUP_GEN g, gen)]

/-- GROUP_WRITE (R388): a write of an entry of a member table. -/
def memberWrite (s : State) (g r x y z : Nat) : State :=
  if s.on (Reg.COL_GROUP_BUSY g) then s.wr Reg.COL_STAT_GROUP_BUSY 1
  else s.wrs [(Reg.COL_MEMBER_X g r, x), (Reg.COL_MEMBER_Y g r, y), (Reg.COL_MEMBER_Z g r, z)]

/-- GROUP_WRITE: of a member (rank, X, Y, Z) where one is given, else of the entry. -/
def groupCmd (s : State) (g : Nat) (m : Option (Nat × Nat × Nat × Nat)) (valid tenant size rank gen : Nat) : State :=
  match m with
  | some m => s.memberWrite g m.1 m.2.1 m.2.2.1 m.2.2.2
  | none => s.groupWrite g valid tenant size rank gen

/-- A heartbeat seen. -/
def heartbeatSeen (s : State) : State := (s.wrs [(Reg.COL_MGR_STAT_LOST, 0), (Reg.COL_MGR_STAT_AGE, 0)]).colStat

/-- HEARTBEAT_SEND (R416): the manager's own module is one of those that see it. -/
def heartbeatSend (s : State) : State :=
  if s.rd Reg.COL_ROLE_ROLE = 1 then
    ({ s with colOut := s.colOut ++ [.heartbeat (s.rd Reg.COL_MGR_EPOCH_EPOCH)] } : State).heartbeatSeen
  else s

/-- HEARTBEAT_RECEIVE (R415, R416): one of a lower epoch is not applied. -/
def heartbeatReceive (s : State) (epoch : Nat) : State :=
  let own := s.rd Reg.COL_MGR_EPOCH_EPOCH
  if epoch < own then s
  else
    let s1 := if own < epoch then
        (let t := s.wr Reg.COL_MGR_EPOCH_EPOCH epoch; if t.rd Reg.COL_ROLE_ROLE = 1 then t.wr Reg.COL_ROLE_ROLE 0 else t)
      else s
    s1.heartbeatSeen

/-- HEARTBEAT_TIMEOUT (R416). -/
def heartbeatTimeout (s : State) : State :=
  let age := min (s.rd Reg.COL_MGR_TIMEOUT_US) (2 ^ 24 - 1)
  let s1 := (s.wrs [(Reg.COL_MGR_STAT_LOST, 1), (Reg.COL_MGR_STAT_AGE, max age (s.rd Reg.COL_MGR_STAT_AGE))]).colStat
  if s.rd Reg.COL_ROLE_ROLE = 2 then
    let e := s.rd Reg.COL_MGR_EPOCH_EPOCH + 1
    let s2 := s1.wrs [(Reg.COL_ROLE_ROLE, 1), (Reg.COL_MGR_EPOCH_EPOCH, e)]
    { s2 with colOut := s2.colOut ++ [.heartbeat (e % 2 ^ 32)] }
  else s1

/-- A tenant's bit in a table of 256 bits written. -/
def setTenantBit (s : State) (f : Nat → Fld) (t v : Nat) : State := s.wr (f (t / 32)) (putBits (s.rd (f (t / 32))) (t % 32) 1 v)

/-- Whether a launch or an operation of tenant `t` is still at work. -/
def jobAtWork (s : State) (t : Nat) : Bool :=
  s.launches.any (fun l => l.2.tenant == t) ||
    ((List.range 32).filterMap s.colAt ++ s.colQueue).any fun o => (parseCol o.rcd).tenant == t

/-- XORID_SWITCH (R419): HOLD set, and the acknowledgement once the job's work is complete. -/
def xoridSwitch (s : State) (t : Nat) : State :=
  let s1 := s.setTenantBit Reg.COL_XORID_HOLD t 1
  if s1.jobAtWork t then s1 else { s1 with colOut := s1.colOut ++ [.switched t] }

/-- XORID_GO (R419). -/
def xoridGo (s : State) (t gen : Nat) : State := (s.setTenantBit Reg.COL_XORID_GEN t gen).setTenantBit Reg.COL_XORID_HOLD t 0

/-- COL_CNT_CLR (R420), the engine's event counts among the rest. -/
def colCntClear (s : State) : State := s.colClear.zeros ((List.range 6).map In.colEv)

end State
end Sys2Proof.Machine
end

