-- ==== Sys2Proof/Machine/ColData.lean ====
section
/-!
DEFINITION. What collective operations compute (spec/15): chain reduction (R396 to R399), gathering with shard tags (R400 to
R403), expert dispatch and combine (R404 to R407), point to point and permute (R408, R409) and the global norm (R411). What
the peers send comes with the command; what this member sends is kept in `ColOp.sent`.
-/

namespace Sys2Proof.Machine

/-- What an operation wrote and how it ended. -/
abbrev ColR := State × (Nat × Nat × Nat × Nat) × List Nat

/-- A status without counts. -/
def colOnly (code : Nat) : Nat × Nat × Nat × Nat := (code, 0, 0, 0)

/-- Wire bytes of codes with scales: elements before scales (R37, R401, R579). -/
def wireBytes (f : Nat) (l : List (Nat × Nat)) : List Nat :=
  if isBlock f then
    let bs := chunks 32 l (cdiv l.length 32)
    (bs.flatMap fun b => toLe (blockBytes f) ((b.zipIdx.map fun q => q.1.1 * 2 ^ (elemBits f * q.2)).foldl (· + ·) 0)) ++
      bs.map fun b => (b.headD (0, 0)).2
  else l.flatMap fun q => toLe (if f = 14 then 5 else elemBytes f) q.1

/-- Elements in rows of `w` converted from format `src` to the wire (R400): to nearest even, block scales by R40. -/
def toWire (src dst w : Nat) (l : List (Nat × Nat)) : List (Nat × Nat) × List Ev :=
  if src = dst then (l, [])
  else if isBlock dst then
    let bs := (chunks 32 l (cdiv l.length 32)).map fun b =>
      let cv := convBlock dst (b.map fun q => (decodeFmt src q.1 q.2, .rne))
      (cv.2.1.map fun c => (c, cv.1), cv.2.2)
    if w % 32 = 0 then (bs.flatMap (·.1), bs.flatMap (·.2)) else (l, [])
  else
    let es := l.map fun q => convElem src dst .rne (decodeFmt src q.1 q.2)
    (es.map fun c => (c.1, 127), es.flatMap (·.2))

/-- The number of an event kind among the engine's counts. -/
def Ev.num : Ev → Nat
  | .sat => 0 | .infClamp => 1 | .nanBlock => 2 | .uflow => 3 | .accFtz => 4 | .accOvf => 5

/-- The destinations that a fault or an abort from now on leaves open: a PERMUTE's own only once it has copied into them (R395,
R409). -/
def ColOp.landed (o : ColOp) (op code : Nat) : List (Nat × Nat) :=
  if op = 6 ∧ code = 0 then o.dests ++ o.late else o.dests

namespace State

/-- The rounding of stores through descriptor `i` of an operation (R277, R391). -/
def colRnd (o : ColOp) (i : Nat) : Option (Nat × Nat × Nat) :=
  let n := secRec o.param 7 i
  if hasRec o.param 7 i && n.testBit 12 then
    match o.ctrs.find? (fun p => p.1 == bitsOf n 11 0) with
    | some p => some (p.2.1, p.2.2, bitsOf n 127 64)
    | none => none
  else none

/-- Events of the engine (R50). -/
def colEvents (s : State) (evs : List Ev) : State := evs.foldl (fun t e => t.inc (In.colEv e.num) 1) s

/-- Body positions of descriptor `i` in order: view, entry, row and column. -/
def colRows (s : State) (x : LCtx) (i : Nat) : List (View × Nat × Nat) :=
  (List.range (descOf x.p i).entries).flatMap fun e =>
    let v := s.colView x i e
    if v.d.isZeroExt then [] else v.d.bodyRows.map fun r => (v, e, r)

/-- The element index of R62 of each body position of descriptor `i`. -/
def colIndex (s : State) (x : LCtx) (i : Nat) : List Nat :=
  (s.colRows x i).flatMap fun q => (List.range (q.1.d.ext 0)).map fun j => elemIndex q.1.d q.2.1 q.2.2 j

/-- Codes of the destination's own format written from column `c0` of a row. -/
def codeRow (v : View) (r c0 : Nat) (codes : List (Nat × Nat)) : Moved :=
  if v.d.smode = 1 then ⟨[], 0, [], accumRow v r c0 (codes.map some), v.d.fmt, []⟩
  else ⟨[], 0, storeCodes v r c0 (codes.map some), [], v.d.fmt, []⟩

/-- Values converted under the destination's rounding, from column `c0` of a row. -/
def valRow (v : View) (e r c0 src : Nat) (str : Option (Nat × Nat × Nat)) (vals : List FVal) : Moved :=
  let st := storeRow v r c0 src (vals.zipIdx.map fun q => some (q.1, rndOf str (elemIndex v.d e r (c0 + q.2))))
  if v.d.smode = 1 then ⟨[], 0, [], accumRow v r c0 st.2.1, v.d.fmt, st.2.2⟩ else ⟨[], 0, st.1, [], v.d.fmt, st.2.2⟩

/-- The blocks of rows of the given lengths, as (number of the first element, elements). -/
def rowBlocks (ws : List Nat) : List (Nat × Nat) :=
  (ws.foldl (fun (acc : List (Nat × Nat) × Nat) w =>
    (acc.1 ++ (List.range (cdiv w 32)).map fun b => (acc.2 + 32 * b, min 32 (w - 32 * b)), acc.2 + w)) ([], 0)).1

/-- Codes of format `src`, the first of them element `off` of the source, written as one row: unchanged where the formats agree, of a
block format each block that holds the elements of one of the source's blocks `bs` (R46); converted otherwise. -/
def wireRow (v : View) (e r src : Nat) (str : Option (Nat × Nat × Nat)) (bs : List (Nat × Nat)) (off : Nat) (l : List (Nat × Nat)) :
    Moved :=
  let conv := fun (c0 : Nat) (q : List (Nat × Nat)) => valRow v e r c0 src str (q.map fun x => decodeFmt src x.1 x.2)
  if src ≠ v.d.fmt then conv 0 l
  else if !isBlock src then codeRow v r 0 l
  else
    (List.range (cdiv l.length 32)).foldl (fun m b =>
      let part := (l.drop (32 * b)).take 32
      m.app (if bs.contains (off + 32 * b, part.length) then codeRow v r (32 * b) part else conv (32 * b) part)) Moved.none

/-- A whole destination filled with codes of format `src` in order, from a source with the blocks `bs`. -/
def colFill (s : State) (x : LCtx) (o : ColOp) (i src : Nat) (bs : List (Nat × Nat)) (l : List (Nat × Nat)) : Moved :=
  let str := colRnd o i
  ((s.colRows x i).foldl (fun (acc : Moved × Nat × List (Nat × Nat)) q =>
    let w := q.1.d.ext 0
    (acc.1.app (wireRow q.1 q.2.1 q.2.2 src str bs acc.2.1 (acc.2.2.take w)), acc.2.1 + w, acc.2.2.drop w)) (Moved.none, 0, l)).1

/-- A whole destination filled with codes of its own format; values of a LAYOUT = 1 array only (R186, R399). -/
def colPlace (s : State) (x : LCtx) (o : ColOp) (i : Nat) (l : List Nat) : Moved :=
  let d := descOf x.p i
  if d.layout = 0 then s.colFill x o i d.fmt [] (l.map fun c => (c, 127))
  else
    let ts := (List.range d.entries).flatMap fun e => let v := s.colView x i e; if v.d.isZeroExt then [] else s.colTiles v
    let put := ts.foldl (fun (acc : List (Nat × Nat) × List Nat) t =>
      (acc.1 ++ (t.1.live.filter fun e => decide (e.slot < t.1.scount)).flatMap (fun e => slotWrite s t.1 e.slot (nth acc.2 e.slot)),
        acc.2.drop t.1.scount)) (([] : List (Nat × Nat)), l)
    ⟨[], 0, put.1, [], d.fmt, []⟩

/-- What an operation writes, with its events counted: true when a write fails (R413). -/
def colApply (s : State) (m : Moved) : State × Bool :=
  let s1 := s.colEvents m.evs
  if m.accs.isEmpty then (let w := s1.deliverBy 64 m.bytes; (w.1, w.2.1 != 0 || w.2.2))
  else
    let w := s1.checkPieces (m.accs.map fun q => (q.1, 0))
    (w.1.accums m.fmt (keepGood w.2 m.accs), !w.2.isEmpty)

/-! ### Reductions (R396 to R399) -/

/-- The chunk of every element: of LAYOUT = 0 by element, of LAYOUT = 1 by whole tiles with the SCOUNTs in `tags`. -/
def chunkOf (G n : Nat) (tags : List (Nat × Nat)) : List Nat :=
  if tags.isEmpty then (List.range n).map fun i => i / max 1 (cdiv n G)
  else tags.zipIdx.flatMap fun t => List.replicate t.1.1 (t.2 / max 1 (cdiv tags.length G))

/-- The place of rank `r` in the chain of chunk `c` (R396). -/
def chainPos (G : Nat) (strict : Bool) (r c : Nat) : Nat := if strict then r else (r + G - 1 - c % G) % G

/-- A contribution widened exactly into the partial format (R397). -/
def widen (acc : Bool) (fmt : Nat) (c : Nat × Nat) : Nat :=
  if fmt = 14 then c.1 else if acc then (roundAcc (decodeFmt fmt c.1 c.2)).1 else (toF32 (decodeFmt fmt c.1 c.2)).1

/-- `partial + contribution` (R397). -/
def partSum (acc : Bool) (a b : Nat) : Nat × List Ev :=
  if acc then accSum (decodeAcc a) (decodeAcc b) else toF32 ((f32 a).add (f32 b))

/-- CHAIN_REDUCE and REDUCE_SCATTER at this rank: `parts` the partials from the rank before in each element's chain, `res` the
converted bits that come round the ring, `tags` the SCOUNT and MASK_VER that come with the tiles (R399). None where the data
is not of the operation's size. -/
def colReduce (s : State) (o : ColOp) (x : LCtx) (c : ColRec) (parts res : List Nat) (tags : List (Nat × Nat)) : Option ColR :=
  let G := s.gsize c.group
  let r := s.rd (Reg.COL_GROUP_RANK c.group)
  let own := s.colTags x c.sd
  let y := s.colRead x c.sd
  let n := y.2.2.length
  if parts.length ≠ n ∨ res.length ≠ n ∨ tags.length ≠ own.length then none
  else if y.2.1 then some (y.1, colOnly 10, [])
  else
    if G ≠ 1 ∧ own ≠ tags then some (y.1, colOnly 7, [])
    else
      let pf := if c.acc then 14 else 0
      let df := (descOf x.p c.dd).fmt
      let str := colRnd o c.dd
      let idx := if (descOf x.p c.dd).layout = 1 then List.range n else y.1.colIndex x c.dd
      let each := ((y.2.2.zip (chunkOf G n own)).zip (parts.zip res)).zipIdx.map fun q =>
        let pos := chainPos G c.strict r q.1.1.2
        let w := widen c.acc (descOf x.p c.sd).fmt q.1.1.1
        let p := if pos = 0 then (w, []) else partSum c.acc q.1.2.1 w
        let j := if c.op = 2 then q.2 % max 1 (n / G) else q.2
        let fin := if pos + 1 = G then
            (if pf = df then (p.1, []) else convElem pf df (rndOf str (nth idx j)) (decodeFmt pf p.1 127))
          else (q.1.2.2, [])
        (q.1.1.2, pos, p.1, fin.1, p.2 ++ fin.2)
      let out := if c.op = 1 then each.map (·.2.2.2.1) else (each.filter fun e => e.1 == r).map (·.2.2.2.1)
      let sent := (each.filter fun e => e.2.1 + 1 != G).map (·.2.2.1) ++
        (each.filter fun e => c.op == 1 || e.2.1 + 1 == G && e.1 != r).map (·.2.2.2.1)
      let s1 := y.1.colEvents (each.flatMap (·.2.2.2.2))
      let z := s1.colApply (s1.colPlace x o c.dd out)
      some (z.1, colOnly (if z.2 then 10 else 0), sent)
/-! ### Gathering and transfers (R400 to R403, R408) -/

/-- GEN of shard `k` in the version table (R401). -/
def shardGen (s : State) (c : ColRec) (k : Nat) : State × Bool × Nat :=
  let y := s.hbmRead (c.tagTbl + 8 * k) 4 true
  (y.1, y.2.1 != 0, ofLe y.2.2)

/-- The tags recorded once the shards are written (R402): true when the write fails. A faulted operation leaves them (R395). -/
def recordTags (s : State) (c : ColRec) (tags : List Nat) : State × Bool :=
  if c.tagMode = 1 then
    let w := s.hbmWriteBy 64 c.tagRec (tags.flatMap (toLe 8)) true
    (w.1, w.2 != 0)
  else (s, false)

/-- The delivered tags against TAG_REC (R402): the state, a memory fault, and how many differ. -/
def shardTags (s : State) (c : ColRec) (tags : List Nat) : State × Bool × Nat :=
  if c.tagMode = 2 then
    let y := s.hbmRead c.tagRec (8 * tags.length) true
    (y.1, y.2.1 != 0, ((tags.zip ((chunks 8 y.2.2 tags.length).map ofLe)).filter fun q => q.1 != q.2).length)
  else (s, false, 0)

/-- ALL_GATHER: `shards` the wire elements of every rank and `tags` the delivered tags; the member's own entries come from its
own memory, through both conversions. -/
def colGather (s : State) (o : ColOp) (x : LCtx) (c : ColRec) (shards : List (List (Nat × Nat))) (tags : List Nat) : Option ColR :=
  let G := s.gsize c.group
  let r := s.rd (Reg.COL_GROUP_RANK c.group)
  let d := descOf x.p c.sd
  let y := s.colRead x c.sd
  let n := y.2.2.length
  if shards.length ≠ G ∨ tags.length ≠ G ∨ shards.any (fun l => l.length != n) then none
  else if y.2.1 then some (y.1, colOnly 10, [])
  else
    let wire := toWire d.fmt c.wfmt (d.ext 0) y.2.2
    let g := if c.tagMode = 0 then (y.1, false, 0) else y.1.shardGen c (c.shard + r)
    let tag := g.2.2 + 2 ^ 32 * crc32c (wireBytes c.wfmt wire.1)
    let t := (g.1.colEvents wire.2).shardTags c (tags.set r tag)
    if g.2.1 || t.2.1 then some (t.1, colOnly 10, [])
    else if t.2.2 ≠ 0 ∧ !c.pass then some (t.1, (5, t.2.2, 0, 0), [])
    else
      let s1 := t.1.inc Reg.COL_SHARD_CNT_COUNT t.2.2
      let z := s1.colApply (s1.colFill x o c.dd c.wfmt (rowBlocks [G * n]) ((shards.set r wire.1).flatten))
      let e := if z.2 then (z.1, true) else z.1.recordTags c (tags.set r tag)
      some (e.1, if e.2 then colOnly 10 else (0, t.2.2, 0, 0), wire.1.map (·.1))

/-- SEND (R408). -/
def colSend (s : State) (x : LCtx) (c : ColRec) : ColR :=
  let d := descOf x.p c.sd
  let y := s.colRead x c.sd
  let wire := toWire d.fmt c.wfmt (d.ext 0) y.2.2
  (y.1.colEvents wire.2, colOnly (if y.2.1 then 10 else 0), wire.1.map (·.1))

/-- RECV (R408): the wire elements that arrive. -/
def colRecv (s : State) (o : ColOp) (x : LCtx) (c : ColRec) (l : List (Nat × Nat)) : Option ColR :=
  if l.length ≠ x.colCount c.dd then none
  else
    let z := s.colApply (s.colFill x o c.dd c.wfmt (rowBlocks [l.length]) l)
    some (z.1, colOnly (if z.2 then 10 else 0), [])

/-! ### Dispatch and combine (R404 to R407) -/

/-- The routes of a token list as experts, none for no route (R404), with how many name no expert. -/
def routesOf (G epm : Nat) (codes : List Nat) : List (Option Nat) × Nat :=
  let es := (List.range (codes.length / 2)).map fun i => nth codes (2 * i) % 2 ^ 16
  (es.map fun e => if e < G * epm then some e else none, (es.filter fun e => e != 0xFFFF && decide (G * epm ≤ e)).length)

/-- DISPATCH: `counts` the routes to every expert of every rank, `plans` the capacity PLAN[1] of every rank's experts, and `rows`
the wire rows that arrive for this member's experts, as (entry, position, elements). -/
def colDispatch (s : State) (o : ColOp) (x : LCtx) (c : ColRec) (counts : List (List Nat)) (plans : List Nat)
    (rows : List (Nat × Nat × List (Nat × Nat))) : Option ColR :=
  let G := s.gsize c.group
  let r := s.rd (Reg.COL_GROUP_RANK c.group)
  let sd := descOf x.p c.sd
  let dd := descOf x.p c.dd
  let ya := s.colRead x c.ad
  let ys := ya.1.colRead x c.sd
  let w := sd.ext 0
  if counts.length ≠ G ∨ plans.length ≠ G then none
  else if ya.2.1 || ys.2.1 then some (ys.1, colOnly 10, [])
  else
    let rt := routesOf G c.epm (ya.2.2.map (·.1))
    let cap := fun e => if e / c.epm = r then (dd.dim 1).plan else nth plans (e / c.epm)
    let ownCnt := fun e => (rt.1.filter (· == some e)).length
    let cnt := fun q e => if q = r then ownCnt e else nth (counts.getD q []) e
    let total := fun e => ((List.range G).map fun q => cnt q e).foldl (· + ·) 0
    let before := fun e => ((List.range r).map fun q => cnt q e).foldl (· + ·) 0
    let poss := (rt.1.foldl (fun (acc : List (Option (Nat × Nat)) × Tbl Nat) e => match e with
      | none => (acc.1 ++ [none], acc.2)
      | some e => (acc.1 ++ [some (e, before e + Tbl.get 0 acc.2 e)], Tbl.set 0 acc.2 e (Tbl.get 0 acc.2 e + 1)))
      (([] : List (Option (Nat × Nat))), [])).1
    let beyond := fun q => match q with | some (p : Nat × Nat) => decide (cap p.1 ≤ p.2) | none => false
    let s1 := ys.1.inc Reg.COL_ROUTE_BAD_COUNT rt.2
    if c.dropFlt && (List.range (G * c.epm)).any fun e => decide (cap e < total e) then some (s1, colOnly 6, [])
    else
      let kept := poss.map fun q => if beyond q then none else q
      let drops := (poss.filter beyond).length
      let s2 := s1.inc Reg.COL_TOKEN_DROP_COUNT drops
      let wire := toWire sd.fmt c.wfmt w ys.2.2
      let tok := fun t => (wire.1.drop (w * t)).take w
      let mine := kept.zipIdx.filterMap fun q => match q.1 with
        | some (e, p) => if e / c.epm = r then some (e % c.epm, p, tok (q.2 / c.k)) else none
        | none => none
      let count := fun e => min (total (r * c.epm + e)) (cap (r * c.epm + e))
      let came := mine ++ rows.filter fun q => decide (q.1 < c.epm ∧ q.2.1 < count q.1)
      let all := (List.range c.epm).flatMap fun e => (List.range (count e)).flatMap fun p =>
        came.filter fun q => q.1 == e && q.2.1 == p
      let str := colRnd o c.dd
      let m := all.foldl (fun (acc : Moved) q =>
        let v := s2.colView x c.dd q.1
        let v' : View := { v with d := { v.d with dims := v.d.dims.modify 1 fun z => { z with ext := z.plan } } }
        acc.app (wireRow v' q.1 q.2.1 c.wfmt str (rowBlocks [w]) 0 q.2.2)) Moved.none
      let vext := (List.range c.epm).flatMap fun e => at' (dd.plistAddr + 32 * e + 16) (toLe 4 (count e))
      let z1 := (s2.colEvents wire.2).colApply m
      let z2 := z1.1.colApply (z1.1.colPlace x o c.xd (kept.map fun q => match q with | some p => p.2 | none => 0xFFFFFFFF))
      let z3 := if z1.2 || z2.2 then (z2.1, 1, false) else z2.1.deliverBy 64 vext
      let bad := z3.2.1 != 0
      let sent := kept.zipIdx.flatMap fun q => match q.1 with
        | some (e, _) => if e / c.epm = r then [] else (tok (q.2 / c.k)).map (·.1)
        | none => []
      some (z3.1, if bad then colOnly 10 else (0, drops, 0, 0), sent)

/-- One fused multiply-add in FP32 (R407). -/
def fma32 (g y acc : Nat) (fmt sc : Nat) : Nat := (toF32 (((f32 g).mul (decodeFmt fmt y sc)).add (f32 acc))).1

/-- COMBINE: `rows` the rows returned for this member's routes, as (token·K + route, elements of SDESC's format). -/
def colCombine (s : State) (o : ColOp) (x : LCtx) (c : ColRec) (rows : List (Nat × List (Nat × Nat))) : Option ColR :=
  let G := s.gsize c.group
  let r := s.rd (Reg.COL_GROUP_RANK c.group)
  let sd := descOf x.p c.sd
  let w := (descOf x.p c.dd).ext 0
  let ya := s.colRead x c.ad
  let yx := ya.1.colRead x c.xd
  let ys := yx.1.colRead x c.sd
  let codes := ya.2.2.map (·.1)
  let rt := (routesOf G c.epm codes).1
  let poss := yx.2.2.map (·.1)
  let live := fun i => match rt.getD i none with | some e => if nth poss i = 0xFFFFFFFF then none else some e | none => none
  let start := fun e => ((List.range e).map fun j => (x.entryDesc c.sd j).count).foldl (· + ·) 0
  let row : Nat → Option (List (Nat × Nat)) := fun i => match live i with
    | none => none
    | some e =>
      if e / c.epm = r then some ((ys.2.2.drop (start (e % c.epm) + sd.ext 0 * nth poss i)).take w)
      else (rows.find? fun (q : Nat × List (Nat × Nat)) => q.1 == i).map (·.2)
  let T := rt.length / max 1 c.k
  if (List.range rt.length).any fun i => (live i).isSome && ((row i).map List.length) != some w then none
  else if ya.2.1 || yx.2.1 || ys.2.1 then some (ys.1, colOnly 10, [])
  else
    let out := (List.range T).flatMap fun t => (List.range w).map fun j =>
      (List.range c.k).foldl (fun acc i =>
        match row (c.k * t + i) with
        | some l => let q := l.getD j (0, 127); fma32 (nth codes (2 * (c.k * t + i) + 1)) q.1 acc sd.fmt q.2
        | none => acc) 0
    let z := ys.1.colApply (ys.1.colFill x o c.dd 0 [] (out.map fun v => (v, 127)))
    some (z.1, colOnly (if z.2 then 10 else 0), [])

/-! ### Permute (R409) -/

/-- The bytes of descriptor `i`'s body in the order of its elements, the scales of an entry after its elements. -/
def colArea (s : State) (x : LCtx) (i : Nat) : List Nat :=
  (List.range (descOf x.p i).entries).flatMap fun e =>
    let v := s.colView x i e
    let rs := v.d.bodyRows.map (v.d.idx · 0)
    if v.d.isZeroExt then []
    else (rs.flatMap fun ix => (List.range v.d.rowBytes).map fun k => (rowAddr v ix).toNat + k) ++
      (if isBlock v.d.fmt then rs.flatMap fun ix => (List.range (cdiv (v.d.ext 0) 32)).map fun k => (scaleRowAddr v ix).toNat + k
        else [])

/-- PERMUTE: `pieces` what the peers send, as (PIECE, peer, FMT, rows of elements). The receives land in staging in list order, then the
staging area is copied to the destinations in list order. -/
def colPermute (s : State) (o : ColOp) (x : LCtx) (c : ColRec) (pieces : List (Nat × Nat × Nat × List (List (Nat × Nat)))) : Option ColR :=
  let r := s.rd (Reg.COL_GROUP_RANK c.group)
  let ps := s.permPieces x c
  let sends := ps.filter fun p => !p.recv
  let rcv := ps.filter (·.recv)
  let fmt := fun (p : Piece) => (descOf x.p p.desc).fmt
  let reads := sends.foldl (fun (acc : State × Bool × List (Piece × List (Nat × Nat))) p =>
    let y := acc.1.colRead x p.desc
    (y.1, acc.2.1 || y.2.1, acc.2.2 ++ [(p, y.2.2)])) (s, false, ([] : List (Piece × List (Nat × Nat))))
  let src : Piece → Option (Nat × List (Nat × Nat) × List Nat) := fun p =>
    if p.peer = r then (reads.2.2.find? fun (q : Piece × List (Nat × Nat)) => q.1.piece == p.piece && q.1.peer == r).map fun q =>
      (fmt q.1, q.2, (s.colRows x q.1.desc).map fun v => v.1.d.ext 0)
    else (pieces.find? fun (q : Nat × Nat × Nat × List (List (Nat × Nat))) => q.1 == p.piece && q.2.1 == p.peer).map fun q =>
      (q.2.2.1, q.2.2.2.flatten, q.2.2.2.map List.length)
  if rcv.any fun p => (src p).isNone then none
  else if reads.2.1 then some (reads.1, colOnly 10, [])
  else if rcv.any fun p => match src p with
      | some q => q.1 != fmt p || q.2.1.length != x.colCount p.desc
      | none => true then some (reads.1, colOnly 8, [])
  else
    let got := rcv.map fun p => (p, ((src p).getD (0, [], [])).2)
    let stage := got.flatMap fun q => wireBytes (fmt q.1) q.2.1
    let s1 := reads.1.deliverBy 64 ((s.colArea x c.xd).zip stage)
    if s1.2.1 ≠ 0 ∨ s1.2.2 then some (s1.1, colOnly 10, [])
    else
      let z := got.foldl (fun (acc : State × Bool) q =>
        let y := acc.1.colApply (acc.1.colFill x o q.1.desc (fmt q.1) (rowBlocks q.2.2) q.2.1)
        (y.1, acc.2 || y.2)) (s1.1, false)
      let z' := if z.2 then o.late.foldl (fun t a => t.openRange a.1 a.2) z.1 else z.1
      some (z', colOnly (if z.2 then 10 else 0), reads.2.2.flatMap fun (q : Piece × List (Nat × Nat)) => if q.1.peer = r then [] else q.2.map (·.1))

/-! ### Global norm (R411) -/

/-- The chain of squares of one stage. -/
def sqStage (l : List FVal) : Nat × List Ev :=
  l.foldl (fun acc v =>
    let q := roundAcc (v.mul v)
    let t := accSum (decodeAcc acc.1) (decodeAcc q.1)
    (t.1, acc.2 ++ q.2 ++ t.2)) (0, [])

/-- Sum of squares in stages of 65,536 terms, the stages added in ascending order (R144, R411). -/
def sumSquares (l : List FVal) : Nat × List Ev :=
  (chunks 65536 l (cdiv l.length 65536)).foldl (fun acc st =>
    let p := sqStage st
    let t := accSum (decodeAcc acc.1) (decodeAcc p.1)
    (t.1, acc.2 ++ p.2 ++ t.2)) (0, [])

/-- GNORM: `part` the partial from the rank before, `res` the result from the last rank. -/
def colNorm (s : State) (x : LCtx) (c : ColRec) (part res : Nat) : ColR :=
  let G := s.gsize c.group
  let r := s.rd (Reg.COL_GROUP_RANK c.group)
  let y := c.srcs.foldl (fun (acc : State × Bool × List FVal) i =>
    let z := acc.1.colRead x i
    (z.1, acc.2.1 || z.2.1, acc.2.2 ++ z.2.2.map fun q => decodeFmt (descOf x.p i).fmt q.1 q.2)) (s, false, [])
  if y.2.1 then (y.1, colOnly 10, [])
  else
    let own := sumSquares y.2.2
    let p := if r = 0 then (own.1, []) else accSum (decodeAcc part) (decodeAcc own.1)
    let fin := if r + 1 = G then p.1 else res
    (y.1.colEvents (own.2 ++ p.2), (0, 0, fin, (toF32 (decodeAcc fin)).1), [p.1])

/-! ### The commands -/

/-- Whether an operation of kind `op` in slot `k` may run: started, not decided, and READY from every rank it sends to. -/
def colReady (s : State) (op : Nat) (o : ColOp) : Bool :=
  let c := parseCol o.rcd
  c.op == op && !o.held && o.res.isNone &&
    (s.colTargets (s.opCtx o) c).all fun r => o.readys.any fun q => q.rank == r

/-- The regions whose banks or windows the descriptors of an operation address. -/
def colRegions (s : State) (x : LCtx) (c : ColRec) : List Nat :=
  ((c.srcs ++ c.dsts).flatMap fun i => let d := descOf x.p i
    if d.space = 1 then [destOf (s.launchBase x 0 (nth x.regions 0) 0 d.handle) / 8] else []).eraseDups

/-- An operation command: an optional submission (R391), then the work of operation (GROUP, OPID) with the peers' data. An
operation that is not ready, or data that is not of its size, changes nothing; one that addresses a gated region is held and wakes it
(R509). -/
def colRun (s : State) (op : Nat) (submit : Option Nat) (g id : Nat) (f : State → ColOp → LCtx → ColRec → Option ColR) : State :=
  let s0 := match submit with | some a => s.colSubmit a | none => s
  match s0.colFind g id with
  | none => s0
  | some k =>
    match s0.colAt k with
    | none => s0
    | some o =>
      let rs := s0.colRegions (s0.opCtx o) (parseCol o.rcd)
      if !s0.colReady op o then s0
      else if rs.any fun r => (s0.rd Reg.PWR_RSTATE_GATED).testBit r || s0.on (In.gateDrain r) then
        s0.wakeBy (((rs.filter (· < 32)).map (2 ^ ·)).foldl (· + ·) 0) (parseCol o.rcd).tenant
      else
        match f s0 o (s0.opCtx o) (parseCol o.rcd) with
        | none => s0
        | some y => y.1.colPut k (some { o with res := some y.2.1, sent := y.2.2, dests := o.landed op y.2.1.1 })

end State
end Sys2Proof.Machine
end

