-- ==== Sys2Proof/Machine/Host.lean ====
section
/-!
DEFINITION. The host transport (spec/16): the port and its filters (R421, R422), flows, acknowledgement and retransmission (R423
to R427), messages and the engine's operations on HBM (R428 to R430), receive rings (R431, R432), firmware's messages (R438)
and the tenant commands (R433 to R437).
-/

namespace Sys2Proof.Machine
namespace State

/-! ### Flows -/

/-- A flow's transport state. -/
def flow (s : State) (f : Nat) : Flow := Tbl.get Flow.idle s.flows f
/-- A flow's transport state replaced. -/
def setFlow (s : State) (f : Nat) (x : Flow) : State := { s with flows := Tbl.set Flow.idle s.flows f x }
/-- The tenant of a flow; a management flow's is 0xFE. -/
def flowTenant (s : State) (f : Nat) : Nat := s.rd (Reg.HTP_FLOW_TENANT f)
/-- Whether a flow is a management flow. -/
def flowMgmt (s : State) (f : Nat) : Bool := s.on (Reg.HTP_FLOW_MGMT f)

end State

/-- The distance from `a` up to `b` modulo 2^32. -/
def seqDist (a b : Nat) : Nat := (b + 2 ^ 32 - a % 2 ^ 32) % 2 ^ 32

/-- Whether `b` comes at or after `a` in sequence. -/
def seqFrom (a b : Nat) : Bool := decide (seqDist a b < 2 ^ 31)

/-- The next SEQ expected that a flow's headers carry: of a withheld CMD its LAST packet is not acknowledged (R432). -/
def Flow.ackNo (x : Flow) : Nat :=
  match x.withheld, x.msgs with
  | true, m :: _ => m.last
  | _, _ => x.rx

/-- The SACK bits of a flow's headers (Table 16.2): packets out of order, and those that follow a withheld one (R432). -/
def Flow.sack (x : Flow) : Nat :=
  ((List.range 64).map fun i => if x.held.any (fun h => h.1 == (x.ackNo + 1 + i) % 2 ^ 32) || decide (1 + i < seqDist x.ackNo x.rx)
    then 2 ^ i else 0).foldl (· + ·) 0

/-- A transport header (Table 16.2) as its 32 bytes. -/
def packHeader (ptype : Nat) (first last : Bool) (f seq ack sack win len : Nat) : List Nat :=
  toLe 32 (1 + ptype * 2 ^ 4 + b2n first * 2 ^ 8 + b2n last * 2 ^ 9 + f * 2 ^ 16 + seq % 2 ^ 32 * 2 ^ 32 + ack % 2 ^ 32 * 2 ^ 64 +
    sack * 2 ^ 96 + win % 2 ^ 16 * 2 ^ 160 + len * 2 ^ 176)

/-- A message header (Table 16.3) as its 32 bytes. -/
def packMsg (mtype status tag len : Nat) : List Nat :=
  toLe 32 (mtype + status * 2 ^ 8 + tag % 2 ^ 32 * 2 ^ 32 + len % 2 ^ 32 * 2 ^ 64)

namespace State

/-- Bytes that tenant `t` may hold of the ingress buffer (R427). -/
def ingressShare (s : State) (t : Nat) : Nat :=
  if t = 0xFE then 2 ^ 20
  else 15 * 2 ^ 20 * ((List.range 256).filter fun i => s.slotOwner 6 i == t).length / 256

/-- Bytes that a flow holds of it. -/
def flowBytes (x : Flow) : Nat :=
  (x.held.map fun h => h.2.2.2.length).foldl (· + ·) 0 + (x.msgs.map fun m => m.data.length).foldl (· + ·) 0 +
    (match x.asm with | some a => a.2.length | none => 0)

/-- The WINDOW that the module advertises on a flow (R427): packets of the largest size that fit in the free share. -/
def flowWindow (s : State) (f : Nat) : Nat :=
  let t := s.flowTenant f
  let used := ((s.flows.filter fun p => s.flowTenant p.1 == t).map fun p => flowBytes p.2).foldl (· + ·) 0
  min (s.rd (Reg.HTP_FLOW_WINDOW f)) ((s.ingressShare t - used) / 8192)

/-- A frame handed to the egress arbiter (R427): flow traffic is its tenant's at the flow's priority, management at P0. -/
def egress (s : State) (owner prio : Nat) (bytes : List Nat) : State :=
  let x := s.link 6
  s.setLink 6 { x with outq := x.outq ++ [⟨1 + owner * 2 ^ 8 + prio * 2 ^ 16, bytes⟩] }

/-- A packet of a flow handed to egress, with the flow's ACK, SACK and WINDOW. -/
def egressPkt (s : State) (f ptype : Nat) (first last : Bool) (seq : Nat) (pay : List Nat) : State :=
  let x := s.flow f
  let p := s.rd (Reg.HTP_FLOW_PRIO f)
  s.egress (s.flowTenant f) (if s.flowMgmt f then 0 else if p = 0 then 2 else p)
    (packHeader ptype first last f seq x.ackNo x.sack (s.flowWindow f) pay.length ++ pay)

/-- Packets that the peer's window lets a flow send, sent (R425, R426). -/
def flowPush (s : State) (f : Nat) : Nat → State
  | 0 => s
  | n + 1 =>
    let x := s.flow f
    match x.unsent with
    | [] => s
    | p :: l =>
      let base := match x.unacked with | q :: _ => q.seq | [] => p.seq
      if x.broken || decide (x.peerWin ≤ seqDist base p.seq) then s
      else
        let s1 := s.setFlow f { x with unsent := l, unacked := x.unacked ++ [{ p with lastTx := x.clock }] }
        flowPush (s1.egressPkt f 0 p.first p.last p.seq p.pay) f n

/-- A message sent on a flow: its packets of up to 8,192 bytes get their SEQs and leave as the window allows. A BROKEN or unused
flow sends nothing (R426). -/
def hostSend (s : State) (f : Nat) (bytes : List Nat) : State :=
  let x := s.flow f
  if x.broken || !s.on (Reg.HTP_FLOW_VALID f) then s
  else
    let n := max 1 (cdiv bytes.length 8192)
    let ps := (chunks 8192 bytes n).zipIdx.map fun q =>
      (⟨(x.tx + q.2) % 2 ^ 32, q.2 == 0, q.2 + 1 == n, q.1, 0⟩ : Pkt)
    let s1 := s.setFlow f { x with unsent := x.unsent ++ ps, tx := (x.tx + n) % 2 ^ 32 }
    s1.flowPush f (x.unsent.length + n)

/-- A response of the engine or a reply of firmware. -/
def hostReply (s : State) (f mtype status tag : Nat) (body : List Nat) : State :=
  s.hostSend f (packMsg mtype status tag body.length ++ body)

/-- FW_REPLY (R584). -/
def fwReply (s : State) (f tag status : Nat) (body : List Nat) : State := s.hostReply f 0x92 status tag body

/-- HTP_FLOW_WRITE (R423): a write that sets VALID resets the sequences; any rewrite ends BROKEN. -/
def flowWrite (s : State) (f valid mgmt prio tenant port window host : Nat) : State :=
  let s1 := s.wrs [(Reg.HTP_FLOW_VALID f, valid), (Reg.HTP_FLOW_MGMT f, mgmt), (Reg.HTP_FLOW_PRIO f, prio),
    (Reg.HTP_FLOW_TENANT f, tenant), (Reg.HTP_FLOW_PORT f, port), (Reg.HTP_FLOW_WINDOW f, window), (Reg.HTP_FLOW_HOST f, host)]
  if valid = 1 then s1.setFlow f Flow.idle else s1.setFlow f { s1.flow f with broken := false }

/-- Words of a flow entry written as a register (R423): only a write of VALID itself resets the sequences. -/
def flowWords (s : State) (f valid mgmt prio tenant port window host m : Nat) : State :=
  let t := s.flowWrite f valid mgmt prio tenant port window host
  if m.testBit 0 then t else t.setFlow f { s.flow f with broken := false }

/-- The flow becomes BROKEN (R426). -/
def flowBreak (s : State) (f : Nat) : State :=
  let s1 := s.setFlow f { s.flow f with unsent := [], unacked := [], broken := true }
  s1.wr (Reg.HTP_BROKEN (f / 32)) (putBits (s1.rd (Reg.HTP_BROKEN (f / 32))) (f % 32) 1 1)

/-- A packet resent. -/
def flowResend (s : State) (f : Nat) (p : Pkt) : State :=
  let x := s.flow f
  let s1 := s.setFlow f { x with unacked := x.unacked.map fun q => if q.seq = p.seq then { q with lastTx := x.clock } else q }
  (s1.egressPkt f 0 p.first p.last p.seq p.pay).inc Reg.HTP_RETX_COUNT 1

/-- What the ACK, SACK and WINDOW of an arriving header do (R426), `us` after the flow's last arrival. -/
def flowAck (s : State) (f us ack sack win : Nat) : State :=
  let x := s.flow f
  let keep := x.unacked.filter fun p => seqFrom ack p.seq
  let x1 : Flow := { x with unacked := keep, peerWin := win, clock := x.clock + us,
                            timeouts := if keep.length < x.unacked.length then 0 else x.timeouts }
  let s1 := s.setFlow f x1
  let got := fun q => (List.range 64).any fun i => sack.testBit i && (ack + 1 + i) % 2 ^ 32 == q
  let lost := keep.filter fun p => !got p.seq && (List.range 64).any (fun i => sack.testBit i &&
    decide (seqDist ack p.seq < 1 + i)) && decide (s.rd Reg.HTP_RTO_US ≤ x1.clock - p.lastTx)
  (lost.foldl (fun t p => t.flowResend f p) s1).flowPush f x1.unsent.length

/-- RETRANSMIT_TIMEOUT (R426): without progress; the oldest packet again, or after RETRY_MAX timeouts in a row BROKEN. -/
def flowTimeout (s : State) (f : Nat) : State :=
  let x := s.flow f
  match x.unacked with
  | [] => s
  | p :: _ =>
    let s1 := s.setFlow f { x with timeouts := x.timeouts + 1 }
    if max 1 (s.rd Reg.HTP_CFG_RETRY_MAX) ≤ x.timeouts + 1 then s1.flowBreak f else s1.flowResend f p

/-- ACK_SEND (R425). -/
def sendAck (s : State) (f : Nat) : State := s.egressPkt f 1 false false 0 []

/-- Packets that are next in sequence given to message assembly (R425, R428). -/
def assemble (x : Flow) : Nat → Flow
  | 0 => x
  | n + 1 =>
    match x.held.find? fun h => h.1 == x.rx with
    | none => x
    | some h =>
      let y : Flow := { x with held := x.held.filter (fun q => q.1 != x.rx), rx := (x.rx + 1) % 2 ^ 32 }
      let a := if h.2.1 then some (h.1, h.2.2.2) else y.asm.map fun a => (a.1, a.2 ++ h.2.2.2)
      match a with
      | none => assemble y n
      | some a =>
        if h.2.2.1 then assemble { y with asm := none, msgs := y.msgs ++ [⟨a.1, h.1, a.2⟩] } n
        else assemble { y with asm := some a } n

/-- DATA_PACKET (R425): a DATA packet that matches a flow. -/
def dataPacket (s : State) (f : Nat) (first last : Bool) (seq ack sack win us : Nat) (pay : List Nat) : State :=
  if !s.on (Reg.HTP_FLOW_VALID f) then s.inc Reg.HTP_DROP_FLOW_COUNT 1
  else
    let s1 := s.flowAck f us ack sack win
    let x := s1.flow f
    let w := s1.flowWindow f
    if !seqFrom x.rx seq || x.held.any (fun h => h.1 == seq) then (s1.inc Reg.HTP_DUP_COUNT 1).sendAck f
    else if w ≤ seqDist x.ackNo seq then (s1.inc Reg.HTP_DROP_WIN_COUNT 1).sendAck f
    else
      let y := assemble { x with held := x.held ++ [(seq, first, last, pay)] } (x.held.length + 1)
      let s2 := (s1.setFlow f y).charge 5 (s1.flowTenant f) pay.length
      (if x.withheld then s2.inc Reg.HTP_RING_FULL_COUNT 1 else s2).sendAck f

/-- ACK_PACKET (R426). -/
def ackPacket (s : State) (f ack sack win us : Nat) : State :=
  if !s.on (Reg.HTP_FLOW_VALID f) then s.inc Reg.HTP_DROP_FLOW_COUNT 1 else s.flowAck f us ack sack win

/-- KEEPALIVE (R424, R425): its header counts as any other, and an ACK answers it. -/
def keepalive (s : State) (f ack sack win us : Nat) : State :=
  if !s.on (Reg.HTP_FLOW_VALID f) then s.inc Reg.HTP_DROP_FLOW_COUNT 1 else (s.flowAck f us ack sack win).sendAck f

/-- HOST_LINK_DOWN (R422). -/
def hostDown (s : State) : State :=
  if s.on Reg.HTP_STAT_LINK then (s.wr Reg.HTP_STAT_LINK 0).inc Reg.HTP_LINK_DOWN_COUNT 1 else s

/-- HOST_LINK_UP (R422): with EN and REFCLK_ETH the link comes up. -/
def hostUp (s : State) : State := if s.on Reg.HTP_CTL_EN && s.on Reg.HTP_STAT_REFCLK then s.wr Reg.HTP_STAT_LINK 1 else s

/-! ### Messages (R428 to R430) -/

/-- MTYPE of a message. -/
def msgType (m : Msg) : Nat := nth m.data 0
/-- TAG of a message. -/
def msgTag (m : Msg) : Nat := blk m.data 4 4
/-- LEN of a message. -/
def msgLen (m : Msg) : Nat := blk m.data 8 4
/-- ADDR of a message. -/
def msgAddr (m : Msg) : Nat := blk m.data 12 6
/-- OP of a message. -/
def msgOp (m : Msg) : Nat := nth m.data 20 % 16
/-- The body of a message. -/
def msgBody (m : Msg) : List Nat := m.data.drop 32

/-- The first message of a flow that has not taken effect, when its type is `t`. -/
def headMsg (s : State) (f t : Nat) : Option Msg :=
  match (s.flow f).msgs with
  | m :: _ => if msgType m = t then some m else none
  | [] => none

/-- That message gone. -/
def popMsg (s : State) (f : Nat) : State :=
  let x := s.flow f
  s.setFlow f { x with msgs := x.msgs.drop 1, withheld := false, done := none }

/-- A status of R335 or R347 as Table 16.5 numbers it. -/
def hostStatus (st : Nat) : Nat :=
  match st with | 0 => 0 | 2 => 8 | 3 => 4 | 4 => 5 | 5 => 6 | 6 => 7 | n => n

/-- Whether something of flow `f` is held on a protected page (R344). -/
def hostHeld (s : State) (f : Nat) : Bool := s.heldw.any fun w => w.src == 128 + f

/-- The front message of a flow has reached memory: answered by `ans` from its status, elements and old value once nothing of it is held
(R344, R429). -/
def hostWait (s : State) (f : Nat) (ans : State → Nat → Nat → Nat → State) : State :=
  let x := (s.flow f).done.getD (0, 0, 0)
  if s.hostHeld f then s.setFlow f { s.flow f with done := some x }
  else ans s (hostStatus x.1) x.2.1 x.2.2

/-- An access that the check of its range found to reach a hole is counted (R324). -/
def noteHole (s : State) (a st : Nat) : State := if st = 4 then s.inc (Reg.HBM_HOLE_CNT_COUNT (a / 2 ^ 36)) 1 else s

/-- The check of a whole range (R429): TENANT, HOLE, POISON, STACK_LOST, BUSY. -/
def hostRange (s : State) (f a n : Nat) (read : Bool) : Nat :=
  let k := a / 2 ^ 36
  if 12 ≤ k then 3
  else if !s.flowMgmt f && s.rd (Reg.TEN_STACK_OWNER k) != s.flowTenant f then 3
  else if !inStack a n then 4
  else if s.stackStatus k ≠ 0 then hostStatus (s.stackStatus k)
  else if read && (granules a n).any (fun g => Tbl.get 0 s.poison g == 1) then 5
  else 0

/-- PUT (R429, R430). What it writes to protected pages is held (R344), and the message then waits for its next PUT. -/
def hostPut (s : State) (f : Nat) : State :=
  match s.headMsg f 2 with
  | none => s
  | some m =>
    let n := msgLen m
    let a := msgAddr m
    let done := fun (t : State) st => (t.popMsg f).hostReply f 0x82 st (msgTag m) []
    if (s.flow f).done.isSome then s.hostWait f fun t st _ _ => done t st
    else if 2 ^ 24 < n then done s 2
    else if n = 0 then done s 0
    else
      let st := s.hostRange f a n false
      if st ≠ 0 then done (s.noteHole a st) st
      else
        let w := s.hbmWriteBy (128 + f) a ((msgBody m).take n) true
        if w.2 ≠ 0 then done w.1 (hostStatus w.2) else w.1.hostWait f fun t st _ _ => done t st

/-- GET (R429, R430). -/
def hostGet (s : State) (f : Nat) : State :=
  match s.headMsg f 3 with
  | none => s
  | some m =>
    let n := msgLen m
    let a := msgAddr m
    let done := fun (t : State) st l => (t.popMsg f).hostReply f 0x83 st (msgTag m) l
    if 2 ^ 24 < n then done s 2 []
    else if n = 0 then done s 0 []
    else
      let st := s.hostRange f a n true
      if st ≠ 0 then done (s.noteHole a st) st []
      else let y := s.hbmRead a n true; done y.1 (hostStatus y.2.1) y.2.2

/-- ATOMIC (R335, R429), held on a protected page (R344). -/
def hostAtomic (s : State) (f : Nat) : State :=
  match s.headMsg f 4 with
  | none => s
  | some m =>
    let a := msgAddr m
    let op := msgOp m
    let w := atomBytes op
    let done := fun (t : State) st l => (t.popMsg f).hostReply f 0x84 st (msgTag m) l
    let ans := fun (t : State) st (_ old : Nat) => done t st (if st = 0 then toLe 8 old else [])
    if (s.flow f).done.isSome then s.hostWait f ans
    else if w = 0 ∨ a % w ≠ 0 then done s 8 []
    else
      let st := s.hostRange f a w true
      if st ≠ 0 then done (s.noteHole a st) st []
      else (s.atomsRun (128 + f) [⟨op, a, blk (msgBody m) 0 8, blk (msgBody m) 8 8⟩]).hostWait f ans

/-- The operations of a reduce-put in turn (R336). -/
def reduceAtoms (op w size a : Nat) (b : List Nat) (cnt : Nat) : List HeldAtom :=
  (List.range cnt).map fun j => ⟨op, a + w * j, blk b (size * j) w, blk b (size * j + w) w⟩

/-- REDUCE_PUT (R336, R429): its elements act in turn, and wait where one meets a protected page (R344). -/
def hostReduce (s : State) (f : Nat) : State :=
  match s.headMsg f 5 with
  | none => s
  | some m =>
    let a := msgAddr m
    let op := msgOp m
    let w := atomBytes op
    let size := if op = 11 ∨ op = 12 then 2 * w else w
    let n := msgLen m
    let done := fun (t : State) st k => (t.popMsg f).hostReply f 0x85 st (msgTag m) (toLe 4 k)
    let ans := fun (t : State) st k (_ : Nat) => done t st k
    if (s.flow f).done.isSome then s.hostWait f ans
    else if 2 ^ 24 < n then done s 2 0
    else if w = 0 ∨ a % w ≠ 0 ∨ n % size ≠ 0 then done s 8 0
    else
      let cnt := n / size
      let st := if cnt = 0 then 0 else s.hostRange f a (w * cnt) true
      if st ≠ 0 then done (s.noteHole a st) st 0
      else (s.atomsRun (128 + f) (reduceAtoms op w size a (msgBody m) cnt)).hostWait f ans

/-- CMD_NACK (R428, R432): a message of a reserved type, or a CMD whose body is too long. -/
def cmdNack (s : State) (f : Nat) : State :=
  match (s.flow f).msgs with
  | [] => s
  | m :: _ =>
    let t := msgType m
    if t = 1 ∧ 4064 < (msgBody m).length then (s.popMsg f).hostReply f 0x81 2 (msgTag m) []
    else if t = 0 ∨ 5 < t then (s.popMsg f).hostReply f 0x81 1 (msgTag m) []
    else s

/-! ### Receive rings (R431, R432) -/

/-- The ring of a flow. -/
def flowRing (s : State) (f : Nat) : Nat := if s.flowMgmt f then 0 else 1

/-- Whether ring `r` has no room. -/
def rxRingFull (s : State) (r : Nat) : Bool :=
  let n := s.rd (Reg.HTP_RING_SIZE_ENTRIES r)
  decide (n < 2) || (s.rd (Reg.HTP_RING_HEAD_INDEX r) + 1) % n == s.rd (Reg.HTP_RING_TAIL_INDEX r)

/-- The first CMD of a flow written into its ring, the entry first and the head after it (R431). -/
def deposit (s : State) (f : Nat) (m : Msg) : State :=
  let r := s.flowRing f
  let h := s.rd (Reg.HTP_RING_HEAD_INDEX r)
  let hd := toLe 32 (f + s.flowTenant f * 2 ^ 8 + msgTag m * 2 ^ 32 + msgLen m * 2 ^ 64 + m.seq * 2 ^ 96)
  let s1 := (s.hbmWrite (s.rd (Reg.HTP_RING_BASE_ADDR r) + 4096 * h) (hd ++ msgBody m) true).1
  (s1.wr (Reg.HTP_RING_HEAD_INDEX r) ((h + 1) % s.rd (Reg.HTP_RING_SIZE_ENTRIES r))).popMsg f

/-- CMD (R430 to R432): the flow's first message, a CMD, is deposited, or withheld while its ring is full. -/
def hostCmd (s : State) (f : Nat) : State :=
  match s.headMsg f 1 with
  | none => s
  | some m =>
    if 4064 < (msgBody m).length then s
    else if s.rxRingFull (s.flowRing f) then
      if (s.flow f).withheld then s
      else (s.setFlow f { s.flow f with withheld := true }).inc Reg.HTP_RING_FULL_COUNT 1
    else s.deposit f m

/-- CMD_DEPOSIT_RESUME (R432): a withheld CMD is deposited and acknowledged once room frees. -/
def cmdResume (s : State) (f : Nat) : State :=
  match s.headMsg f 1 with
  | none => s
  | some m => if !(s.flow f).withheld || s.rxRingFull (s.flowRing f) then s else (s.deposit f m).sendAck f

/-- HTP_TXQ_GO (R438): the message at HTP_TXQ_ADDR leaves on a flow. -/
def txqGo (s : State) (f : Nat) : State :=
  let a := s.rd Reg.HTP_TXQ_ADDR_ADDR
  let y := s.hbmRead a 32 true
  if y.2.1 ≠ 0 then y.1
  else
    let n := blk y.2.2 8 4
    let z := y.1.hbmRead (a + 32) n true
    if n = 0 then y.1.hostSend f y.2.2
    else if z.2.1 ≠ 0 then z.1 else z.1.hostSend f (y.2.2 ++ z.2.2)

/-! ### Tenant commands (R433 to R437) -/

/-- Whether the module is in recovery, where only the management commands of Table 17.5 are accepted (R454). -/
def inRecovery (s : State) : Bool := s.rd Reg.MOD_BOOT_STAGE == 8

/-- JOB (R236): the schedule is refused with EVO_PERIOD = 0 or a nonzero reserved field. -/
def jobCmd (s : State) (f tag num sched step : Nat) : State :=
  if s.inRecovery then s.fwReply f tag 1 []
  else if bitsOf sched 79 64 = 0 ∨ bitsOf sched 127 81 ≠ 0 then s.fwReply f tag 2 []
  else
    let t := s.flowTenant f
    (s.wrs [(In.jobNum t, num), (In.jobSched t, sched), (In.jobStep t, step)]).fwReply f tag 0 []

/-- The kinds of a step under a mask schedule (Table 8.5): mask evolution, dense gradient (R236). -/
def stepKinds (sched step : Nat) : Bool × Bool :=
  let first := bitsOf sched 31 0
  let evo := decide (first ≤ step ∧ step ≤ bitsOf sched 63 32 ∧ (step - first) % bitsOf sched 79 64 = 0)
  (evo, evo && sched.testBit 80)

/-- Firmware marks a launch of a tenant with a mask schedule with the kinds of the step that it belongs to (R236). By what firmware sees
that a step has ended is not said: how many have is a free value (log 188). Without a schedule the record keeps its marks. -/
def markStep (s : State) (lr : LRec) : State × LRec :=
  let sched := s.rd (In.jobSched lr.tenant)
  if sched = 0 then (s, lr)
  else
    let f := In.jobStep lr.tenant
    let n := s.rd f + Config.stepsPassed s.free
    let k := stepKinds sched (n % 2 ^ 32)
    (({ s with free := s.free + 1 } : State).wr f n, { lr with evo := k.1, dgrad := k.2 })

/-- Shape words written into the extents of a parameter block (R434), whose header is read through the home cache (R325); one that gives
no data takes none. -/
def shapeWrite (s0 : State) (lr : LRec) (words : List Nat) : State :=
  let x := s0.hbmRead lr.param 8 true
  let s := x.1
  let n := ofLe ((x.2.2.drop 4).take 2)
  let off := ofLe (x.2.2.take 4)
  if words.isEmpty then s0
  else if x.2.1 ≠ 0 ∨ n = 0 then s
  else
    words.zipIdx.foldl (fun t q =>
      let p := Config.shapePlace q.2
      let a := lr.param + off + 256 * (p / 6 % n) + 32 + 32 * (p % 6)
      if t.ownRange lr.tenant a 4 then (t.hbmWrite a (toLe 4 q.1) true).1 else t) s

/-- Whether a launch of (id, tenant) has no committed record yet (R434). -/
def launchDup (s : State) (id t : Nat) : Bool := s.launches.any fun p => p.2.id == id && p.2.tenant == t

/-- LAUNCH (R434, R435): the record becomes the flow's tenant's; a LAUNCH_ID in use is refused, anything else goes to the launch
unit of core `c`. -/
def launchCmd (s : State) (c f rcd : Nat) (shape : List Nat) : State :=
  let t := s.flowTenant f
  let lr := { parseLaunch rcd with tenant := t }
  if s.inRecovery || decide (64 ≤ s.pendRecs.length) then s
  else if s.launchDup lr.id t then s.commitRec (complRec lr.id 3 0 2 0x3F t (Refuse.of 0) 0 0)
  else
    let m := s.markStep lr
    let z := (m.1.shapeWrite lr shape).validate m.2
    State.conclude z c m.2

/-- ABORT (R437): brought to the commit point, and answered with its result. -/
def abortCmd (s : State) (f tag id : Nat) : State :=
  if s.inRecovery then s.fwReply f tag 1 []
  else
    let s1 := (s.wr Reg.HTP_ABORT_TENANT (s.flowTenant f)).htpAbort id
    s1.hostReply f 0x91 (s1.rd Reg.HTP_ABORT_STAT_RESULT) tag (toLe 4 id)

/-- COLL (R433, R434): the record's TENANT becomes the flow's, and the record is submitted. -/
def collCmd (s : State) (f a : Nat) : State := if s.inRecovery then s else s.colSubmitAs (some (s.flowTenant f)) a

end State
end Sys2Proof.Machine
end

