-- ==== Sys2Proof/Machine/HostFrame.lean ====
section
/-!
DEFINITION. Ethernet frames at the host port: the filters of Table 16.1, the answers to ICMPv6 (R421), and the transport packet
that a UDP datagram carries (R423, R424). The layouts of Ethernet, IPv6, ICMPv6 and UDP are those of their standards (log 19).
-/

namespace Sys2Proof.Machine

/-- A big-endian number. -/
def ofBe (l : List Nat) : Nat := ofLe l.reverse
/-- The `k` big-endian bytes of a number. -/
def toBe (k n : Nat) : List Nat := (toLe k n).reverse
/-- `n` bytes from offset `off`, as a big-endian number. -/
def beAt (l : List Nat) (off n : Nat) : Nat := ofBe ((l.drop off).take n)

/-- The one's complement sum of a byte list in 16-bit words. -/
def onesSum : List Nat → Nat
  | [] => 0
  | [a] => 256 * a
  | a :: b :: l => let t := 256 * a + b + onesSum l; t % 2 ^ 16 + t / 2 ^ 16

/-- The checksum of an upper-layer packet over IPv6: 0 when one that carries its checksum is right. -/
def ipSum (src dst next : Nat) (l : List Nat) : Nat :=
  2 ^ 16 - 1 - onesSum (toBe 16 src ++ toBe 16 dst ++ toBe 4 l.length ++ toBe 4 next ++ l)

/-- An ICMPv6 message with its checksum set. -/
def icmp (src dst : Nat) (l : List Nat) : List Nat := l.take 2 ++ toBe 2 (ipSum src dst 58 l) ++ l.drop 4

namespace State

/-- The module's data address. -/
def addrData (s : State) : Nat := ((List.range 4).map fun w => s.rd (Reg.HTP_ADDR_DATA w) * 2 ^ (32 * w)).foldl (· + ·) 0
/-- The module's management address. -/
def addrMgmt (s : State) : Nat := ((List.range 4).map fun w => s.rd (Reg.HTP_ADDR_MGMT w) * 2 ^ (32 * w)).foldl (· + ·) 0
/-- The module's MAC address. -/
def macAddr (s : State) : Nat := s.rd Reg.HTP_MAC_LO + 2 ^ 32 * s.rd Reg.HTP_MAC_HI

/-- NEIGHBOR_SOLICITATION (R421): an advertisement of the target, when it is an address of the module. -/
def neighbor (s : State) (src target : Nat) : State :=
  if target = s.addrData ∨ target = s.addrMgmt then
    s.egress 0xFE 0 (icmp target src ([136, 0, 0, 0] ++ toBe 4 0x60000000 ++ toBe 16 target ++ [2, 1] ++ toBe 6 s.macAddr))
  else s

/-- ECHO_REQUEST (R421): an echo reply with the request's identifier, sequence number and data. -/
def echo (s : State) (src dst : Nat) (rest : List Nat) : State :=
  if dst = s.addrData ∨ dst = s.addrMgmt then s.egress 0xFE 0 (icmp dst src ([129, 0, 0, 0] ++ rest)) else s

/-- A transport packet with its IPv6 addresses and host port (R423, R424). -/
def transport (s : State) (src dst sport us : Nat) (l : List Nat) : State :=
  let h := ofLe (l.take 32)
  let pay := l.drop 32
  let pt := bitsOf h 7 4
  let len := bitsOf h 191 176
  if l.length < 32 ∨ bitsOf h 3 0 ≠ 1 ∨ 2 < pt ∨ bitsOf h 15 10 + bitsOf h 31 24 + bitsOf h 255 192 ≠ 0 ∨ len ≠ pay.length ∨
      8192 < len then
    s.inc Reg.HTP_DROP_HDR_COUNT 1
  else
    let f := bitsOf h 23 16
    let own := if s.flowMgmt f then s.addrMgmt else s.addrData
    if !s.on (Reg.HTP_FLOW_VALID f) || s.rd (Reg.HTP_FLOW_HOST f) != src || s.rd (Reg.HTP_FLOW_PORT f) != sport || own != dst then
      s.inc Reg.HTP_DROP_FLOW_COUNT 1
    else
      let ack := bitsOf h 95 64
      let sack := bitsOf h 159 96
      let win := bitsOf h 175 160
      if pt = 0 then s.dataPacket f (h.testBit 8) (h.testBit 9) (bitsOf h 63 32) ack sack win us pay
      else if pt = 1 then s.ackPacket f ack sack win us
      else s.keepalive f ack sack win us

/-- An IPv6 packet (Table 16.1): extension headers, fragments and other protocols are discarded and counted. -/
def ipPacket (s : State) (us : Nat) (p : List Nat) : State :=
  let src := beAt p 8 16
  let dst := beAt p 24 16
  let next := nth p 6
  let l := (p.drop 40).take (beAt p 4 2)
  let mine := decide (dst = s.addrData) || decide (dst = s.addrMgmt)
  let sol := fun (a : Nat) => decide (dst = 0xFF0200000000000000000001FF000000 + a % 2 ^ 24)
  if p.length < 40 ∨ nth p 0 / 16 ≠ 6 ∨ l.length ≠ beAt p 4 2 then s.inc Reg.HTP_DROP_L3_COUNT 1
  else if next = 58 then
    if ipSum src dst 58 l ≠ 0 then s
    else if nth l 0 = 135 ∧ (mine || sol s.addrData || sol s.addrMgmt) then s.neighbor src (beAt l 8 16)
    else if nth l 0 = 128 ∧ mine then s.echo src dst (l.drop 4)
    else s
  else if next = 17 then
    let port := if dst = s.addrMgmt then 0xA7E1 else 0xA7E0
    if !mine || decide (l.length < 8) || beAt l 4 2 != l.length || beAt l 6 2 == 0 || ipSum src dst 17 l != 0 ||
        beAt l 2 2 != port then
      s.inc Reg.HTP_DROP_L3_COUNT 1
    else s.transport src dst (beAt l 0 2) us (l.drop 8)
  else s.inc Reg.HTP_DROP_L3_COUNT 1

/-- FRAME_RECEIVE (R421): a frame without its FCS, and how its codewords came out (0 clean, 1 corrected, 2 uncorrectable), `us`
after the last arrival of its flow. -/
def frameReceive (s : State) (fec us : Nat) (fr : List Nat) : State :=
  if !s.on Reg.HTP_STAT_LINK then s
  else if fec = 2 then s.inc Reg.HTP_FEC_UNCORR_COUNT 1
  else
    let s0 := if fec = 1 then s.inc Reg.HTP_FEC_CORR_COUNT 1 else s
    let drop := s0.inc Reg.HTP_DROP_L2_COUNT 1
    let dst := beAt fr 0 6
    let sol := fun (a : Nat) => decide (dst = 0x3333FF000000 + a % 2 ^ 24)
    let tagged := beAt fr 12 2 == 0x8100
    let typ := if tagged then beAt fr 16 2 else beAt fr 12 2
    if fr.length < 14 ∨ 9212 < fr.length ∨ typ = 0x8808 then drop
    else if dst ≠ s.macAddr ∧ !sol s.addrData ∧ !sol s.addrMgmt then drop
    else if tagged && !(s.on Reg.HTP_CFG_VLAN_EN && beAt fr 14 2 % 2 ^ 12 == s.rd Reg.HTP_CFG_VID) then drop
    else if typ = 0x86DD then s0.ipPacket us (fr.drop (if tagged then 18 else 14))
    else if typ = 0x0800 ∨ typ = 0x0806 then s0.inc Reg.HTP_DROP_L3_COUNT 1
    else drop

end State
end Sys2Proof.Machine
end

