-- ==== Sys2Proof/Machine/Sec.lean ====
section
/-!
DEFINITION. Security, tenancy and metering (spec/18): the signing engine, measurement, attestation, debug unlock, the partition
table with its scrubs, and the meter.
-/

namespace Sys2Proof.Machine

namespace In
/-- R459: 1 once the identity key has been derived since the last reset. -/
def idReady : Fld := fld 19 0 1 0
/-- R476: the challenge last given, 64 bytes little-endian. -/
def chal : Fld := fld 20 0 512 0
/-- R476: 1 while that challenge is valid. -/
def chalOk : Fld := fld 21 0 1 0
/-- Its millisecond of domain 39. -/
def chalMs : Fld := fld 22 0 64 0
/-- Challenges given. -/
def chalCnt : Fld := fld 23 0 64 0
/-- The owner that a scrub leads to, of region u or of stack u − 32. -/
def asgOwner (u : Nat) : Fld := fld 24 u 8 0
/-- The flow of the TEN_ASSIGN that waits for the scrub. -/
def asgFlow (u : Nat) : Fld := fld 25 u 8 0
/-- Its tag. -/
def asgTag (u : Nat) : Fld := fld 26 u 32 0
/-- Whether one waits. -/
def asgWait (u : Nat) : Fld := fld 27 u 1 0
/-- VERSION of the first stage that booted (R456). -/
def fsVersion : Fld := fld 28 0 32 0
/-- Milliseconds from the release of reset to ready (R456). -/
def bootMs : Fld := fld 29 0 32 0
/-- SEC_DBG_PWD, a fuse. -/
def dbgPwd : Fld := fld 32 0 512 Config.fuseDbgPwdHash.toNat
/-- SEC_DBG_KEY[k], a fuse. -/
def dbgKey (k : Nat) : Fld := fld 33 k 512 (Config.fuseDbgKeyHash k).toNat
/-- R472: the reservation mark in the configuration area. -/
def mark : Fld := fld 37 0 64 0
/-- R477: the millisecond of domain 39 at which the lockout ends. -/
def lockEnd : Fld := fld 50 0 64 0
/-- R472: 2 from a cold reset until its stored mark is given out, 1 until the next one is. -/
def gap : Fld := fld 51 0 2 2
/-- R471: SEQ of tenant t's previous record. -/
def prevSeq (t : Nat) : Fld := fld 52 t 64 0
/-- The millisecond at which tenant t's interval began. -/
def intStart (t : Nat) : Fld := fld 53 t 64 0
/-- 1 when debug was unlocked during the interval. -/
def dbgIntv (t : Nat) : Fld := fld 54 t 1 0
/-- 1 from the close of tenant t's interval by release until its next assignment. -/
def closed (t : Nat) : Fld := fld 55 t 1 0
/-- Ozpel and host bytes of tenant t at the last tick (R473). -/
def lastBytes (t : Nat) : Fld := fld 56 t 64 0
/-- R471: 1 while an interval that has reached its length runs on. -/
def meterDue : Fld := fld 57 0 1 0
/-- R535: milliseconds of `wall` plus 1 of the last rail faults, newest first; 0 none. -/
def railAt (k : Nat) : Fld := fld 40 k 64 0
/-- MOD_RESET_CAUSE at boot (R456). -/
def causeBoot : Fld := fld 61 0 16 0
/-- R499: 1 while the partner has not confirmed the latest local commit. -/
def lagOn : Fld := fld 81 0 1 0
/-- The millisecond of that commit. -/
def lagFrom : Fld := fld 82 0 64 0
end In

/-- The ASCII bytes of a string. -/
def ascii (t : String) : List Nat := t.toList.map Char.toNat

/-- The private key of the device identity (R459). -/
def idKey : List Nat := (Config.shake256 (Config.uds ++ ascii "IVX-DEVID-1") 64).take 57

namespace State

/-- MOD_SERIAL. -/
def serial (s : State) : Nat := s.rd Reg.MOD_SERIAL_LO + 2 ^ 32 * s.rd Reg.MOD_SERIAL_HI

/-- What a management command does (R433): firmware carries it out on a management flow, and refuses it with CMD_CODE on any
other; in recovery only the commands of Table 17.5 are accepted (R454). -/
def mgmtCmd (s : State) (f tag : Nat) (done : State) : State :=
  if !s.flowMgmt f || s.rd Reg.MOD_BOOT_STAGE == 8 then s.fwReply f tag 1 [] else done

/-! ### Signing and identity (R458 to R461) -/

/-- IDENTITY_DERIVATION (R459). -/
def deriveId (s : State) : State :=
  let pub := Config.ed448Public idKey
  ((List.range 16).foldl (fun t w => t.wr (Reg.SEC_ID_PUB w) (blk (pub.take 57) (4 * w) 4)) s).wr In.idReady 1

/-- A signature of the identity key (R460), 114 bytes. -/
def idSign (ctx : String) (msg : List Nat) : List Nat :=
  Config.ed448Sign idKey (ascii ctx) msg

/-- Whether the metering ring has no free entry (R471, R474). -/
def meterFull (s : State) : Bool :=
  let n := s.rd Reg.TEN_MREC_SIZE_ENTRIES
  decide (n < 2) || (s.rd Reg.TEN_MREC_HEAD_INDEX + 1) % n == s.rd Reg.TEN_MREC_TAIL_INDEX

/-- A signed record of 256 bytes stored in the ring, and the head advanced (R474). -/
def meterStore (s : State) (rec : List Nat) : State :=
  let h := s.rd Reg.TEN_MREC_HEAD_INDEX
  ((s.hbmWrite (s.rd Reg.TEN_MREC_BASE_ADDR + 256 * h) rec true).1).wr Reg.TEN_MREC_HEAD_INDEX
    ((h + 1) % s.rd Reg.TEN_MREC_SIZE_ENTRIES)

/-- Records that the meter holds, stored while there is room. -/
def meterFlush (s : State) : Nat → State
  | 0 => s
  | n + 1 =>
    match s.meterq with
    | [] => s
    | r :: l => if s.meterFull then s else meterFlush (({ s with meterq := l } : State).meterStore r) n

/-- SIGN_REQUEST (R460): the oldest request is signed, once the key is there. -/
def signNext (s : State) : State :=
  match s.signq, s.on In.idReady with
  | q :: l, true =>
    let s1 : State := { s with signq := l }
    match q with
    | .report f tag b => s1.fwReply f tag 0 (b ++ idSign "IVX-ATTEST" b ++ List.replicate 14 0)
    | .receipt f tag b => s1.fwReply f tag 0 (b ++ idSign "IVX-DEBUG-RCPT" b)
    | .meter b =>
      ({ s1 with meterq := s1.meterq ++ [b ++ idSign "IVX-METER" b ++ List.replicate 14 0] } : State).meterFlush 1
  | _, _ => s

/-- CERT_GET (R461). -/
def certGet (s : State) (f tag : Nat) : State :=
  s.fwReply f tag 0 ((List.range 3).flatMap fun n => toLe 4 (Config.certificate n).length ++ Config.certificate n)

/-! ### Measurement (R462, R463) -/

/-- SEC_MEAS[m] as bytes. -/
def meas (s : State) (m : Nat) : List Nat := (List.range 16).flatMap fun w => toLe 4 (s.rd (Reg.SEC_MEAS m w))

/-- Register m extended with the 64 bytes `d`, whoever does it. -/
def measExtend (s : State) (m : Nat) (d : List Nat) : State :=
  let x := Config.shake256 (s.meas m ++ d) 64
  (List.range 16).foldl (fun t w => t.wr (Reg.SEC_MEAS m w) (blk x (4 * w) 4)) s

/-- SEC_MEAS_CTL written with IDX and GO (R462). -/
def measGo (s : State) (m : Nat) : State :=
  let s1 := s.wr Reg.SEC_MEAS_CTL_IDX m
  if (s.rd Reg.SEC_MEAS_LOCK_LOCK).testBit m then s1.wr Reg.SEC_MEAS_CTL_ERR 1
  else s1.measExtend m ((List.range 16).flatMap fun w => toLe 4 (s.rd (Reg.SEC_MEAS_IN w)))

/-- SEC_MEAS_LOCK (R462). -/
def measLock (s : State) (mask : Nat) : State := s.wr Reg.SEC_MEAS_LOCK_LOCK (s.rd Reg.SEC_MEAS_LOCK_LOCK ||| mask)

/-! ### Attestation and readiness (R456, R464) -/

/-- TEN_MSEQ. -/
def mseq (s : State) : Nat := s.rd Reg.TEN_MSEQ_LO + 2 ^ 32 * s.rd Reg.TEN_MSEQ_HI

/-- The first 704 bytes of the report of Table 18.4. -/
def reportBytes (s : State) (nonce t : Nat) : List Nat :=
  let part := fun (n : Nat) => if t = 0xFE then 0 else n
  let bits := fun (k : Nat) (own : Nat → Fld) => ((List.range k).map fun i => if s.rd (own i) = t then 2 ^ i else 0).foldl (· + ·) 0
  let slots := ((List.range 7).map fun p =>
    ((List.range 256).filter fun i => s.slotOwner p i == t).length % 256 * 2 ^ (8 * p)).foldl (· + ·) 0
  toLe 8 (0x49565841 + 1 * 2 ^ 32 + s.rd Reg.SEC_DBG_STAT_EVER * 2 ^ 40 + b2n (s.rd Reg.MOD_READY_STATUS == 2) * 2 ^ 41 +
      t * 2 ^ 48 + s.rd Reg.MOD_SVN_MIN * 2 ^ 56) ++
    toLe 4 (s.rd Reg.MOD_FW_VER_VERSION) ++ toLe 4 (s.rd In.fsVersion) ++ toLe 8 s.serial ++ toLe 8 s.mseq ++
    toLe 8 (s.rd In.ms39) ++ List.replicate 24 0 ++ toLe 64 nonce ++ (List.range 8).flatMap s.meas ++
    toLe 4 (part (bits 32 Reg.TEN_REGION_OWNER)) ++ toLe 4 (part (bits 12 Reg.TEN_STACK_OWNER)) ++ toLe 7 (part slots) ++
    toLe 1 (part (if t < 0xFE then s.rd (Reg.TEN_SHARE_SHARE t) else 0)) ++ List.replicate 48 0

/-- ATTEST (R464): assembled at once, signed in its turn. -/
def attest (s : State) (f tag nonce t : Nat) : State :=
  { s with signq := s.signq ++ [.report f tag (s.reportBytes nonce t)] }

/-- The largest SP_SPARE_USED. -/
def mostSpares (s : State) : Nat :=
  (List.range 16384).foldl (fun m i => max m (s.rd (Reg.SP_SPARE_USED_COUNT (i / 64) (i % 64)))) 0

/-- MOD_RESET_CAUSE as a word. -/
def causeWord (s : State) : Nat :=
  s.rd Reg.MOD_RESET_CAUSE_POR + s.rd Reg.MOD_RESET_CAUSE_PIN * 2 + s.rd Reg.MOD_RESET_CAUSE_WDT * 2 ^ 2 +
    s.rd Reg.MOD_RESET_CAUSE_CORE * 2 ^ 4 + s.rd Reg.MOD_RESET_CAUSE_PARITY * 2 ^ 8 + s.rd Reg.MOD_RESET_CAUSE_IOD * 2 ^ 9 +
    s.rd Reg.MOD_RESET_CAUSE_SOFT * 2 ^ 10 + s.rd Reg.MOD_RESET_CAUSE_BOOT * 2 ^ 11

/-- The readiness report of Table 17.6, 64 bytes. -/
def readyBytes (s : State) : List Nat :=
  let rates := ((List.range 12).map fun k => s.rd (Reg.HBM_STAT_RATE k) * 2 ^ (2 * k)).foldl (· + ·) 0
  toLe 64 (s.rd Reg.MOD_READY_STATUS + s.rd Reg.MOD_BOOT_SLOT * 2 ^ 2 + s.rd Reg.MOD_BOOT_TRIAL * 2 ^ 3 +
    s.rd Reg.MOD_BOOT_ROLLED_BACK * 2 ^ 4 + s.rd In.causeBoot * 2 ^ 16 + s.rd Reg.MOD_FW_VER_VERSION * 2 ^ 32 +
    s.rd In.fsVersion * 2 ^ 64 + s.rd Reg.MOD_SVN_MIN * 2 ^ 96 + s.rd Reg.MOD_READY_REGIONS_MASK * 2 ^ 128 +
    s.rd Reg.MOD_READY_STACKS_MASK * 2 ^ 160 + rates * 2 ^ 192 + s.rd In.bootMs * 2 ^ 224 + s.serial * 2 ^ 256 +
    s.mostSpares * 2 ^ 320)

/-- READY_REPORT (R456), also accepted in recovery (R454). -/
def readyReport (s : State) (f tag : Nat) : State :=
  if s.flowMgmt f then s.fwReply f tag 0 s.readyBytes else s.fwReply f tag 1 []

/-! ### Debug unlock (R475 to R478) -/

/-- The event record of R478. -/
def eventRecord (s : State) (kind slot : Nat) : List Nat :=
  [kind, slot] ++ List.replicate 6 0 ++ toLe 8 s.mseq ++ toLe 8 (s.rd In.ms39) ++ List.replicate 40 0

/-- A debug event: the record extends SEC_MEAS[3] and the health log takes it (R478, Table 22.1). -/
def debugEvent (s : State) (kind slot : Nat) : State :=
  (s.measExtend 3 (s.eventRecord kind slot)).hltLog 12 0 (kind + slot * 2 ^ 8)

/-- The signed record as the reply of a command. -/
def debugReply (s : State) (f tag kind slot : Nat) : State :=
  let b := s.eventRecord kind slot
  let s1 := s.debugEvent kind slot
  { s1 with signq := s1.signq ++ [.receipt f tag b] }

/-- Debug unlocked: every interval that runs now carries DBG (R478). -/
def unlock (s : State) : State :=
  (List.range 255).foldl (fun t i => t.wr (In.dbgIntv i) 1)
    (s.wrs [(Reg.SEC_DBG_STAT_STATE, 1), (Reg.SEC_DBG_STAT_EVER, 1), (Reg.SEC_DBG_FAIL_COUNT, 0), (Reg.SEC_DBG_FAIL_WAIT_S, 0),
      (In.lockEnd, 0)])

/-- A failed unlock (R477). -/
def unlockFailed (s : State) (f tag : Nat) : State :=
  let n := s.rd Reg.SEC_DBG_FAIL_COUNT + 1
  let s1 := s.inc Reg.SEC_DBG_FAIL_COUNT 1
  let wait := min (2 ^ (n - 3)) 3600
  let s2 := if n < 3 then s1
    else s1.wrs [(In.lockEnd, s.rd In.ms39 + 1000 * wait), (Reg.SEC_DBG_FAIL_WAIT_S, wait)]
  s2.fwReply f tag 0x18 []

/-- Whether a lockout is in force. -/
def lockedOut (s : State) : Bool := decide (s.rd In.ms39 < s.rd In.lockEnd)

/-- DBG_CHALLENGE (R476): 32 random bytes, SERIAL, the count and 16 zero bytes. -/
def dbgChallenge (s : State) (f tag : Nat) : State :=
  let n := s.rd In.chalCnt + 1
  let v := Config.freeRandom s.free % 2 ^ 256 + s.serial * 2 ^ 256 + n % 2 ^ 64 * 2 ^ 320
  (({ s with free := s.free + 1 } : State).wrs [(In.chal, v), (In.chalOk, 1), (In.chalMs, s.rd In.ms39), (In.chalCnt, n)]).fwReply
    f tag 0 (toLe 64 v)

/-- DBG_UNLOCK_PWD (R476). -/
def unlockPwd (s : State) (f tag : Nat) (pwd : List Nat) : State :=
  if !s.on Reg.SEC_DBG_KEYSET_PWD then s.fwReply f tag 0x19 []
  else if s.lockedOut then s.fwReply f tag 0x1A []
  else if 16 ≤ pwd.length ∧ pwd.length ≤ 64 ∧
      ofLe (Config.shake256 (toLe 8 s.serial ++ pwd) 64) % 2 ^ 512 = s.rd In.dbgPwd then (s.unlock).debugReply f tag 1 0
  else s.unlockFailed f tag

/-- DBG_UNLOCK_KEY (R476): the challenge is good for 60 s and one attempt. -/
def unlockKey (s : State) (f tag : Nat) (key sig : List Nat) : State :=
  if !s.on In.chalOk || decide (60000 < s.rd In.ms39 - s.rd In.chalMs) then s.fwReply f tag 0x1B []
  else if s.lockedOut then s.fwReply f tag 0x1A []
  else
    let s1 := s.wr In.chalOk 0
    let h := ofLe (Config.shake256 key 64) % 2 ^ 512
    match firstBelow 4 (fun k => (s.rd Reg.SEC_DBG_KEYSET_KEYS).testBit k && s.rd (In.dbgKey k) == h) with
    | some k =>
      if Config.ed448Verify key (ascii "IVX-DEBUG") (toLe 64 (s.rd In.chal)) sig then (s1.unlock).debugReply f tag 2 k
      else s1.unlockFailed f tag
    | none => s1.unlockFailed f tag

/-- Debug access returns to LOCKED (R475). -/
def relock (s : State) : State := s.wr Reg.SEC_DBG_STAT_STATE 0

/-- DBG_LOCK (R478, Table 18.7). -/
def dbgLock (s : State) (f tag : Nat) : State := (s.relock).debugReply f tag 3 0

/-- DBG_PWD_SET (R479). -/
def pwdSet (s : State) (f tag digest : Nat) : State :=
  if s.on Reg.SEC_DBG_KEYSET_PWD then s.fwReply f tag 0x1C []
  else (s.wrs [(In.dbgPwd, digest), (Reg.SEC_DBG_KEYSET_PWD, 1)]).fwReply f tag 0 []

/-- DBG_KEY_SET (R476): slots 1 to 3, once each. -/
def keySet (s : State) (f tag k digest : Nat) : State :=
  let ks := s.rd Reg.SEC_DBG_KEYSET_KEYS
  if ks.testBit k then s.fwReply f tag 0x1C []
  else (s.wrs [(In.dbgKey k, digest), (Reg.SEC_DBG_KEYSET_KEYS, setBit ks k true)]).fwReply f tag 0 []

/-! ### Metering (R470 to R474) -/

/-- The first 128 bytes of a record of Table 18.6 that takes SEQ `n`. -/
def meterBytes (s : State) (t n : Nat) (part : Bool) : List Nat :=
  let now := s.rd In.ms39
  toLe 8 (0x4956584D + 1 * 2 ^ 32 + t * 2 ^ 40 + s.rd (In.dbgIntv t) * 2 ^ 48 + b2n (s.on In.gap) * 2 ^ 49 + b2n part * 2 ^ 50) ++
    toLe 8 n ++ toLe 8 (s.rd (In.prevSeq t)) ++ toLe 8 (now % 2 ^ 48) ++ toLe 8 s.serial ++
    toLe 4 (now - s.rd (In.intStart t)) ++ List.replicate 20 0 ++
    (List.range 7).flatMap (fun c => toLe 8 (s.rd (In.meter c t) / if c = 6 then 1000 else 1)) ++ List.replicate 8 0

/-- The next SEQ given out. -/
def takeSeq (s : State) : State :=
  s.wrs [(Reg.TEN_MSEQ_LO, s.mseq + 1), (Reg.TEN_MSEQ_HI, (s.mseq + 1) / 2 ^ 32)]

/-- The interval of tenant `t` ends: its record waits to be signed, and its counters start again. Before the number that equals the
mark is given out, the next mark is stored (R472). -/
def closeInterval (s : State) (t : Nat) (part : Bool) : State :=
  let n := s.mseq
  let s0 := if n = s.rd In.mark then s.wrs [(In.mark, n + 2 ^ 20), (In.gap, s.rd In.gap - 1)] else s
  let s1 : State := { s0 with signq := s0.signq ++ [.meter (s0.meterBytes t n part)] }
  ((List.range 7).foldl (fun u c => u.wr (In.meter c t) 0) s1.takeSeq).wrs
    [(In.prevSeq t, n), (In.intStart t, s.rd In.ms39), (In.dbgIntv t, s.rd Reg.SEC_DBG_STAT_STATE), (In.lastBytes t, 0),
      (In.closed t, b2n part)]

/-- Whether tenant `t` owns a region or a stack that no accepted release has taken (R471). -/
def ownsAny (s : State) (t : Nat) : Bool :=
  (List.range 32).any (fun r => s.rd (Reg.TEN_REGION_OWNER r) == t && !s.on (Reg.TEN_REGION_PEND r)) ||
    (List.range 12).any fun k => s.rd (Reg.TEN_STACK_OWNER k) == t && !s.on (Reg.TEN_STACK_PEND k)

/-- Whether tenant `t` gets a record at the end of an interval. -/
def metered (s : State) (t : Nat) : Bool := (List.range 7).any (fun c => s.on (In.meter c t)) || s.ownsAny t

/-- The end of an interval for every tenant, 0xFE last (R471). -/
def endIntervals (s : State) : State :=
  ((List.range 255).foldl (fun u t =>
    if u.metered t then u.closeInterval t false
    else u.wrs [(In.intStart t, u.rd In.ms39), (In.dbgIntv t, u.rd Reg.SEC_DBG_STAT_STATE), (In.closed t, 0)]) s).wr In.meterDue 0

/-- METERING_INTERVAL_END (R471): it runs on while domain 36 is stopped or the ring is full. -/
def intervalEnd (s : State) : State :=
  if !s.awake || s.meterFull then s.wr In.meterDue 1 else s.endIntervals

/-- METERING_RING_TAIL (R474): firmware frees entries; what the meter holds goes on. -/
def meterTail (s : State) (i : Nat) : State :=
  let s0 := s.wr Reg.TEN_MREC_TAIL_INDEX i
  let s1 := s0.meterFlush s0.meterq.length
  if s1.on In.meterDue && !s1.meterFull then s1.endIntervals else s1

/-- The counter tenant of a resource (R471): a resource that scrubs counts to 0xFE. -/
def meterOwner (s : State) (own pend : Fld) : Nat := if s.on pend then 0xFE else s.rd own

/-- Bytes of a VALID handle (R470). -/
def handleBytes (s : State) (r h : Nat) : Nat :=
  (if s.on (Reg.SP_HT_KIND r h) then 1 else 8) * s.rd (Reg.SP_HT_EXTENT r h)

/-- The byte and region counters of one millisecond (R470). -/
def meterHoldings (s : State) : State :=
  let s1 := (List.range 32).foldl (fun u r =>
    let o := u.meterOwner (Reg.TEN_REGION_OWNER r) (Reg.TEN_REGION_PEND r)
    if o = 0xFF then u else u.charge 1 o 1) s
  let s2 := (List.range 32768).foldl (fun u i =>
    let r := i / 1024
    let h := i % 1024
    if u.on (Reg.SP_HT_VALID r h) then u.charge 2 (u.rd (Reg.SP_HT_TENANT r h)) (u.handleBytes r h) else u) s1
  (List.range 12).foldl (fun u k =>
    let o := u.meterOwner (Reg.TEN_STACK_OWNER k) (Reg.TEN_STACK_PEND k)
    if o = 0xFF then u else u.charge 3 o hbmSize) s2

/-- Ozpel and host bytes of tenant `t` in the current interval. -/
def linkBytes (s : State) (t : Nat) : Nat := s.rd (In.meter 4 t) + s.rd (In.meter 5 t)

/-- The energy of one millisecond in µJ, divided as R473 says: regions, wakes as (region, µJ) to the tenant that woke it, stacks, and the
links with the Root cellar; the rest of `total` goes to 0xFE, as does what a resource that scrubs draws (R470, R471). ENERGY is kept in µJ. -/
def meterEnergy (s : State) (regions stackSet : List Nat) (wakes : List (Nat × Nat)) (links total : Nat) : State :=
  let bytes := (List.range 255).map fun t => s.linkBytes t - s.rd (In.lastBytes t)
  let all := bytes.foldl (· + ·) 0
  let parts := (regions.take 32).zipIdx.map (fun (q : Nat × Nat) => (s.meterOwner (Reg.TEN_REGION_OWNER q.2) (Reg.TEN_REGION_PEND q.2), q.1)) ++
    wakes.map (fun (q : Nat × Nat) => (s.rd (In.waker q.1), q.2)) ++
    (stackSet.take 12).zipIdx.map (fun (q : Nat × Nat) => (s.meterOwner (Reg.TEN_STACK_OWNER q.2) (Reg.TEN_STACK_PEND q.2), q.1)) ++
    (if all = 0 then [] else bytes.zipIdx.map fun (q : Nat × Nat) => (q.2, links * q.1 / all))
  let used := (parts.map (·.2)).foldl (· + ·) 0
  let s1 := ((parts ++ [(0xFE, total - used)]).foldl (fun (u : State) (q : Nat × Nat) => u.charge 6 q.1 q.2) s)
  (List.range 255).foldl (fun u t => u.wr (In.lastBytes t) (u.linkBytes t)) s1

/-- Rail faults within the last 60 s (R535). -/
def strikes (s : State) : Nat :=
  ((List.range 3).filter fun k => s.on (In.railAt k) && decide (s.rd In.wall + 1 < s.rd (In.railAt k) + 60000)).length

/-- What else each millisecond of domain 39 moves: the clocks of boot, snapshots, lockout, rail faults, partner lag and watchdogs
(R457, R487, R477, R535, R499, R446). -/
def msClocks (s : State) : State :=
  let now := s.rd In.ms39 + 1
  let s0 := s.wrs [(In.ms39, now), (In.wall, s.rd In.wall + 1)]
  let s1 := (s0.inc Reg.MOD_BOOT_MS 1).wrs [(Reg.SEC_DBG_FAIL_WAIT_S, cdiv (s.rd In.lockEnd - now) 1000),
    (Reg.HLT_RAIL_FAULT_STRIKES, s0.strikes)]
  let s2 := (List.range 8).foldl (fun u j => u.inc (Reg.SNP_JOB_ELAPSED_MS j) 1) s1
  let s3 := if s2.on In.lagOn then s2.wr Reg.SNP_PARTNER_LAG_S (min ((now - s2.rd In.lagFrom) / 1000) (2 ^ 24 - 1)) else s2
  if !s.awake then s3
  else (List.range 8).foldl (fun u c =>
    if u.on (Reg.MOD_WDT_EN c) && (u.rd Reg.MOD_CC_RUN_RUN).testBit c then u.wr (Reg.MOD_WDT_LEFT_MS c) (u.rd (Reg.MOD_WDT_LEFT_MS c) - 1)
    else u) s3

/-- METER_TICK (R470, R473). -/
def meterTick (s : State) (regions stackSet : List Nat) (wakes : List (Nat × Nat)) (links total : Nat) : State :=
  (s.msClocks.meterHoldings).meterEnergy regions stackSet wakes links total

/-! ### The partition table (R465 to R469) -/

/-- The owner write of a resource is accepted: a scrub runs, and the last resource of a tenant closes its interval (R471). -/
def beginScrub (s : State) (u old new : Nat) (own pend stat : Fld) : State :=
  let s1 := s.wrs [(pend, 1), (stat, 0), (In.asgOwner u, new), (In.asgWait u, 0)]
  if s.rd own = old ∧ old < 0xFE ∧ !s1.ownsAny old then s1.closeInterval old true else s1

/-- Why a write of TEN_REGION[r] is ignored: 0 when it is not (R468, R567). -/
def regionBusy (s : State) (r o : Nat) : Nat :=
  if (s.seq r).launch.isSome || (List.range 1024).any (fun h => s.on (Reg.SP_HT_BUSY r h)) || s.on (Reg.SP_ZERO_STAT_BUSY r) ||
      s.on (Reg.TEN_REGION_PEND r) || s.testing r then 1
  else if o = 0xFE then 2 else 0

/-- TEN_REGION_WRITE (R468). -/
def tenRegion (s : State) (r o : Nat) : State :=
  let old := s.rd (Reg.TEN_REGION_OWNER r)
  if old = o then s.wr (Reg.TEN_REGION_STATUS r) 0
  else if s.regionBusy r o ≠ 0 then s.wr (Reg.TEN_REGION_STATUS r) (s.regionBusy r o)
  else (s.beginScrub r old o (Reg.TEN_REGION_OWNER r) (Reg.TEN_REGION_PEND r) (Reg.TEN_REGION_STATUS r)).spZero r

/-- Whether an operation of the collective engine in flight or queued addresses stack `k`. -/
def stackInOp (s : State) (k : Nat) : Bool :=
  ((s.cols.filterMap (·.2)) ++ s.colQueue).any fun o => (launchStacks (s.opCtx o)).testBit k

/-- Why a write of TEN_STACK[k] is ignored (R469). -/
def stackBusy (s : State) (k : Nat) : Nat :=
  if s.stackInLaunch k || s.stackInOp k || s.rd (Reg.HBM_STAT_STATE k) == 4 || s.on (Reg.TEN_STACK_PEND k) then 1
  else if s.stackProtected k then 3
  else if s.poolInUse k then 4 else 0

/-- TEN_STACK_WRITE (R469). A LOST stack holds nothing to scrub, and its scrub ends all the same. -/
def tenStack (s : State) (k o : Nat) : State :=
  let old := s.rd (Reg.TEN_STACK_OWNER k)
  if old = o then s.wr (Reg.TEN_STACK_STATUS k) 0
  else if s.stackBusy k ≠ 0 then s.wr (Reg.TEN_STACK_STATUS k) (s.stackBusy k)
  else (s.beginScrub (32 + k) old o (Reg.TEN_STACK_OWNER k) (Reg.TEN_STACK_PEND k) (Reg.TEN_STACK_STATUS k)).hbmZero k

/-- The leaves of a region's requesters follow its owner (R465): its cluster ports and its two DMA channels. -/
def leavesFollow (s : State) (r : Nat) : State :=
  let o := s.rd (Reg.TEN_REGION_OWNER r)
  ((List.range 8).map (8 * (r % 8) + ·) ++ [64 + 2 * (r % 8), 65 + 2 * (r % 8)]).foldl
    (fun u n => u.wr (Reg.ARB_REQ_CFG_TENANT (r / 8) n) o) s

/-- A resource's new owner takes effect (R468, R471): a closed interval of that tenant starts again, and the TEN_ASSIGN that
waited is answered. -/
def endScrub (s : State) (u : Nat) (own pend : Fld) : State :=
  let o := s.rd (In.asgOwner u)
  let s1 := (s.wrs [(own, o), (pend, 0)]).inc Reg.TEN_ZERO_CNT_COUNT 1
  let s2 := if s1.on (In.closed o) then
      s1.wrs [(In.closed o, 0), (In.intStart o, s1.rd In.ms39), (In.dbgIntv o, s1.rd Reg.SEC_DBG_STAT_STATE)] else s1
  if s2.on (In.asgWait u) then (s2.wr (In.asgWait u) 0).fwReply (s2.rd (In.asgFlow u)) (s2.rd (In.asgTag u)) 0 [] else s2

/-- REASSIGN_DONE (R468, R469): the scrub of region u or of stack u − 32 ends. -/
def reassignDone (s : State) (u : Nat) : State :=
  if u < 32 then
    if !s.on (Reg.TEN_REGION_PEND u) then s
    else
      let s1 := s.zeroDone u
      let s2 := (List.range 1024).foldl (fun t h => t.wrs [(Reg.SP_HT_VALID u h, 0), (Reg.SP_HT_TENANT u h, 0xFF)]) s1
      let s3 := s2.zeros ((List.range 64).map (Reg.SQ_EVT_VALUE u))
      (s3.endScrub u (Reg.TEN_REGION_OWNER u) (Reg.TEN_REGION_PEND u)).leavesFollow u
  else
    let k := u - 32
    if !s.on (Reg.TEN_STACK_PEND k) then s
    else (s.hbmZeroDone k).endScrub u (Reg.TEN_STACK_OWNER k) (Reg.TEN_STACK_PEND k)

/-- The reply of TEN_ASSIGN after an owner write: at once, or once the scrub has ended (Table 18.7). -/
def assignReply (s : State) (f tag u : Nat) (pend stat : Fld) : State :=
  if s.rd stat ≠ 0 then s.fwReply f tag (0x1F + s.rd stat) []
  else if s.on pend then s.wrs [(In.asgWait u, 1), (In.asgFlow u, f), (In.asgTag u, tag)]
  else s.fwReply f tag 0 []

/-- TEN_ASSIGN (R479): an unchanged owner is answered at once. An index that names no region, stack or share changes nothing and is
answered with a status that the spec leaves open (log 141). -/
def tenAssign (s : State) (f tag kind i v : Nat) : State :=
  let none' := s.fwReply f tag (Config.assignStatus kind i).toNat []
  match kind with
  | 0 => if 32 ≤ i then none'
         else if s.rd (Reg.TEN_REGION_OWNER i) = v % 256 then (s.tenRegion i (v % 256)).fwReply f tag 0 []
         else (s.tenRegion i (v % 256)).assignReply f tag i (Reg.TEN_REGION_PEND i) (Reg.TEN_REGION_STATUS i)
  | 1 => if 12 ≤ i then none'
         else if s.rd (Reg.TEN_STACK_OWNER i) = v % 256 then (s.tenStack i (v % 256)).fwReply f tag 0 []
         else (s.tenStack i (v % 256)).assignReply f tag (32 + i) (Reg.TEN_STACK_PEND i) (Reg.TEN_STACK_STATUS i)
  | 2 => if 254 ≤ i then none' else (s.wr (Reg.TEN_SHARE_SHARE i) v).fwReply f tag 0 []
  | _ => none'

end State
end Sys2Proof.Machine
end

