-- ==== Sys2Proof/Machine/Reset.lean ====
section
/-!
DEFINITION. Resets (R447 to R449), what each reset and each power state keeps (Table 17.2, R513, R514), watchdogs, parity and table
faults (R440 to R446).
-/

namespace Sys2Proof.Machine

/-- First memory key of the Root cellar's snapshot partition. The store is no part of the address map; the model keys its bytes in a
range of its own (log 5). -/
def flashB : Nat := 0x050000000000
/-- First memory key of its boot partition. -/
def bootB : Nat := 0x070000000000

namespace In
/-- R453: ACTIVE of the boot state record, 0 FW_A, 1 FW_B. -/
def bsActive : Fld := fld 34 0 1 0
/-- TRIAL of the boot state record. -/
def bsTrial : Fld := fld 35 0 1 0
/-- TRIES of the boot state record. -/
def bsTries : Fld := fld 36 0 2 0
/-- R535: the power event record that waits in the configuration area: 0 RAIL, 1 KIND, 2 VALID. -/
def railRec (k : Nat) : Fld := fld 41 k 8 0
/-- R569: the TAP's instruction register. -/
def tapIr : Fld := fld 42 0 8 2
/-- R572: the boundary register's update stage. -/
def tapCells : Fld := fld 43 0 242 0
/-- R535: 1 from the third rail fault within 60 s until MOD_RESET_N is pulsed low. -/
def stuck : Fld := fld 44 0 1 0
/-- R534: PWR_GOOD as the module releases it. -/
def pwrGood : Fld := fld 45 0 1 1
/-- R554: the die rails are off after a die trip. -/
def dieOff (d : Nat) : Fld := fld 62 d 1 0
/-- R551: ALERT_SRC bits that no register holds: 0 warm reset, 1 floor, 2 probe match, 4 an open strap, 7 thermal trip, and as bit 8
the halt in the boot ROM. -/
def alert (k : Nat) : Fld := fld 58 k 1 0
/-- R553: ALERT_SRC bit 6 as die d holds it. -/
def alertHot (d : Nat) : Fld := fld 63 d 1 0
/-- Hottest junction of die d (4: the IOD) at the last tick, °C, two's complement (R552). -/
def hottest (d : Nat) : Fld := fld 59 d 16 0
/-- R308: the program counter of core c; at reset the first word of the boot ROM (R443). -/
def pc (c : Nat) : Fld := fld 31 c 64 romB
/-- R308: general register n of core c. -/
def gpr (c n : Nat) : Fld := fld 84 (32 * c + n) 64 0
/-- R310, R511: 1 while core c waits, 2 while its WAIT enters a power state. -/
def ccWait (c : Nat) : Fld := fld 85 c 2 0
/-- R442: 1 when core c has stopped on a parity error. -/
def ccStop (c : Nat) : Fld := fld 86 c 1 0
/-- R455: 1 when a RESET command waits for its reply to leave. -/
def softDue : Fld := fld 87 0 1 0
/-- R515: 1 while the boot chain runs without a reset. -/
def exitBoot : Fld := fld 30 0 1 0
/-- R456: 1 once the module has reported ready or entered recovery. -/
def reported : Fld := fld 83 0 1 0
/-- R515: stacks that Cold frame retained. -/
def kept : Fld := fld 64 0 12 0
/-- R517: 1 when a wake source has started the exit. -/
def wakeDue : Fld := fld 65 0 1 0
end In

/-- Bit addresses of the bytes from `a` to `a + n − 1` of the address map. -/
def inBytes (k a n : Nat) : Bool := decide (8 * a ≤ k) && decide (k < 8 * (a + n))

/-- Whether the register key belongs to an internal field of kinds `lo` to `hi − 1`. -/
def inKinds (k lo hi : Nat) : Bool := inBytes k (Reg.intB + 0x100000 * lo) (0x100000 * (hi - lo))

/-- Fuses, straps and the live levels of pins. -/
def fusedRegs : List Fld :=
  [Reg.SEC_DBG_KEYSET_KEYS, Reg.SEC_DBG_KEYSET_PWD, Reg.SEC_FW_REVOKE_KEYS, Reg.MOD_SVN_MIN, Reg.MOD_STRAP_SLOT_ID, Reg.MOD_STRAP_MGR_EN,
    Reg.MOD_STRAP_FEED_ID, Reg.COL_ROLE_MGR_EN, Reg.HLT_PIN_FAULT_SLOT_OPEN, Reg.HLT_PIN_FAULT_MGR_OPEN, Reg.HLT_PIN_FAULT_FEED_OPEN,
    Reg.HLT_FEED_A_USED, Reg.HLT_FEED_B_USED, Reg.HLT_FEED_A_INRANGE, Reg.HLT_FEED_B_INRANGE, Reg.HLT_FEED_A_ISO, Reg.HLT_FEED_B_ISO,
    Reg.HLT_FEED_PRES, Reg.HTP_STAT_REFCLK] ++ (List.range 6).map Reg.OZL_STAT_REFCLK

/-- Registers that every reset keeps: fuses, straps, pins and the Root cellar. -/
def keepCold (k : Nat) : Bool := inKinds k 32 48 || fusedRegs.any fun f => f.bit == k

/-- Registers of domain 39 outside the PWR_ and HLT_ blocks (R447, R457, R477, R514). -/
def alwaysOnRegs : List Fld :=
  [Reg.MOD_RESET_CAUSE_POR, Reg.MOD_RESET_CAUSE_PIN, Reg.MOD_RESET_CAUSE_WDT, Reg.MOD_RESET_CAUSE_CORE, Reg.MOD_RESET_CAUSE_PARITY,
    Reg.MOD_RESET_CAUSE_IOD, Reg.MOD_RESET_CAUSE_SOFT, Reg.MOD_RESET_CAUSE_BOOT, Reg.MOD_READY_STATUS, Reg.MOD_READY_REGIONS_MASK,
    Reg.MOD_READY_STACKS_MASK, Reg.SEC_DBG_FAIL_COUNT, Reg.SEC_DBG_FAIL_WAIT_S, Reg.TEN_MREC_BASE_ADDR, Reg.TEN_MREC_SIZE_ENTRIES,
    Reg.TEN_MREC_HEAD_INDEX, Reg.TEN_MREC_TAIL_INDEX, Reg.TEN_MSEQ_LO, Reg.TEN_MSEQ_HI]

/-- Registers that a warm reset keeps: domain 39, with the PWR_ and HLT_ blocks (R523, R578). -/
def keepWarm (k : Nat) : Bool :=
  keepCold k || inKinds k 48 80 || inBytes k (Reg.iodB + 0x10000) 0x20000 || alwaysOnRegs.any fun f => f.bit == k

/-- Registers that Cold frame keeps (R514): domain 39 with SEC_DBG_STAT, and the IOD retention array. -/
def keepFrame (k : Nat) : Bool :=
  keepWarm k || [Reg.SEC_DBG_STAT_STATE, Reg.SEC_DBG_STAT_EVER].any (fun f => f.bit == k) ||
    inBytes k (Reg.iodB + 0x40000) 0x800 || inBytes k (Reg.iodB + 0xC0000) 0x20000 || inBytes k (Reg.iodB + 0xA1000) 0x2000 ||
    (List.range 8).any (fun j => [Reg.SNP_JOB_CFG_VALID j, Reg.SNP_JOB_CFG_VERIFY j, Reg.SNP_JOB_CFG_LOSS_FMT j, Reg.SNP_JOB_CFG_TENANT j,
      Reg.SNP_JOB_CFG_JOB j].any fun f => f.bit == k) ||
    (List.range 32).any (fun r => inBytes k (Reg.regionB r + 0x4000) 0x4000) ||
    (List.range 256).any fun c => inBytes k (Reg.clusterB c + 0x400) 0x100 || inBytes k (Reg.clusterB c + 0x10000) 0x10000

namespace State

/-- `n` bytes of memory or of the Root cellar from key `k`. -/
def cellar (s : State) (k n : Nat) : List Nat := (List.range n).map fun i => s.memGet (k + i)

/-- The state with nothing left but the registers that `keep` names, the Root cellar, and the model's own counters. -/
def bare (s : State) (keep : Nat → Bool) : State :=
  { State.reset with
    pending := s.pending, regs := s.regs.filter fun p => keep p.1, mem := s.mem.filter fun p => decide (flashB ≤ p.1),
    wid := s.wid, free := s.free }

/-- The temperature of die `d` (4: the IOD) at the last tick, °C. -/
def hot (s : State) (d : Nat) : Int := sext 16 (s.rd (In.hottest d))

/-- R554: at a reset, a tripped die of `s` whose hottest sensor reads above 85 °C stays off, its islands stopped. -/
def keepTrips (t s : State) : State :=
  (List.range 4).foldl (fun u d =>
    if s.on (In.dieOff d) && decide (85 < s.hot d) then
      (List.range 8).foldl (fun v i => v.wr (Reg.CLK_ISL_STATE (8 * d + i)) 2) (u.wrs [(In.dieOff d, 1), (In.hottest d, s.rd (In.hottest d))])
    else u.wr (In.dieOff d) 0) t

/-- A cold reset (R447): everything but the Root cellar, fuses, straps and pins at its reset value; TEN_MSEQ restarts at the stored
mark (R472). -/
def coldReset (s : State) : State :=
  ((s.bare keepCold).wrs [(In.hold, s.rd In.hold - s.rd In.hold / 16 * 16), (Reg.TEN_MSEQ_LO, s.rd In.mark),
    (Reg.TEN_MSEQ_HI, s.rd In.mark / 2 ^ 32)]).keepTrips s

/-- What a state without domains 0 to 38 keeps of domain 39: its registers, the meter's held records, the risk windows. -/
def alwaysOn (s : State) (keep : Nat → Bool) : State :=
  { s.bare keep with
    signq := s.signq.filter (fun q => match q with | .meter _ => true | _ => false), meterq := s.meterq, buckets := s.buckets }

/-- A warm reset's HBM and scratchpad contents: undefined, so free (R447, log 6). -/
def lostMem (n : Nat) (mem : List Host.Cell) : List Host.Cell :=
  (Config.lostCells n).foldl (fun m q =>
    if q.1 < 12 * 2 ^ 36 ∧ q.1 % 2 ^ 36 < hbmSize ∨ spBase ≤ q.1 ∧ q.1 < spBase + 256 * spWin then
      Tbl.set 0 m q.1 q.2
    else m) mem

/-- The accumulator tiles of clusters at reset, with the same contents. -/
def lostTiles (n : Nat) : Tbl Clu :=
  (Config.lostAcc n).foldl (fun t q =>
    let c := q.1 % 256
    let m := q.2.1 % 4
    let i := q.2.2.1 % 4
    let x := Tbl.get Clu.empty t c
    let mu := Tbl.get Mu.empty x.mus m
    let a := Tbl.get AccTile.zero mu.tiles i
    let a' : AccTile := { a with vals := Tbl.set 0 a.vals (q.2.2.2.1 % 4096) q.2.2.2.2.toNat }
    Tbl.set Clu.empty t c { x with mus := Tbl.set Mu.empty x.mus m { mu with tiles := Tbl.set AccTile.zero mu.tiles i a' } }) []

/-- Debug access returns to LOCKED without a command: its event is logged (R478). -/
def relockEvent (s : State) : State := if s.on Reg.SEC_DBG_STAT_STATE then (s.relock).debugEvent 3 0 else s

/-- A warm reset (R447, R448, R523): the cause recorded, ALERT_N asserted; HBM, scratchpad and accumulator contents are open. -/
def warmReset (s : State) (cause : Fld) (core : Option Nat) : State :=
  let s0 := s.relockEvent.alwaysOn keepWarm
  let s1 : State := { s0 with mem := lostMem s.free s0.mem, clus := lostTiles s.free, free := s.free + 1 }
  let s2 := s1.wrs [(cause, 1), (In.alert 0, 1), (In.alert 7, 0), (Reg.PWR_MODE_REQ, 0), (Reg.PWR_RGATE_REQ, 0)]
  let s3 := match core with | some c => s2.wr Reg.MOD_RESET_CAUSE_CORE c | none => s2
  let s4 := (setBits (s3.rd Reg.PWR_RSTATE_GATED) 32).foldl (fun t r => t.wr (Reg.CLK_ISL_STATE r) 1) s3
  let s5 := s4.keepTrips s
  s5.wr In.causeBoot s5.causeWord

/-- Straps as sampled (R9, R541): values and open pins. -/
structure Straps where
  slotId   : Nat
  mgrEn    : Nat
  feedId   : Nat
  slotOpen : Nat
  mgrOpen  : Nat
  feedOpen : Nat
  deriving DecidableEq, Repr

/-- The straps taken: an open pin reads 1, except MGR_EN, which reads 0, and is a pin fault (R551). -/
def takeStraps (s : State) (x : Straps) : State :=
  let mgr := if x.mgrOpen = 1 then 0 else x.mgrEn
  s.wrs [(Reg.MOD_STRAP_SLOT_ID, x.slotId ||| x.slotOpen), (Reg.MOD_STRAP_MGR_EN, mgr), (Reg.MOD_STRAP_FEED_ID, x.feedId ||| x.feedOpen),
    (Reg.COL_ROLE_MGR_EN, mgr), (Reg.HLT_PIN_FAULT_SLOT_OPEN, x.slotOpen), (Reg.HLT_PIN_FAULT_MGR_OPEN, x.mgrOpen),
    (Reg.HLT_PIN_FAULT_FEED_OPEN, x.feedOpen), (In.alert 4, b2n (x.slotOpen != 0 || x.mgrOpen != 0 || x.feedOpen != 0))]

/-- MOD_RESET_N low (R448): cold reset for as long as it lasts. It ends off (R518) and a module kept down by rail faults may rise
again (R535). -/
def resetLow (s : State) : State :=
  let h := s.rd In.hold
  let s1 := s.coldReset
  let s2 := s1.wr In.hold (1 + (h / 2 % 4) * 2)
  if h / 8 % 2 = 1 then s2.wrs [(In.pwrGood, 1), (In.stuck, 0)] else s2.wr In.stuck 0

/-- COLD_RESET_RELEASE (R447): MOD_RESET_N high again; straps sampled, cause PIN, and boot stage 0 follows unless something else
holds the module. -/
def resetHigh (s : State) (x : Straps) : State :=
  if (s.rd In.hold).testBit 0 then
    let s1 := ((s.coldReset).takeStraps x).wrs [(In.hold, s.rd In.hold / 2 % 4 * 2), (Reg.MOD_RESET_CAUSE_PIN, 1)]
    s1.wr In.causeBoot s1.causeWord
  else s

/-- Whether the frames handed to the host port have left. -/
def egressIdle (s : State) : Bool := (s.link 6).outq.isEmpty || !s.on Reg.HTP_STAT_LINK

/-- MOD_RESET_CTL.WARM written (R447): the request. -/
def resetCtl (s : State) : State := s.wr Reg.MOD_RESET_CTL_WARM 1

/-- WARM_RESET (R447, R455): the warm reset that MOD_RESET_CTL.WARM or a RESET command has requested, with cause SOFT; that of the
command after its reply has left. -/
def warmRequested (s : State) : State :=
  if s.on Reg.MOD_RESET_CTL_WARM || s.on In.softDue && s.egressIdle then s.warmReset Reg.MOD_RESET_CAUSE_SOFT none else s

/-- Whether core `c` is released. -/
def released (s : State) (c : Nat) : Bool := (s.rd Reg.MOD_CC_RUN_RUN).testBit c

/-- WATCHDOG_EXPIRY (R446): the count of an armed watchdog of a released core has reached PERIOD. -/
def wdtExpiry (s : State) (c : Nat) : State :=
  if s.on (Reg.MOD_WDT_EN c) && s.released c then s.warmReset Reg.MOD_RESET_CAUSE_WDT (some c) else s

/-- PERIOD of a watchdog; 0 acts as 1. -/
def wdtPeriod (s : State) (c : Nat) : Nat := max 1 (s.rd (Reg.MOD_WDT_PERIOD c))

/-- MOD_WDT_KICK (R446). -/
def wdtKick (s : State) (c key : Nat) : State := if key = 0x5A then s.wr (Reg.MOD_WDT_LEFT_MS c) (s.wdtPeriod c) else s

/-- MOD_WDT written with EN (R446): armed until the next reset. -/
def wdtArm (s : State) (c period : Nat) : State :=
  let s1 := s.wr (Reg.MOD_WDT_PERIOD c) period
  if s1.on (Reg.MOD_WDT_EN c) then s1 else (s1.wr (Reg.MOD_WDT_EN c) 1).wr (Reg.MOD_WDT_LEFT_MS c) (s1.wdtPeriod c)

/-- CORE_PARITY_ERROR (R442). The reset comes first and the count is taken after it, so that the error is counted. -/
def coreParity (s : State) (c : Nat) : State :=
  let n := satAdd 32 (s.rd Reg.MOD_CC_PARITY_COUNT) 1
  (s.warmReset Reg.MOD_RESET_CAUSE_PARITY (some c)).wr Reg.MOD_CC_PARITY_COUNT n

/-- IOD_FAULT (R442). -/
def iodFault (s : State) : State := s.warmReset Reg.MOD_RESET_CAUSE_IOD none

/-- CSRAM_SCRUB (R440): single errors corrected and counted; a double one stays for the load that meets it. -/
def csramScrub (s : State) : State :=
  let one := s.csErr.filter fun p => p.2 == 1
  ({ s with csErr := s.csErr.filter fun p => p.2 != 1 } : State).inc Reg.MOD_CSRAM_CE_COUNT one.length

/-- A core held in reset: its state at reset values (R443). -/
def coreReset (s : State) (c : Nat) : State :=
  { s with regs := s.regs.filter fun p =>
      !(inBytes p.1 (Reg.coreB c) 0x10000 || (p.1 == (In.pc c).bit) || (p.1 == (In.ccWait c).bit) || (p.1 == (In.ccStop c).bit) ||
        (List.range 32).any fun n => p.1 == (In.gpr c n).bit) }

/-- MOD_CC_RUN (R443). -/
def ccRun (s : State) (mask : Nat) : State :=
  (List.range 8).foldl (fun t c => if mask.testBit c then t else t.coreReset c) (s.wr Reg.MOD_CC_RUN_RUN mask)

end State
end Sys2Proof.Machine
end

