-- ==== Sys2Proof/Machine/Boot.lean ====
section
/-!
DEFINITION. The boot chain (R450 to R454, R456), firmware images and their update (R451, R455).
-/

namespace Sys2Proof.Machine

/-- Places of the boot partition: 0 BS0, 1 BS1, 2 FW_A, 3 FW_B. -/
def imagePlace (i : Nat) : Nat := bootB + (match i with | 0 => 0 | 1 => 0x400000 | 2 => 0x800000 | _ => 0x4800000)

/-- Bytes of a place (R450). -/
def imageRoom (i : Nat) : Nat := if i < 2 then 0x400000 else 0x4000000

namespace State

/-- A little-endian field of `n` bytes of a place's header. -/
def imgField (s : State) (i off n : Nat) : Nat := ofLe (s.cellar (imagePlace i + off) n)

/-- DIGEST of the image in a place. -/
def imgDigest (s : State) (i : Nat) : List Nat := s.cellar (imagePlace i + 64) 64

/-- Whether a place holds a valid image (R451). -/
def imgValid (s : State) (i : Nat) : Bool :=
  let b := imagePlace i
  let len := s.imgField i 16 4
  let kk := s.imgField i 4 1
  let idx := kk / 16
  let key := s.cellar (b + 256 + Config.imageKeyPlace) 57
  s.imgField i 0 4 == 0x49565846 && kk % 16 == (if i < 2 then 1 else 2) && decide (256 + len ≤ imageRoom i) &&
    s.imgDigest i == Config.shake256 (s.cellar b 64 ++ s.cellar (b + 256) len) 64 && decide (idx < 4) &&
    !(s.rd Reg.SEC_FW_REVOKE_KEYS).testBit idx && ofLe (Config.shake256 key 64) % 2 ^ 512 == (Config.fuseImageKey idx).toNat &&
    Config.ed448Verify key [] (s.imgDigest i) (s.cellar (b + 128) 114) && decide (s.rd Reg.MOD_SVN_MIN ≤ s.imgField i 12 1)

/-- An image copied from HBM into a place. -/
def imgCopy (s : State) (i a n : Nat) : State := { s with mem := Tbl.copy 0 s.mem a (imagePlace i) n }

/-- The inactive firmware slot's place. -/
def inactive (s : State) : Nat := 3 - s.rd In.bsActive

/-- FW_WRITE (R455): target 0 the inactive slot, 1 the first stage, which goes to BS1 and, verified, to BS0. A source that HBM does
not give is no valid image. -/
def fwWrite (s : State) (f tag target a n : Nat) : State :=
  if !s.flowMgmt f then s.fwReply f tag 1 []
  else
    let i := if target = 0 then s.inactive else 1
    if target = 0 ∧ s.on In.bsTrial then s.fwReply f tag 0x12 []
    else if imageRoom i < n then s.fwReply f tag 0x10 []
    else
      let y := s.hbmRead a n true
      if y.2.1 ≠ 0 then y.1.fwReply f tag 0x11 []
      else
        let s1 := y.1.imgCopy i a n
        if !s1.imgValid i then s1.fwReply f tag 0x11 []
        else (if target = 0 then s1 else s1.imgCopy 0 a n).fwReply f tag 0 []

/-- FW_ACTIVATE (R455). -/
def fwActivate (s : State) (f tag : Nat) : State :=
  if !s.flowMgmt f then s.fwReply f tag 1 []
  else if s.on In.bsTrial then s.fwReply f tag 0x12 []
  else if !s.imgValid s.inactive then s.fwReply f tag 0x11 []
  else (s.wrs [(In.bsTrial, 1), (In.bsTries, 0), (Reg.MOD_BOOT_TRIES, 0)]).fwReply f tag 0 []

/-- FW_CONFIRM (R455). -/
def fwConfirm (s : State) (f tag : Nat) (raiseSvn : Bool) : State :=
  if !s.flowMgmt f then s.fwReply f tag 1 []
  else if !s.on In.bsTrial then s.fwReply f tag 0 []
  else
    let run := s.rd Reg.MOD_BOOT_SLOT
    let s1 := s.wrs [(In.bsActive, run), (In.bsTrial, 0), (In.bsTries, 0), (Reg.MOD_BOOT_TRIAL, 0), (Reg.MOD_BOOT_TRIES, 0)]
    let s2 := if raiseSvn then s1.wr Reg.MOD_SVN_MIN (max (s1.rd Reg.MOD_SVN_MIN) (s1.imgField (2 + run) 12 1)) else s1
    s2.fwReply f tag 0 []

/-- RESET (R455): the reply, then a warm reset once it has left. -/
def resetCmd (s : State) (f tag : Nat) : State :=
  if !s.flowMgmt f then s.fwReply f tag 1 [] else (s.fwReply f tag 0 []).wr In.softDue 1

/-! ### The chain -/

/-- A digest that a verifier accepted: it extends register m, which locks (R463). -/
def measured (s : State) (m : Nat) (d : List Nat) : State := (s.measExtend m d).measLock (2 ^ m)

/-- Stage 0 (R446, R452): the ROM arms CC0's watchdog, and takes BS0, or BS1, or halts. -/
def bootRom (s : State) : State :=
  let s1 := s.wrs [(Reg.MOD_WDT_PERIOD 0, 1000), (Reg.MOD_WDT_EN 0, 1), (Reg.MOD_WDT_LEFT_MS 0, 1000)]
  match firstBelow 2 s1.imgValid with
  | none => s1.wrs [(Reg.MOD_BOOT_STAGE, 15), (In.alert 8, 1), (In.hold, s1.rd In.hold ||| 16)]
  | some i => (s1.measured 0 (s1.imgDigest i)).wrs
      [(In.fsVersion, s1.imgField i 8 4), (In.pc 0, s1.imgField i 20 8), (Reg.MOD_BOOT_STAGE, 1)]

/-- The slot that the first stage chooses (R453), with the boot state record and ROLLED_BACK as it leaves them. -/
def chooseSlot (s : State) : State × Nat :=
  if s.on In.bsTrial ∧ s.rd In.bsTries < 3 then (s.wr In.bsTries (s.rd In.bsTries + 1), 1 - s.rd In.bsActive)
  else if s.on In.bsTrial then (s.wrs [(In.bsTrial, 0), (Reg.MOD_BOOT_ROLLED_BACK, 1)], s.rd In.bsActive)
  else (s, s.rd In.bsActive)

/-- A management flow entry of the configuration area: flow, port, window, host. -/
structure BootFlow where
  flow   : Nat
  port   : Nat
  window : Nat
  host   : Nat
  deriving DecidableEq, Repr

/-- The management flows of the configuration area taken into the flow table. -/
def bootFlows (s : State) (fs : List BootFlow) : State :=
  fs.foldl (fun t x => t.flowWrite x.flow 1 1 0 0xFE x.port x.window x.host) s

/-- The host port enabled. -/
def hostEnable (s : State) : State := (s.wr Reg.HTP_CTL_EN 1).hostUp

/-- Stage 1 (R453, R454): the chosen slot is loaded into CSRAM and verified, or the other one; else recovery. -/
def bootFirst (s : State) (fs : List BootFlow) : State :=
  let c := s.chooseSlot
  let s1 := c.1
  let run := fun (i : Nat) =>
    let n := min (s1.imgField (2 + i) 16 4) (0x800000 - Config.loadOffset % 0x800000)
    let s2 : State := { s1 with mem := Tbl.copy 0 s1.mem (imagePlace (2 + i) + 256) (csramB + Config.loadOffset % 0x800000) n }
    (s2.measured 1 (s2.imgDigest (2 + i))).wrs [(Reg.MOD_BOOT_SLOT, i), (Reg.MOD_BOOT_TRIAL, b2n (s2.on In.bsTrial && i != s2.rd In.bsActive)),
      (Reg.MOD_BOOT_TRIES, s2.rd In.bsTries), (Reg.MOD_FW_VER_VERSION, s2.imgField (2 + i) 8 4), (In.pc 0, s2.imgField (2 + i) 20 8),
      (Reg.MOD_BOOT_STAGE, 2)]
  if s1.imgValid (2 + c.2) then run c.2
  else if s1.imgValid (2 + (1 - c.2)) then run (1 - c.2)
  else ((s1.bootFlows fs).hostEnable).wrs [(Reg.MOD_BOOT_STAGE, 8), (Reg.MOD_READY_STATUS, 3), (In.reported, 1)]

/-- Stage 2 (R120, R463): cores released, the remap tables and every other record of the configuration area loaded. -/
def bootFirmware (s : State) (records : List (List Nat)) (remaps : List (Nat × Nat × Nat × Nat)) : State :=
  let s1 := records.foldl (fun t r => t.measExtend 2 (Config.shake256 r 64)) (s.wr Reg.MOD_CC_RUN_RUN 0xFF)
  let s2 := remaps.foldl (fun t x => t.remapWrite x.1 x.2.1 x.2.2.1 x.2.2.2 1) s1
  (s2.measLock 4).wr Reg.MOD_BOOT_STAGE 3

/-- Stage 3 (R452, R515): every stack trained and zeroised, but a stack that Cold frame kept leaves self-refresh with its contents.
Bits 2:0 of a stack's number say which rates pass (R327). -/
def bootStacks (s : State) (passes : List Nat) : State :=
  ((List.range 12).foldl (fun t k =>
    if t.on In.exitBoot && (t.rd In.kept).testBit k then t.wr (Reg.HBM_STAT_STATE k) 2
    else if t.on (In.dieOff (k / 3)) then t.stackLost k
    else
      let t1 := t.stackTraining k (nth passes k)
      if t1.rd (Reg.HBM_STAT_STATE k) = 2 then (t1.zeroStack k).inc (Reg.HBM_ZERO_STAT_DONE_CNT k) 1 else t1) s).wr
    Reg.MOD_BOOT_STAGE 4

/-- Stage 4: the Ozpel and host ports enabled. -/
def bootPorts (s : State) (fs : List BootFlow) : State :=
  (((List.range 6).foldl (fun t p => t.ozlEnable p) s).bootFlows fs).hostEnable.wr Reg.MOD_BOOT_STAGE 5

/-- One region's result at stage 5: a FULL test ends with zeroisation (R564, R566). -/
def bootTest (s : State) (r : Nat) (fail : Bool) : State :=
  let bad := fail || s.on (In.dieOff (r / 8))
  let s1 := (((s.noteWaker r 0xFE).wakeRegion r).zeroRegion r).wrs [(Reg.HLT_STEST_RES_RESULT r, if bad then 2 else 1), (In.testBad r, b2n bad)]
  if bad then s1.hltLog 7 r 2 else s1

/-- Stage 5: region self-test, which an exit from Cold frame skips (R515). -/
def bootTests (s : State) (failed : Nat) : State :=
  (if s.on In.exitBoot then s
   else (List.range 32).foldl (fun t r => t.bootTest r (failed.testBit r))
     (s.wrs [(Reg.HLT_STEST_STAT_PEND, 0), (Reg.HLT_STEST_STAT_RUN, 0)])).wr Reg.MOD_BOOT_STAGE 6

/-- The mask of numbers below `n` that satisfy `p`. -/
def maskOf (n : Nat) (p : Nat → Bool) : Nat := ((List.range n).map fun i => if p i then 2 ^ i else 0).foldl (· + ·) 0

/-- Stage 6 (R456): MOD_READY and the readiness report on every management flow. A stack that is LOST, a region that failed, or an
unprogrammed capacity fuse (R457) makes the module degraded. -/
def bootReady (s : State) : State :=
  if s.on In.reported then s
  else
    let stackSet := maskOf 12 fun k => s.rd (Reg.HBM_STAT_STATE k) == 2
    let regions := if s.on In.exitBoot then s.rd Reg.MOD_READY_REGIONS_MASK else maskOf 32 fun r => !s.on (In.testBad r)
    let cap := s.rd Reg.MOD_ID_CAP
    let ok := stackSet == 0xFFF && regions == 0xFFFFFFFF && (cap == 1 || cap == 2)
    let s1 := s.wrs [(Reg.MOD_READY_STATUS, if ok then 1 else 2), (Reg.MOD_READY_REGIONS_MASK, regions),
      (Reg.MOD_READY_STACKS_MASK, stackSet), (In.bootMs, s.rd Reg.MOD_BOOT_MS), (In.reported, 1), (In.exitBoot, 0), (Reg.PWR_STAT_STATE, 0)]
    (List.range 256).foldl (fun t f =>
      if t.on (Reg.HTP_FLOW_VALID f) && t.flowMgmt f then t.fwReply f 0 0 t.readyBytes else t) s1

/-- What a stage of the boot chain meets (Table 17.4): the records and remap tables of the configuration area, its management flows,
the rates that each stack passes, and the regions that fail self-test. -/
structure BootIn where
  records : List (List Nat)
  remaps  : List (Nat × Nat × Nat × Nat)
  flows   : List BootFlow
  passes  : List Nat
  failed  : Nat
  deriving DecidableEq, Repr

/-- BOOT_STAGE (R452): the current stage ends and the next one begins. -/
def bootStage (s : State) (x : BootIn) : State :=
  match s.rd Reg.MOD_BOOT_STAGE with
  | 0 => s.bootRom
  | 1 => s.bootFirst x.flows
  | 2 => s.bootFirmware x.records x.remaps
  | 3 => s.bootStacks x.passes
  | 4 => s.bootPorts x.flows
  | 5 => s.bootTests x.failed
  | 6 => s.bootReady
  | _ => s

/-- BOOT_LIMIT_EXPIRY (R452): not ready within the limit of the release of reset. -/
def bootLimit (s : State) : State :=
  if s.on In.reported || s.on In.exitBoot then s else s.warmReset Reg.MOD_RESET_CAUSE_BOOT none

end State
end Sys2Proof.Machine
end

