-- ==== Sys2Proof/Machine/Power.lean ====
section
/-!
DEFINITION. Module-wide power states (R511 to R520): the checks on entry, the drain, what is kept, wake sources, probes and the exit
from Cold frame.
-/

namespace Sys2Proof.Machine

namespace In
/-- R511: the core whose WAIT requested the module-wide state that is being entered. -/
def pwrCore : Fld := fld 66 0 3 0
end In

namespace State

/-- The first number below `n` that satisfies `p`, as a refuser of kind `kind` (Table 20.4). -/
def refuser (n : Nat) (p : Nat → Bool) (kind : Nat) (off : Nat) (die : Nat → Nat) : Option (Nat × Nat × Nat) :=
  (firstBelow n p).map fun i => (kind, off + i, die i)

/-- Whether a host operation of flow `f` is in progress: it heads the flow and has not been performed (R429). -/
def hostOp (s : State) (f : Nat) : Bool :=
  match (s.flow f).msgs with
  | m :: _ => decide (2 ≤ msgType m) && decide (msgType m ≤ 5)
  | [] => false

/-- The checks of Table 20.2 in order, for request `q` (1 Cold frame, 2 Soil probe, 3 off) of core `c`: the refuser as KIND, INDEX and
DIE. -/
def entryRefuser (s : State) (c q : Nat) : Option (Nat × Nat × Nat) :=
  let no := fun (_ : Nat) => 0
  refuser 8 (fun i => i != c && s.released i && !s.on (In.ccWait i)) 9 0 no <|>
  (if s.rd Reg.COL_ROLE_ROLE = 1 then some (3, 0, 0) else none) <|>
  refuser 8 (fun j => (Tbl.get none s.snaps j).isSome) 2 0 no <|>
  refuser 254 (fun t => s.tenantBit Reg.PWR_JOBS t && (List.range 32).any fun r => s.rd (Reg.TEN_REGION_OWNER r) == t) 1 0 no <|>
  refuser 32 (fun r => s.launches.any fun l => l.2.regions.testBit r) 4 0 (· / 8) <|>
  refuser 32 (fun i => (Tbl.get none s.cols i).isSome) 5 0 no <|>
  refuser 32 (fun r => s.on (Reg.SP_ZERO_STAT_BUSY r) || s.testing r) 8 0 (· / 8) <|>
  refuser 12 (fun k => s.rd (Reg.HBM_STAT_STATE k) == 4) 8 32 (· / 3) <|>
  refuser 256 s.hostOp 11 0 no <|>
  (if q = 1 then (refuser 4 (fun d => !(s.dirtyWays d (bitsOf (s.rd Reg.PWR_RET_STACK_MASK) (3 * d + 2) (3 * d))).isEmpty) 10 0 id).map
      fun w => (10, 0, w.2.2)
   else none)

/-- The oldest writer with a commitment into any bank (R513): every write on its way that no crossing holds. -/
def anyWriter (s : State) : Option (Nat × Nat × Nat) := s.oldestWriter (fun w => !s.closed (w.cl / 8) w) fun _ => true

/-- An entry that ends without the state: REQ returns to 0, the core's WAIT returns, and the refuser is counted and logged (R511,
R512, R521). -/
def entryEnds (s : State) (q : Nat) (w : Nat × Nat × Nat) (aborted : Bool) : State :=
  let s1 := (s.inc (if aborted then Reg.PWR_ABORTED_COUNT else Reg.PWR_REFUSED_COUNT) 1).pwrLog w.1 w.2.1 w.2.2 q 0 (b2n aborted)
  (s1.pwrMsg (if aborted then 2 else 1) 0).wrs [(Reg.PWR_MODE_REQ, 0), (Reg.PWR_STAT_STATE, 0)]

/-- Memory that a state keeps: the Root cellar, the stacks of a mask, and the banks that `bank` names by cluster and bank. -/
def keptMem (s : State) (stackSet : Nat) (bank : Nat → Nat → Bool) : List Host.Cell :=
  s.mem.filter fun p =>
    let k := p.1
    decide (flashB ≤ k) || decide (k < 12 * 2 ^ 36) && stackSet.testBit (k / 2 ^ 36) ||
      decide (spBase ≤ k) && decide (k < spBase + 256 * spWin) && bank ((k - spBase) / spWin) ((k - spBase) % spWin / 0x200000)

/-- Row keys of the banks that `bank` names. -/
def keptRows {α : Type} (t : Tbl α) (bank : Nat → Nat → Bool) : Tbl α :=
  t.filter fun p => decide (spBase ≤ p.1) && decide (p.1 < spBase + 256 * spWin) &&
    bank ((p.1 - spBase) / spWin) ((p.1 - spBase) % spWin / 0x200000)

/-- The region islands stopped (Table 13.1). -/
def islandsStop (s : State) : State := (List.range 32).foldl (fun t r => t.wr (Reg.CLK_ISL_STATE r) 2) s

/-- Cold frame (R513, R514): domains 0 to 38 stop with what is retained; every port sleeps and the host link is down. -/
def enterFrame (s : State) (stackSet : Nat) (bank : Nat → Nat → Bool) : State :=
  let s1 : State := { s.alwaysOn keepFrame with
    mem := s.keptMem stackSet bank
    spErr := keptRows s.spErr bank
    spPoison := keptRows s.spPoison bank
    poison := s.poison.filter fun p => stackSet.testBit (p.1 / 2 ^ 28)
    hbmErr := s.hbmErr.filter fun p => stackSet.testBit (p.1 / 2 ^ 36) }
  let s2 := (setBits stackSet 12).foldl (fun t k => t.wr (Reg.HBM_STAT_STATE k) 3) s1
  let s3 := (List.range 6).foldl (fun t p => t.wr (Reg.OZL_STAT_STATE p) 1) s2
  s3.islandsStop.wrs [(Reg.CLK_DOM_STAT_RUN, 0x80), (Reg.PWR_MODE_REQ, 0), (Reg.PWR_STAT_STATE, 2), (Reg.PWR_STAT_LAST, 1), (Reg.PWR_RGATE_REQ, 0),
    (In.kept, stackSet), (In.wakeDue, 0)]

/-- Soil probe (R505, R513): domain 39 alone, debug LOCKED. -/
def enterSoil (s : State) : State :=
  let s1 := s.relockEvent.alwaysOn keepWarm
  s1.islandsStop.wrs [(Reg.CLK_DOM_STAT_RUN, 0x80), (Reg.PWR_MODE_REQ, 0), (Reg.PWR_STAT_STATE, 3), (Reg.PWR_STAT_LAST, 2), (Reg.PWR_RGATE_REQ, 0),
    (In.kept, 0), (In.wakeDue, 0)]

/-- Off (R505, R518): the Root cellar alone, until MOD_RESET_N goes low or input power returns. -/
def enterOff (s : State) : State := (s.bare keepCold).islandsStop.wrs [(Reg.CLK_DOM_STAT_RUN, 0), (In.hold, 8), (In.pwrGood, 0)]

/-- ENTER_COLD_FRAME, ENTER_SOIL_PROBE and ENTER_OFF (R511 to R514): a core that executes WAIT with REQ = q. The checks come first;
then every bank's outstanding writes drain, and the entry completes once none is left. -/
def enter (s : State) (c q : Nat) : State :=
  if s.rd Reg.PWR_MODE_REQ ≠ q ∨ s.rd (In.ccWait c) ≠ 2 then s
  else
    let r := if s.rd Reg.PWR_STAT_STATE = 1 then none else s.entryRefuser c q
    match r with
    | some w => (s.entryEnds q w false).wrs [(In.ccWait c, 0), (Reg.MOD_CC_WAITCAUSE c, 16)]
    | none =>
      let s1 := s.wrs [(Reg.PWR_STAT_STATE, 1), (In.pwrCore, c)]
      if s1.anyWriter.isSome then s1
      else if q = 1 then
        s1.enterFrame (s1.rd Reg.PWR_RET_STACK_MASK) s1.retained
      else if q = 2 then s1.enterSoil
      else s1.enterOff

/-- ENTRY_DRAIN_TIMEOUT (R513): a bank's counter is still not 0, and the entry aborts. -/
def entryTimeout (s : State) : State :=
  match s.rd Reg.PWR_STAT_STATE, s.anyWriter with
  | 1, some w =>
    let c := s.rd In.pwrCore
    (s.entryEnds (s.rd Reg.PWR_MODE_REQ) w true).wrs [(In.ccWait c, 0), (Reg.MOD_CC_WAITCAUSE c, 16)]
  | _, _ => s

/-- Whether PWR_WAKE_EN enables a bit. -/
def wakeEnabled (s : State) (b : Nat) : Bool := (s.rd Reg.PWR_WAKE_EN).testBit b

/-- The exit starts from source `b` (R515, R517). -/
def wakeFrom (s : State) (b : Nat) : State :=
  (s.wrBit Reg.PWR_WAKE_SRC b true).wrs [(Reg.PWR_STAT_WAKE_BIT, b), (In.wakeDue, 1)]

/-- WAKE_SOURCE (R513, R519): an enabled source aborts an entry in progress, or starts the exit from Cold frame. -/
def wakeSource (s : State) (b : Nat) : State :=
  if !s.wakeEnabled b || s.on In.hold then s
  else
    match s.rd Reg.PWR_STAT_STATE with
    | 1 =>
      let c := s.rd In.pwrCore
      ((s.wrBit Reg.PWR_WAKE_SRC b true).entryEnds (s.rd Reg.PWR_MODE_REQ) (12, b, 0) true).wrs
        [(In.ccWait c, 0), (Reg.MOD_CC_WAITCAUSE c, 16)]
    | 2 => if s.on In.wakeDue then s.wrBit Reg.PWR_WAKE_SRC b true else s.wakeFrom b
    | _ => s

/-- WAKE_PIN_EDGE (R516): WAKE_A (0) or WAKE_B (1) is latched at any time, except in off. -/
def wakeEdge (s : State) (pin : Nat) : State := if s.rd In.hold / 8 % 2 = 1 then s else s.wrBit Reg.PWR_WAKE_SRC (20 + pin) true

/-- WAKE_PATTERN_DETECT and LINK_ACTIVITY_DETECT (R385, R519): a port in SLEEP counts what its detector sees, which is a wake source. -/
def ozlWake (s : State) (p : Nat) (pattern : Bool) : State :=
  if s.rd (Reg.OZL_STAT_STATE p) ≠ 1 then s
  else (s.inc (if pattern then Reg.OZL_WAKE_PATTERN p else Reg.OZL_WAKE_ACTIVITY p) 1).wakeSource ((if pattern then 8 else 0) + p)

/-- COLD_FRAME_EXIT (R515): the boot chain starts without a reset. -/
def frameExit (s : State) : State :=
  if s.rd Reg.PWR_STAT_STATE = 2 ∧ s.on In.wakeDue ∧ !s.on In.hold then
    let s1 := (List.range 6).foldl (fun t p => t.wr (Reg.OZL_STAT_STATE p) 0) s
    let s2 := (List.range 32).foldl (fun t r => t.wr (Reg.CLK_ISL_STATE r) (b2n (t.gated r))) s1
    s2.wrs [(Reg.CLK_DOM_STAT_RUN, 0xFF), (Reg.PWR_STAT_STATE, 4), (Reg.MOD_BOOT_STAGE, 0), (In.exitBoot, 1), (In.wakeDue, 0),
      (In.alert 2, 0)]
  else s

/-- One comparator's sample (R516): its value, and whether it matches. -/
def probeOne (s : State) (k v : Nat) : State × Bool :=
  let th := sext 16 (s.rd (Reg.PWR_PROBE_CMP_THRESH k))
  let m := match s.rd (Reg.PWR_PROBE_CMP_OP k) with
    | 1 => decide (th < sext 16 v)
    | 2 => decide (sext 16 v < th)
    | _ => false
  ((s.wr (Reg.PWR_PROBE_VAL_VALUE k) v).wr (Reg.PWR_PROBE_VAL_MATCH k) (if m then 1 else s.rd (Reg.PWR_PROBE_VAL_MATCH k)), m)

/-- The comparators that are on, sampled in order. -/
def probeAll (s : State) (vs : List Nat) : State × Bool :=
  (List.range 8).foldl (fun z k =>
    if z.1.rd (Reg.PWR_PROBE_CMP_OP k) = 1 ∨ z.1.rd (Reg.PWR_PROBE_CMP_OP k) = 2 then
      let y := z.1.probeOne k (nth vs k); (y.1, z.2 || y.2)
    else z) (s, false)

/-- SOIL_PROBE (R516, R517): the comparators' samples, and the mask of sources (Table 20.3) that the probe finds asserted: pins at
their level, and signal detects. An edge latch counts as its pin. -/
def soilProbe (s : State) (vs : List Nat) (seen : Nat) : State :=
  if s.rd Reg.PWR_STAT_STATE ≠ 3 ∨ s.on In.hold then s
  else
    let z := s.probeAll vs
    let latch := s.rd Reg.PWR_WAKE_SRC &&& 0x300000
    let srcs := (setBits ((seen &&& 0x0031003F) ||| latch) 22).filter s.wakeEnabled
    if !z.2 && srcs.isEmpty then z.1
    else
      let s1 := (z.1.enterFrame 0 fun _ _ => false).wr (In.alert 2) 1
      let s2 := srcs.foldl (fun t b => t.wrBit Reg.PWR_WAKE_SRC b true) s1
      let s3 := if z.2 then s2.wrBit Reg.PWR_WAKE_SRC 24 true else s2
      match srcs, z.2 && s.wakeEnabled 24 with
      | b :: _, _ => s3.wakeFrom b
      | [], true => s3.wakeFrom 24
      | [], false => s3

end State
end Sys2Proof.Machine
end

