-- ==== Sys2Proof/Machine/Elec.lean ====
section
/-!
DEFINITION. Feeds, rails, the power manager, thermal control, readback, SMBus and reference clocks (spec/21).
-/

namespace Sys2Proof.Machine

namespace In
/-- R536: the last measurements: 0 and 1 the voltages of feeds A and B in 0.1 V, two's complement; 2 the input power in W. -/
def meas (k : Nat) : Fld := fld 67 k 16 0
/-- R550: the last answer on SMBus: 0 its number of bytes, 0 for NACK; 1 its bytes, little-endian. -/
def smbus (k : Nat) : Fld := fld 68 k 64 0
end In

/-- The fields of HLT_FEED for feed `f` (0 A, 1 B). -/
def feedUsed (f : Nat) : Fld := if f = 0 then Reg.HLT_FEED_A_USED else Reg.HLT_FEED_B_USED
/-- INRANGE of feed `f`. -/
def feedIn (f : Nat) : Fld := if f = 0 then Reg.HLT_FEED_A_INRANGE else Reg.HLT_FEED_B_INRANGE
/-- ISO of feed `f`. -/
def feedIso (f : Nat) : Fld := if f = 0 then Reg.HLT_FEED_A_ISO else Reg.HLT_FEED_B_ISO
/-- The sticky bits of feed `f`: 0 REV, 1 LOSS, 2 OUT, 3 ISO. -/
def feedSticky (k f : Nat) : Fld :=
  match k with
  | 0 => if f = 0 then Reg.HLT_FEED_REV_A else Reg.HLT_FEED_REV_B
  | 1 => if f = 0 then Reg.HLT_FEED_LOSS_A else Reg.HLT_FEED_LOSS_B
  | 2 => if f = 0 then Reg.HLT_FEED_OUT_A else Reg.HLT_FEED_OUT_B
  | _ => if f = 0 then Reg.HLT_FEED_ISO_A else Reg.HLT_FEED_ISO_B

namespace State

/-- HLT_FEED as a word (Table 21.13). -/
def feedWord (s : State) : Nat :=
  ((List.range 2).map fun f => s.rd (feedUsed f) * 2 ^ (8 * f) + s.rd (feedIn f) * 2 ^ (8 * f + 1) + s.rd (feedIso f) * 2 ^ (8 * f + 2) +
    ((List.range 4).map fun k => s.rd (feedSticky k f) * 2 ^ (16 + 2 * k + f)).foldl (· + ·) 0).foldl (· + ·)
    (s.rd Reg.HLT_FEED_PRES * 2 ^ 24)

/-- HLT_PIN_FAULT as a word. -/
def pinWord (s : State) : Nat :=
  s.rd Reg.HLT_PIN_FAULT_SHORT_LO + s.rd Reg.HLT_PIN_FAULT_SHORT_HI * 2 ^ 4 + s.rd Reg.HLT_PIN_FAULT_SCL_STUCK * 2 ^ 8 +
    s.rd Reg.HLT_PIN_FAULT_SDA_STUCK * 2 ^ 9 + s.rd Reg.HLT_PIN_FAULT_SLOT_OPEN * 2 ^ 16 + s.rd Reg.HLT_PIN_FAULT_MGR_OPEN * 2 ^ 22 +
    s.rd Reg.HLT_PIN_FAULT_FEED_OPEN * 2 ^ 24

/-- Whether a sticky bit of HLT_PIN_FAULT is set. -/
def pinSticky (s : State) : Bool :=
  s.on Reg.HLT_PIN_FAULT_SHORT_LO || s.on Reg.HLT_PIN_FAULT_SHORT_HI || s.on Reg.HLT_PIN_FAULT_SCL_STUCK || s.on Reg.HLT_PIN_FAULT_SDA_STUCK

/-- HLT_RAIL_FAULT as a word. -/
def railWord (s : State) : Nat :=
  s.rd Reg.HLT_RAIL_FAULT_RAIL + s.rd Reg.HLT_RAIL_FAULT_KIND * 2 ^ 8 + s.rd Reg.HLT_RAIL_FAULT_STRIKES * 2 ^ 12 +
    s.rd Reg.HLT_RAIL_FAULT_VALID * 2 ^ 31

/-- ALERT_SRC (Table 21.11). -/
def alertSrc (s : State) : Nat :=
  s.rd (In.alert 0) + s.rd (In.alert 1) * 2 + s.rd (In.alert 2) * 2 ^ 2 + b2n (bitsOf s.feedWord 23 16 != 0) * 2 ^ 3 +
    b2n (s.pinSticky || s.on (In.alert 4)) * 2 ^ 4 + s.rd Reg.HLT_RAIL_FAULT_VALID * 2 ^ 5 +
    b2n ((List.range 4).any fun d => s.on (In.alertHot d)) * 2 ^ 6 + s.rd (In.alert 7) * 2 ^ 7

/-- Whether ALERT_N is driven low: a bit of ALERT_SRC (R551), or the halt in the boot ROM (R452). -/
def alertLow (s : State) : Bool := s.alertSrc != 0 || s.on (In.alert 8)

/-- Whether domain 39 is powered: in every state except off (R505, R531). -/
def standby (s : State) : Bool := !(s.rd In.hold).testBit 3

/-! ### Feeds (Table 21.1) -/

/-- A feed's new condition, its sticky bit `k`, and the health event (Table 22.1). -/
def feedEvent (s : State) (f used inr iso k : Nat) : State :=
  let s1 := s.wrs [(feedUsed f, used), (feedIn f, inr), (feedIso f, iso)]
  if s1.standby then let s2 := s1.wr (feedSticky k f) 1; s2.hltLog 1 0 s2.feedWord else s1

/-- FEED_REVERSED. -/
def feedReversed (s : State) (f : Nat) : State := s.feedEvent f 0 0 0 0
/-- FEED_ABSENT. -/
def feedAbsent (s : State) (f : Nat) : State := s.feedEvent f 0 0 (s.rd (feedIso f)) 1
/-- FEED_OUT_OF_RANGE: the feed carries load unless it is isolated. -/
def feedOut (s : State) (f : Nat) : State := s.feedEvent f (if s.on (feedIso f) then 0 else 1) 0 (s.rd (feedIso f)) 2
/-- FEED_OVERVOLTAGE. -/
def feedOver (s : State) (f : Nat) : State := s.feedEvent f 0 0 1 3
/-- FEED_OVERCURRENT: a feed that carries load. -/
def feedCurrent (s : State) (f : Nat) : State := if s.on (feedUsed f) then s.feedEvent f 0 (s.rd (feedIn f)) 2 3 else s
/-- FEED_REJOIN: the hold time in range has passed. -/
def feedRejoin (s : State) (f : Nat) : State := s.wrs [(feedUsed f, 1), (feedIn f, 1), (feedIso f, 0)]
/-- PRES_N_ASSERT (R528). -/
def presAssert (s : State) : State := s.wr Reg.HLT_FEED_PRES 1

/-! ### Shutdown and power-up (R526, R533, R535) -/

/-- Every rail but VSTBY, VAON and VFLASH off: domain 39 stays, until POWER_UP. -/
def shutdown (s : State) : State :=
  (s.alwaysOn keepWarm).wrs [(In.hold, (s.rd In.hold - (s.rd In.hold / 8 % 2) * 8) ||| 4), (Reg.CLK_DOM_STAT_RUN, 0x80), (In.pwrGood, 0),
    (In.wakeDue, 0)]

/-- EMERGENCY_SHUTDOWN (R526): with PRES_N high, or with no feed used. -/
def emergency (s : State) (presHigh : Bool) : State :=
  if presHigh then (s.wr Reg.HLT_FEED_PRES 0).shutdown
  else if s.on (feedUsed 0) || s.on (feedUsed 1) then s
  else s.shutdown

/-- A power event record in the configuration area. -/
def railRecord (s : State) (rail kind : Nat) : State := s.wrs [(In.railRec 0, rail), (In.railRec 1, kind), (In.railRec 2, 1)]

/-- RAIL_FAULT (R535): `kind` 1 under, 2 over. The third within 60 s keeps the module down. A module that is down or off has no such
rails. -/
def railFault (s : State) (rail kind : Nat) : State :=
  if (s.rd In.hold).testBit 2 || !s.standby then s
  else
  let s1 := (s.railRecord rail kind).wrs
    [(In.railAt 2, s.rd (In.railAt 1)), (In.railAt 1, s.rd (In.railAt 0)), (In.railAt 0, s.rd In.wall + 1)]
  (if s1.strikes = 3 then s1.wr In.stuck 1 else s1).shutdown

/-- POWER_UP (R526, R533): a feed used and in range, PRES_N low, and nothing that keeps the module down; then cold reset with cause
POR, released when MOD_RESET_N is high; where it is high already no edge of it samples the straps, and they are sampled here (DESIGN CHOICE,
log 190). -/
def powerUp (s : State) (x : Straps) : State :=
  let fed := (List.range 2).any fun f => s.on (feedUsed f) && s.on (feedIn f)
  if !((s.rd In.hold).testBit 2 && fed && s.on Reg.HLT_FEED_PRES && !s.on In.stuck) then s
  else
    let s1 := (s.coldReset).wrs [(In.hold, s.rd In.hold % 4), (In.pwrGood, 1), (Reg.MOD_RESET_CAUSE_POR, 1),
      (Reg.HLT_RAIL_FAULT_STRIKES, s.strikes)]
    let s2 := if s.on (In.railRec 2) then
        let t := s1.wrs [(Reg.HLT_RAIL_FAULT_RAIL, s.rd (In.railRec 0)), (Reg.HLT_RAIL_FAULT_KIND, s.rd (In.railRec 1)),
          (Reg.HLT_RAIL_FAULT_VALID, 1), (In.railRec 2, 0)]
        t.hltLog 1 0 t.railWord
      else s1
    let s3 := s2.wr In.causeBoot s2.causeWord
    if s3.rd In.hold % 2 = 1 then s3 else s3.takeStraps x

/-! ### Input power (R19 to R21, R536) -/

/-- Islands that run a launch. -/
def busyIslands (s : State) : List Nat := (List.range 32).filter fun r => (s.seq r).launch.isSome

/-- PWR of every busy island moved by the same step, within 0 to 14. -/
def stepPower (s : State) (down up : Nat) : State :=
  s.busyIslands.foldl (fun t r => t.wr (Reg.CLK_ISL_PWR r) (min 14 (t.rd (Reg.CLK_ISL_PWR r) - down + up))) s

/-- POWER_SAMPLE (R536): the feeds' voltages and the input power in W; above 2,300 W four steps down. -/
def powerSample (s : State) (va vb w : Nat) : State :=
  if !s.standby then s
  else
    let s1 := s.wrs [(In.meas 0, va), (In.meas 1, vb), (In.meas 2, w)]
    if s1.awake && decide (2300 < w) then s1.stepPower 4 0 else s1

/-- POWER_SLOW_LOOP (R536, R21): `w` is the mean of the last 100 ms. The condition of R21 is recorded when it begins. -/
def slowLoop (s : State) (w : Nat) : State :=
  if 2000 < w then
    if s.busyIslands.all fun r => s.rd (Reg.CLK_ISL_CUR r) == 0 then
      if s.on (In.alert 1) then s else ((s.wr (In.alert 1) 1).hltLog 10 0 w).pwrMsg 5 0
    else s.stepPower 1 0
  else
    let s1 := if w < 2000 then s.wr (In.alert 1) 0 else s
    if w < 1950 then s1.stepPower 0 1 else s1

/-! ### Temperatures (R552 to R554) -/

/-- The thermal controller of die `d` with its hottest junction `t` and its stacks' readings. -/
def dieThermal (s : State) (d : Nat) (t : Int) (stackSet : List Nat) : State :=
  let s1 := s.wr (In.hottest d) (unsext 16 t)
  let zero := (List.range 8).all fun i => s.rd (Reg.CLK_ISL_THERM (8 * d + i)) == 0
  let s2 := if t < 100 then s1.wr (In.alertHot d) 0 else s1
  if !s.awake then s2
  else
    let s3 :=
      if 95 ≤ t ∨ stackSet.any (fun x => decide (95 ≤ x)) then
        (List.range 8).foldl (fun u i => u.wr (Reg.CLK_ISL_THERM (8 * d + i)) (u.rd (Reg.CLK_ISL_THERM (8 * d + i)) - 1)) s2
      else if t < 92 ∧ stackSet.all (fun x => decide (x < 92)) then
        (List.range 8).foldl (fun u i => u.wr (Reg.CLK_ISL_THERM (8 * d + i)) (min 14 (u.rd (Reg.CLK_ISL_THERM (8 * d + i)) + 1))) s2
      else s2
    if zero && decide (103 ≤ t) && !s3.on (In.alertHot d) then (s3.wr (In.alertHot d) 1).hltLog 2 d (unsext 16 t) else s3

/-- THERMAL_CONTROL_TICK (R553): the hottest junction of each die and of the IOD, and every stack's reading. -/
def thermalTick (s : State) (dies : List Int) (iod : Int) (stackSet : List Nat) : State :=
  if !s.standby then s
  else
    let s1 := (List.range 12).foldl (fun u k => (u.wr (Reg.HBM_STAT_TEMP k) (nth stackSet k)).refreshRate k) (s.wr (In.hottest 4) (unsext 16 iod))
    (List.range 4).foldl (fun u d => u.dieThermal d (dies.getD d 0) ((stackSet.drop (3 * d)).take 3)) s1

/-- The launches of a tripped die, faulted with STACK_LOST at its lowest region (R554). -/
def dieFaults (s : State) (d : Nat) : State :=
  let hit := fun (l : Launch) =>
    decide (l.regions / 2 ^ (8 * d) % 2 ^ 8 ≠ 0) || decide (l.stackSet / 2 ^ (3 * d) % 8 ≠ 0) && (setBits l.regions 32).any s.active
  (s.launches.filter fun p => hit p.2).foldl (fun t p =>
    let l := t.launch p.1
    let r := ((setBits l.regions 32).find? t.active).getD (8 * d)
    let t1 := if l.fault.isNone && !l.aborted then
        (t.setLaunch p.1 { l with fault := some ⟨0x54, 8 * d, 0, (t.seq r).cur, (t.seq r).ic⟩ }).wrs
          [(Reg.SQ_FAULT_CODE (8 * d), 10), (Reg.SQ_FAULT_SLOT (8 * d), 4), (Reg.SQ_FAULT_CLUSTER (8 * d), 0),
            (Reg.SQ_FAULT_BUNDLE (8 * d), (t.seq r).cur), (Reg.SQ_FAULT_IC_COUNT (8 * d), (t.seq r).ic)]
      else t
    (setBits l.regions 32).foldl (fun u k => u.dropPages k) (t1.stopLaunch p.1)) s

/-- What a die loses with its rails: its regions' state and banks, its cache, and everything on the way from or to it. -/
def dieDark (s : State) (d : Nat) : State :=
  let regs := (List.range 8).map (8 * d + ·)
  let s1 := regs.foldl (fun t r =>
    let q := t.seq r
    let t1 := (List.range 8).foldl (fun u c => u.setClu (cix r c) Clu.empty) (t.zeroKeys (spBase + 8 * r * spWin) (spBase + 8 * (r + 1) * spWin))
    (t1.setSeq r { q with pend := [], waves := [], holds := [], ic := max q.ic (q.last + 1) }).wr (Reg.CLK_ISL_STATE r) 2) s
  { s1 with
    remotes := s1.remotes.filter fun w =>
      decide ((if w.src < 32 then w.src / 8 else (w.src - 32) / 16) ≠ d) && decide ((if w.cl < 256 then w.cl / 64 else homeDie (w.cl - 256)) ≠ d)
    dmaq := Tbl.cut (Tbl.mapv [] (fun q => q.filter fun x => decide (x.region / 8 ≠ d)) s1.dmaq) (16 * d) (16 * d + 16)
    stashq := Tbl.set [] s1.stashq d []
    cache := Tbl.cut s1.cache (2 ^ 17 * d) (2 ^ 17 * (d + 1)) }

/-- DIE_TRIP (R554): sensor 0–63 a junction at 110 °C or above, 64–66 a stack of the die at 105 °C or above. -/
def dieTrip (s : State) (d sensor reading : Nat) : State :=
  if reading < (if sensor < 64 then 110 else 105) ∨ s.on (In.dieOff d) then s
  else
    let s1 := (((s.dieFaults d).dieDark d).wrs [(In.dieOff d, 1), (In.alert 7, 1)]).hltLog 3 d (sensor + reading * 2 ^ 8)
    (List.range 3).foldl (fun t k => t.stackLost (3 * d + k)) s1

/-- MODULE_TRIP (R554). -/
def moduleTrip (s : State) (reading : Nat) : State :=
  if reading < 110 ∨ !s.standby then s else ((s.wr (In.alert 7) 1).railRecord 0x3E 3).shutdown

/-! ### Pins, SMBus, clocks (R546 to R550) -/

/-- PIN_READBACK_TICK (R548): pins (0 ALERT_N, 1 PWR_GOOD, 2 THERM_TRIP_N, 3 TDO) that have read low, and high, for 1 ms. -/
def pinReadback (s : State) (low high : Nat) : State :=
  let driven := b2n s.alertLow + (1 - s.rd In.pwrGood) * 2 + s.rd (In.alert 7) * 4
  if !s.standby then s
  else s.wrs [(Reg.HLT_PIN_FAULT_SHORT_LO, s.rd Reg.HLT_PIN_FAULT_SHORT_LO ||| (low &&& (15 - driven))),
    (Reg.HLT_PIN_FAULT_SHORT_HI, s.rd Reg.HLT_PIN_FAULT_SHORT_HI ||| (high &&& (driven + 8)))]

/-- SMBUS_STUCK (R547). -/
def smbusStuck (s : State) (scl : Bool) : State :=
  if !s.standby then s else s.wr (if scl then Reg.HLT_PIN_FAULT_SCL_STUCK else Reg.HLT_PIN_FAULT_SDA_STUCK) 1

/-- The answer to an SMBus command code (Table 21.10): number of bytes and value; none for NACK. -/
def smbAnswer (s : State) (code : Nat) : Option (Nat × Nat) :=
  match code with
  | 0x00 => some (1, s.rd Reg.MOD_READY_STATUS + s.rd Reg.PWR_STAT_STATE * 2 ^ 4)
  | 0x01 => some (4, s.rd Reg.MOD_READY_REGIONS_MASK)
  | 0x02 => some (2, s.rd Reg.MOD_READY_STACKS_MASK)
  | 0x03 => some (2, s.causeWord)
  | 0x10 => some (2, s.rd (In.meas 2))
  | 0x11 => some (2, s.rd (In.meas 0))
  | 0x12 => some (2, s.rd (In.meas 1))
  | 0x13 => some (5, ofLe ((List.range 5).map fun d => s.rd (In.hottest d) % 256))
  | 0x20 => some (4, s.alertSrc)
  | 0x21 => some (4, s.feedWord)
  | 0x22 => some (4, s.pinWord)
  | 0x23 => some (4, s.railWord)
  | 0x30 => some (8, s.serial)
  | 0x31 => some (2, s.rd Reg.MOD_STRAP_SLOT_ID + s.rd Reg.MOD_STRAP_MGR_EN * 2 ^ 8 + s.rd Reg.MOD_STRAP_FEED_ID * 2 ^ 12)
  | _ => none

/-- SMBUS_READ (R549, R550). -/
def smbusRead (s : State) (code : Nat) : State :=
  if !s.standby then s
  else
    match s.smbAnswer code with
    | some (n, v) => s.wrs [(In.smbus 0, n), (In.smbus 1, v)]
    | none => s.wrs [(In.smbus 0, 0), (In.smbus 1, 0)]

/-- REFCLK_ABSENT (R546, R378, R422). -/
def refAbsent (s : State) (eth : Bool) : State :=
  if eth then
    let s1 := s.wr Reg.HTP_STAT_REFCLK 0
    (if s1.awake then s1.wrBit Reg.CLK_DOM_STAT_RUN 5 false else s1).hostDown
  else
    let s1 := (List.range 6).foldl (fun t p => t.wr (Reg.OZL_STAT_REFCLK p) 0) s
    if s1.awake then
      (List.range 6).foldl (fun t p => (t.dropReplay p).wrs [(Reg.OZL_STAT_STATE p, 0), (Reg.OZL_CTL_RETRAIN p, 0)])
        (s1.wrBit Reg.CLK_DOM_STAT_RUN 6 false)
    else s1

/-- REFCLK_PRESENT (R546): the domain runs again; a port with EN leaves DISABLED (Table 14.2). -/
def refPresent (s : State) (eth : Bool) : State :=
  if eth then
    let s1 := s.wr Reg.HTP_STAT_REFCLK 1
    if s1.awake then s1.wrBit Reg.CLK_DOM_STAT_RUN 5 true else s1
  else
    let s1 := (List.range 6).foldl (fun t p => t.wr (Reg.OZL_STAT_REFCLK p) 1) s
    if s1.awake then
      (List.range 6).foldl (fun t p => if t.on (Reg.OZL_CTL_EN p) then t.ozlEnable p else t) (s1.wrBit Reg.CLK_DOM_STAT_RUN 6 true)
    else s1

end State
end Sys2Proof.Machine
end

