-- ==== Sys2Proof/Machine/Test.lean ====
section
/-!
DEFINITION. The risk score (R560, R561) and region self-test (R564 to R567).
-/

namespace Sys2Proof.Machine

namespace In
/-- R564: mode of region r's test, pending or running: 0 LOGIC, 1 FULL. -/
def testMode (r : Nat) : Fld := fld 98 r 1 0
end In

namespace State

/-! ### The risk score -/

/-- The events since the last score, in the current second's bucket; buckets live for 24 h. -/
def takeBuckets (s : State) : State :=
  let sec := s.rd In.ms39 / 1000
  let a := s.rd (In.riskEv 0)
  let b := s.rd (In.riskEv 1)
  let c := s.rd (In.riskEv 2)
  let old := s.buckets.filter fun x => decide (sec < x.sec + 86400)
  let new : List Bucket := match old with
    | x :: l => if x.sec = sec then ⟨sec, x.rebuilds + a, x.fixed + b, x.ues + c⟩ :: l else ⟨sec, a, b, c⟩ :: old
    | [] => [⟨sec, a, b, c⟩]
  ({ s with buckets := new.filter fun x => decide (x.rebuilds + x.fixed + x.ues ≠ 0) } : State).zeros [In.riskEv 0, In.riskEv 1, In.riskEv 2]

/-- A sum over the buckets of the last `n` seconds. -/
def inRuleWindow (s : State) (n : Nat) (f : Bucket → Nat) : Nat :=
  (s.buckets.filter fun x => decide (s.rd In.ms39 / 1000 < x.sec + n)).foldl (fun t x => t + f x) 0

/-- The points of Table 22.2, in its order. -/
def riskPoints (s : State) : List Nat :=
  let hottest := (List.range 4).foldl (fun m d => max m (s.hot d)) 0
  let narrow := (List.range 6).filter fun p =>
    let st := s.rd (Reg.OZL_STAT_STATE p)
    s.on (Reg.OZL_CTL_EN p) && (st == 6 || (st == 4 || st == 5) && s.on (Reg.OZL_STAT_WIDTH p))
  [min 64 (4 * s.inRuleWindow 600 Bucket.rebuilds), min 128 (32 * s.inRuleWindow 86400 Bucket.ues), min 32 (s.inRuleWindow 600 Bucket.fixed / 1024),
    min 80 (4 * (hottest - 85).toNat), if s.on (feedUsed 0) != s.on (feedUsed 1) then 48 else 0,
    if s.on Reg.SNP_PARTNER_TIER2 then 32 else 0, min 48 (8 * narrow.length), if s.on Reg.HLT_RAIL_FAULT_STRIKES then 64 else 0,
    if 224 ≤ s.mostSpares then 32 else 0]

/-- The rows of Table 22.2 (1 to 9) with the most points, the first of equals first. -/
def topInputs (ps : List (Nat × Nat)) : Nat → List Nat
  | 0 => []
  | n + 1 =>
    let m := ps.foldl (fun m p => if m.2 < p.2 then p else m) (0, 0)
    m.1 :: topInputs (ps.filter fun p => p.1 != m.1) n

/-- The score, its entry of KIND 11 at a rise (score in [7:0], then the four rows of Table 22.2, four bits each), and the response of
R487. -/
def riskScore (s0 : State) : State :=
  let s := s0.takeBuckets
  let ps := s.riskPoints
  let v := min 255 (ps.foldl (· + ·) (s.rd Reg.HLT_RISK_BIAS_BIAS))
  let th := s.rd Reg.SNP_RISK_THRESH
  let top := topInputs ((List.range 9).map fun i => (i + 1, nth ps i)) 4
  let s1 := if s.rd Reg.HLT_RISK_SCORE < th ∧ th ≤ v then
      s.hltLog 11 0 (v + ((List.range 4).map fun i => nth top i * 2 ^ (8 + 4 * i)).foldl (· + ·) 0)
    else s
  let s2 := s1.wr Reg.HLT_RISK_SCORE v
  if !s.awake then s2
  else
    let s3 := s2.wr Reg.SNP_RISK_SCORE v
    if s3.on Reg.SNP_RISK_ARMED && decide (th ≤ v) then
      (List.range 8).foldl (fun t j => if t.on (Reg.SNP_JOB_CFG_VALID j) then t.wrs [(Reg.SNP_JOB_STAT_DUE j, 1), (Reg.SNP_JOB_STAT_CAUSE j, 2)]
        else t) (s3.wr Reg.SNP_RISK_ARMED 0)
    else if v + s3.rd Reg.SNP_RISK_HYST < th then s3.wr Reg.SNP_RISK_ARMED 1
    else s3

/-- RISK_SCORE_TICK (R560): every 100 ms, in Soil probe only during its probes. -/
def riskTick (s : State) : State := if !s.standby || s.rd Reg.PWR_STAT_STATE == 3 then s else s.riskScore

/-- SOIL_PROBE with the score that it computes. -/
def probeTick (s : State) (vs : List Nat) (seen : Nat) : State :=
  (if s.rd Reg.PWR_STAT_STATE = 3 ∧ !s.on In.hold then s.riskScore else s).soilProbe vs seen

/-! ### Self-test -/

/-- The test of region `r` starts; a gated region is woken first. -/
def testStart (s : State) (r : Nat) : State :=
  (((s.noteWaker r 0xFE).wakeRegion r).wrBit Reg.HLT_STEST_STAT_PEND r false).wrBit Reg.HLT_STEST_STAT_RUN r true

/-- Whether a launch or a zeroisation delays a test of region `r` (R565). -/
def testWaits (s : State) (r : Nat) : Bool := (s.seq r).launch.isSome || s.on (Reg.SP_ZERO_STAT_BUSY r) || s.on (Reg.TEN_REGION_PEND r)

/-- STEST_LOGIC and STEST_FULL (R565). -/
def testRequest (s : State) (r : Nat) (full : Bool) : State :=
  if full && s.rd (Reg.TEN_REGION_OWNER r) != 0xFF then s.wr Reg.HLT_STEST_ERR_ASSIGNED 1
  else if s.testing r then s
  else
    let s1 := s.wr (In.testMode r) (b2n full)
    if s1.testWaits r then s1.wrBit Reg.HLT_STEST_STAT_PEND r true else s1.testStart r

/-- STEST_DEFERRED_START (R565). -/
def testDeferred (s : State) (r : Nat) : State :=
  if (s.rd Reg.HLT_STEST_STAT_PEND).testBit r && !s.testWaits r then s.testStart r else s

/-- What the LOGIC content clears (R564). -/
def logicClears (s : State) (r : Nat) : State :=
  ((List.range 8).foldl (fun t c => t.setClu (cix r c) { t.clu (cix r c) with mus := [], vregs := [] }) s).setSeq r { s.seq r with kern := [] }

/-- REGION_SELF_TEST (R564): the content of the running test. FULL leaves every bank at 0. -/
def testWork (s : State) (r : Nat) : State :=
  if !(s.rd Reg.HLT_STEST_STAT_RUN).testBit r then s
  else if s.on (In.testMode r) then (s.logicClears r).zeroRegion r
  else s.logicClears r

/-- One failed row mapped out (R566): the state, whether a spare took it, and the cluster when none did. -/
def mapFailed (s : State) (c bank row : Nat) : State × Bool :=
  let t := (s.mapOutRequest c row bank).mapOut c
  (t, t.rd (Reg.SP_MAPOUT_STAT_STATUS c) == 0)

/-- SELF_TEST_DONE (R566): the first failing unit (0 none) with its cluster, the failed rows as (cluster, bank, row), and the
oscillator's periods, which are management's (R567). -/
def testDone (s : State) (r unit cl : Nat) (rows : List (Nat × Nat × Nat)) (periods : Nat) : State :=
  if !(s.rd Reg.HLT_STEST_STAT_RUN).testBit r then s
  else
    let full := s.on (In.testMode r)
    let s1 := s.testWork r
    let z := (if full then rows else []).foldl (fun (z : State × Nat × Option Nat) x =>
      let y := z.1.mapFailed (cix r x.1) x.2.1 x.2.2
      (y.1, z.2.1 + b2n y.2, if y.2 then z.2.2 else z.2.2 <|> some x.1)) (s1, 0, none)
    let s2 := if full then z.1.zeroRegion r else z.1
    let u := if unit ≠ 0 then unit else if z.2.2.isSome then 1 else 0
    let k := if unit ≠ 0 then cl else z.2.2.getD 0
    let res := if u = 0 then 1 else 2
    let s3 := (s2.wrs [(Reg.HLT_STEST_RES_RESULT r, res), (Reg.HLT_STEST_RES_UNIT r, u), (Reg.HLT_STEST_RES_CLUSTER r, if u = 0 then 0 else k),
      (Reg.HLT_STEST_RES_ROWS r, if full then z.2.1 else s2.rd (Reg.HLT_STEST_RES_ROWS r))]).wrBit Reg.HLT_STEST_STAT_RUN r false
    let s4 := (s3.inc48 (Reg.CLK_PER_LO_COUNT r) (Reg.CLK_PER_HI_COUNT r) periods).charge 0 0xFE periods
    if u ≠ 0 then
      (s4.wr (In.testBad r) 1).hltLog 7 r (res + u * 2 ^ 4 + k * 2 ^ 8 + s4.rd (Reg.HLT_STEST_RES_ROWS r) * 2 ^ 16)
    else if full then s4.wr (In.testBad r) 0
    else s4

/-- STEST_ABORT (R566): a test ends as ABORTED, a FULL one with the region zeroised; a pending request is withdrawn with the same
result. -/
def testAbort (s : State) (r : Nat) : State :=
  if !s.testing r then s
  else
    (((s.testWork r).wrs [(Reg.HLT_STEST_RES_RESULT r, 3), (Reg.HLT_STEST_RES_UNIT r, 0), (Reg.HLT_STEST_RES_CLUSTER r, 0)]).wrBit
      Reg.HLT_STEST_STAT_PEND r false).wrBit Reg.HLT_STEST_STAT_RUN r false

end State
end Sys2Proof.Machine
end

