-- ==== Sys2Proof/Machine/Debug.lean ====
section
/-!
DEFINITION. The debug features of R574 to R577: halt, step, the state of a halted region by 8-byte words, the sequencer's scan
register, and error injection.
-/

namespace Sys2Proof.Machine
namespace State

/-- Whether debug is unlocked (R475). -/
def unlocked (s : State) : Bool := s.on Reg.SEC_DBG_STAT_STATE

/-- Whether DBG_HALT stops region `r`. -/
def dbgHalted (s : State) (r : Nat) : Bool := (s.rd Reg.DBG_HALT_MASK).testBit r

/-- Oscillator periods that a region spent halted (R575): held periods, metered to its tenant. -/
def haltPeriods (s : State) (r n : Nat) : State :=
  ((s.inc (Reg.CLK_HELD_COUNT r) n).inc48 (Reg.CLK_PER_LO_COUNT r) (Reg.CLK_PER_HI_COUNT r) n).charge 0 (s.regionUser r) n

/-- DBG_HALT written (R575, R567): the regions under self-test keep their bits; `periods` passed in the halted regions since the last
write. -/
def dbgHalt (s : State) (mask periods : Nat) : State :=
  if !s.unlocked then s
  else
    let old := s.rd Reg.DBG_HALT_MASK
    let s1 := ((setBits old 32).filter s.active).foldl (fun t r => t.haltPeriods r periods) s
    (List.range 32).foldl (fun t r => if s.testing r then t else t.wrBit Reg.DBG_HALT_MASK r (mask.testBit r)) s1

/-- DBG_STEP (R575): one bundle of a halted region. -/
def dbgStep (s : State) (r : Nat) : State :=
  let q := s.seq r
  if s.unlocked && s.dbgHalted r && s.active r && !q.halted && !q.stopped && q.holds.isEmpty then s.issueKernel r else s

/-! ### Architectural state by 8-byte words (R576) -/

/-- Two 32-bit words as one. -/
def pair (a b : Nat) : Nat := a % 2 ^ 32 + b % 2 ^ 32 * 2 ^ 32

/-- Word `o` of a space (DBG_ADDR.SPACE) of region `r`, cluster `c`. Per MU: operand slots as 16 parts (4·slot + part) of 4,096
elements, code in [31:0] and scale in [39:32]; pages as four positions of 4,096 entries, the value with its scale, then its
place; zero maps as four positions of 64 words; tiles of 4,096 elements. -/
def archWord (s : State) (r c space o : Nat) : Nat :=
  let x := s.clu (cix r c)
  match space with
  | 0 => if o < 8 then pair (s.ixv r (2 * o)) (s.ixv r (2 * o + 1)) else 0
  | 1 => pair (Tbl.get 0 x.vregs (2 * o)) (Tbl.get 0 x.vregs (2 * o + 1))
  | 2 =>
    let v := (Tbl.get SlotPart.empty (s.muOf (cix r c) (o / 2 ^ 16)).slots (o / 4096 % 16)).vals.getD (o % 4096) (0, 0)
    pair v.1 (v.2 % 256)
  | 3 =>
    match (Tbl.get Page.empty (s.muOf (cix r c) (o / 2 ^ 15)).pages (o / 8192 % 4)).entries[o % 8192 / 2]? with
    | none => 0
    | some e => if o % 2 = 0 then pair e.code (e.sc % 256)
                else e.k % 256 + e.j % 256 * 2 ^ 8 + e.slot % 2 ^ 16 * 2 ^ 16 + e.row % 256 * 2 ^ 32 + e.col % 256 * 2 ^ 40
  | 4 => match (Tbl.get ZMap.empty (s.muOf (cix r c) (o / 256)).zmaps (o / 64 % 4)).bits with
         | none => 0
         | some b => bitsOf b (64 * (o % 64) + 63) (64 * (o % 64))
  | 5 => Tbl.get 0 (s.tile (cix r c) (o / 16384) (o / 4096 % 4)).vals (o % 4096)
  | 6 => bitsOf (nth (s.seq r).kern (o / 4)) (64 * (o % 4) + 63) (64 * (o % 4))
  | _ => 0

/-- A page entry with one of its two words replaced. -/
def putEntry (e : PageEntry) (odd : Bool) (v : Nat) : PageEntry :=
  if odd then { e with k := v % 256, j := v / 2 ^ 8 % 256, slot := v / 2 ^ 16 % 2 ^ 16, row := v / 2 ^ 32 % 256, col := v / 2 ^ 40 % 256 }
  else { e with code := v % 2 ^ 32, sc := v / 2 ^ 32 % 256 }

/-- Word `o` of a space written; words that hold nothing take nothing, and IX0 stays 0 (R285). -/
def archPut (s : State) (r c space o v : Nat) : State :=
  let k := cix r c
  let x := s.clu k
  match space with
  | 0 => if o < 8 then (s.setIx r (2 * o) (v % 2 ^ 32)).setIx r (2 * o + 1) (v / 2 ^ 32 % 2 ^ 32) else s
  | 1 => if 4096 ≤ o then s
         else s.setClu k { x with vregs := Tbl.set 0 (Tbl.set 0 x.vregs (2 * o) (v % 2 ^ 32)) (2 * o + 1) (v / 2 ^ 32 % 2 ^ 32) }
  | 2 =>
    let m := o / 2 ^ 16
    let mu := s.muOf k m
    let p := Tbl.get SlotPart.empty mu.slots (o / 4096 % 16)
    if 4 ≤ m then s
    else
      let p' : SlotPart := { p with vals := p.vals.set (o % 4096) (v % 2 ^ 32, v / 2 ^ 32 % 256) }
      s.setMu k m { mu with slots := Tbl.set SlotPart.empty mu.slots (o / 4096 % 16) p' }
  | 3 =>
    let m := o / 2 ^ 15
    let mu := s.muOf k m
    let p := Tbl.get Page.empty mu.pages (o / 8192 % 4)
    match p.entries[o % 8192 / 2]? with
    | none => s
    | some e =>
      let p' : Page := { p with entries := p.entries.set (o % 8192 / 2) (putEntry e (o % 2 == 1) v) }
      s.setMu k m { mu with pages := Tbl.set Page.empty mu.pages (o / 8192 % 4) p' }
  | 4 =>
    let m := o / 256
    let mu := s.muOf k m
    let z := Tbl.get ZMap.empty mu.zmaps (o / 64 % 4)
    if 4 ≤ m then s
    else
      let z' : ZMap := { z with bits := some (putBits (z.bits.getD 0) (64 * (o % 64)) 64 v) }
      s.setMu k m { mu with zmaps := Tbl.set ZMap.empty mu.zmaps (o / 64 % 4) z' }
  | 5 =>
    let m := o / 16384
    let t := s.tile k m (o / 4096 % 4)
    if 4 ≤ m then s else s.setTile k m (o / 4096 % 4) { t with vals := Tbl.set 0 t.vals (o % 4096) (v % 2 ^ 40) }
  | 6 =>
    let q := s.seq r
    if q.kern.length ≤ o / 4 then s
    else s.setSeq r { q with kern := q.kern.set (o / 4) (putBits (nth q.kern (o / 4)) (64 * (o % 4)) 64 v) }
  | _ => s

/-- The current launch of region `r` marked as debug-touched. -/
def touchRegion (s : State) (r : Nat) : State :=
  match (s.seq r).launch with
  | some n => s.setLaunch n { s.launch n with debug := true }
  | none => s

/-- The word that DBG_ADDR names. -/
def dbgWord (s : State) : Nat :=
  s.archWord (s.rd Reg.DBG_ADDR_REGION) (s.rd Reg.DBG_ADDR_CLUSTER) (s.rd Reg.DBG_ADDR_SPACE) (s.rd Reg.DBG_ADDR_OFFSET)

/-- DBG_DATA_HI written: the write of R576, while the region is halted. -/
def dbgDataHi (s : State) (hi : Nat) : State :=
  let r := s.rd Reg.DBG_ADDR_REGION
  let s1 := s.wr Reg.DBG_DATA_HI hi
  if s1.dbgHalted r then
    (s1.archPut r (s.rd Reg.DBG_ADDR_CLUSTER) (s.rd Reg.DBG_ADDR_SPACE) (s.rd Reg.DBG_ADDR_OFFSET)
      (pair (s.rd Reg.DBG_DATA_LO) hi)).touchRegion r
  else s1

/-- DBG_DATA_WRITE (R576): DBG_DATA_LO, then DBG_DATA_HI. -/
def dbgDataWrite (s : State) (lo hi : Nat) : State :=
  if !s.unlocked then s else (s.wr Reg.DBG_DATA_LO lo).dbgDataHi hi

/-- DBG_INJ (R577): one error armed. -/
def dbgInj (s : State) (target : Nat) (two : Bool) (addr : Nat) : State :=
  if !s.unlocked then s
  else s.wrs [(Reg.DBG_INJ_ADDR_LO, addr), (Reg.DBG_INJ_ADDR_HI, addr / 2 ^ 32), (Reg.DBG_INJ_TARGET, target), (Reg.DBG_INJ_BITS, b2n two),
    (Reg.DBG_INJ_ARM, 1)]

/-! ### The scan register (R573) -/

/-- IX0 to IX15, the next bundle index and SQ_STAT of region `r`, 544 bits. -/
def scanWord (s : State) (r : Nat) : Nat :=
  ((List.range 16).map fun i => s.ixv r i % 2 ^ 32 * 2 ^ (32 * i)).foldl (· + ·) 0 + (s.seq r).next % 2 ^ 16 * 2 ^ 512 +
    (s.rd (Reg.SQ_STAT_STATE r) + s.rd (Reg.SQ_STAT_PHASE r) * 2 ^ 4) % 2 ^ 16 * 2 ^ 528

/-- The register written back, while the region is halted. -/
def scanPut (s : State) (r v : Nat) : State :=
  if !s.dbgHalted r then s
  else
    let s1 := (List.range 16).foldl (fun t i => t.setIx r i (bitsOf v (32 * i + 31) (32 * i))) s
    ((s1.setSeq r { s1.seq r with next := bitsOf v 527 512 }).wrs
      [(Reg.SQ_STAT_STATE r, bitsOf v 531 528), (Reg.SQ_STAT_PHASE r, bitsOf v 543 532)]).touchRegion r

end State
end Sys2Proof.Machine
end

