-- ==== Sys2Proof/Machine/Snap.lean ====
section
/-!
DEFINITION. Snapshots (spec/19): the snapshot partition and its records, the job slots' states, the flash writer, the partner, restore
and replay.
-/

namespace Sys2Proof.Machine

namespace In
/-- Next 2 MiB chunk of the protected handle h of region r to be written (R492). -/
def hNext (r h : Nat) : Fld := fld 89 (1024 * r + h) 16 0
/-- The job slot that the flash writer served last (Table 19.6: round-robin). -/
def flashLast : Fld := fld 90 0 3 7
/-- R502: loss word, VERIFY and DBG of the record restored into slot j, and how many replays of it have failed. -/
def restLoss (j : Nat) : Fld := fld 91 j 64 0
/-- Whether its replay is compared. -/
def restCheck (j : Nat) : Fld := fld 92 j 1 0
/-- Replays of the slot that have mismatched since one was verified. -/
def misses (j : Nat) : Fld := fld 93 j 2 0
/-- Flow and tag of the RESTORE whose outcome is due, and whether one is. -/
def restFlow (j : Nat) : Fld := fld 94 j 8 0
/-- Its tag. -/
def restTag (j : Nat) : Fld := fld 95 j 32 0
/-- Whether one is due. -/
def restDue (j : Nat) : Fld := fld 96 j 1 0
/-- R488: highest step that a member of job slot j has reported to the manager. -/
def stepSeen (j : Nat) : Fld := fld 97 j 32 0
end In

/-- First key of an area (Table 19.1): 1 A, 2 B, and the partner areas 3 P0, 4 P1. -/
def areaB (a : Nat) : Nat :=
  flashB + match a with
    | 2 => 0x07440000000
    | 3 => 0x0E880000000
    | 4 => 0x15CC0000000
    | _ => 0

/-- First key at which an image read through a partner stands while it is restored; the model's own (log 5). -/
def partnerB : Nat := 0x080000000000

/-- Key of page `p` of an area (Table 19.2). -/
def pageKey (base p : Nat) : Nat := base + 2 ^ 21 * p
/-- Key of offset `o` of cluster `c`'s window image. -/
def winKey (base c o : Nat) : Nat := base + 0x06C00000000 + 0x08000000 * c + o
/-- Key of the record of job slot `j`. -/
def recKey (base j : Nat) : Nat := base + 0x07400000000 + 0x1000000 * j

/-- The largest n with n² ≤ x, for x below 2^(2k). -/
def isqrt (x : Nat) : Nat → Nat
  | 0 => 0
  | k + 1 => let r := isqrt (x / 4) k; if (2 * r + 1) * (2 * r + 1) ≤ x then 2 * r + 1 else 2 * r

/-- INTERVAL of R486 for B image bytes and M seconds: round(√(2·W·M)) with W = B / 48·10^9, clamped to 60–86,400 s. -/
def snapInterval (b m : Nat) : Nat :=
  let w := 48 * 10 ^ 9
  let n := isqrt (2 * b * m / w) 64
  let r := if (2 * n + 1) * (2 * n + 1) * w ≤ 8 * b * m then n + 1 else n
  max 60 (min 86400 r)

namespace State

/-- Little-endian bytes of the store or of memory by key. -/
def keyN (s : State) (k n : Nat) : Nat := ofLe (s.cellar k n)

/-- Bytes written at consecutive keys. -/
def putKeys (s : State) (k : Nat) : List Nat → State
  | [] => s
  | b :: l => putKeys (s.memSet k b) (k + 1) l

/-! ### The job's resources -/

/-- Tenant of a job slot. -/
def jobTenant (s : State) (j : Nat) : Nat := s.rd (Reg.SNP_JOB_CFG_TENANT j)
/-- Mask of the stacks that a tenant owns. -/
def ownStacks (s : State) (t : Nat) : Nat :=
  ((List.range 12).map fun k => if s.rd (Reg.TEN_STACK_OWNER k) = t then 2 ^ k else 0).foldl (· + ·) 0
/-- Mask of the regions that a tenant owns. -/
def ownRegions (s : State) (t : Nat) : Nat :=
  ((List.range 32).map fun r => if s.rd (Reg.TEN_REGION_OWNER r) = t then 2 ^ r else 0).foldl (· + ·) 0

/-- The staging range of stack `k` (R485): first page within the stack and pages. -/
def stagingOf (s : State) (k : Nat) : Nat × Nat :=
  (s.rd (Reg.HC_WP_SLOT_BASE_ADDR (k / 3) (k % 3)) % 2 ^ 36 / 2 ^ 21, s.rd (Reg.HC_WP_SLOT_CNT_FREE (k / 3) (k % 3)))

/-- The pages of a set of stacks outside their staging ranges, module-wide and ascending. -/
def imagedPages (stackSet : Nat) (staging : List (Nat × Nat × Nat)) : List Nat :=
  (setBits stackSet 12).flatMap fun k =>
    ((List.range 18432).filter fun p => !staging.any fun g => g.1 == k && decide (g.2.1 ≤ p) && decide (p < g.2.1 + g.2.2)).map
      (18432 * k + ·)

/-- Staging ranges as they stand, of a set of stacks. -/
def stagings (s : State) (stackSet : Nat) : List (Nat × Nat × Nat) := (setBits stackSet 12).map fun k => (k, s.stagingOf k)

/-- Persistent handles of a tenant outside the accumulator window (R490), as (region, handle). -/
def persistent (s : State) (t : Nat) : List (Nat × Nat) :=
  (List.range 32768).filterMap fun i =>
    let r := i / 1024
    let h := i % 1024
    if s.on (Reg.SP_HT_VALID r h) && s.on (Reg.SP_HT_PERSIST r h) && !s.on (Reg.SP_HT_ACC r h) && s.rd (Reg.SP_HT_TENANT r h) == t then
      some (r, h) else none

/-- The 2 MiB chunks of a handle's image (R491): (cluster, offset, bytes), cluster by cluster. -/
def chunksOf (s : State) (r h : Nat) : List (Nat × Nat × Nat) :=
  let o := s.rd (Reg.SP_HT_OFFSET r h)
  let e := s.rd (Reg.SP_HT_EXTENT r h)
  let cs := if s.on (Reg.SP_HT_KIND r h) then [s.rd (Reg.SP_HT_CLUSTER r h)] else (List.range 8).map (8 * r + ·)
  cs.flatMap fun c => (List.range (cdiv e (2 ^ 21))).map fun i => (c, o + 2 ^ 21 * i, min (2 ^ 21) (e - 2 ^ 21 * i))

/-- Image bytes of a job (R486). -/
def imageBytes (s : State) (t : Nat) : Nat :=
  (imagedPages (s.ownStacks t) (s.stagings (s.ownStacks t))).length * 2 ^ 21 +
    ((s.persistent t).map fun q => s.handleBytes q.1 q.2).foldl (· + ·) 0

/-! ### Records (R483, Table 19.4) -/

/-- Whether the record at `k` is complete: its magic, COMMIT = 1 and a valid digest. -/
def recValid (s : State) (k : Nat) : Bool :=
  s.keyN k 4 == 0x49565853 && (s.keyN (k + 4) 2).testBit 8 &&
    s.cellar (k + 0xFFFFC0) 64 == Config.shake256 (s.cellar k 0xFFFFC0) 64

/-- SEQ of the record at `k`. -/
def recSeq (s : State) (k : Nat) : Nat := s.keyN (k + 12) 4

/-- Of two areas, the one that holds the latest complete record of slot `j` (R483); 0 when neither does. -/
def latestOf (s : State) (a b j : Nat) : Nat :=
  let x := recKey (areaB a) j
  let y := recKey (areaB b) j
  match s.recValid x, s.recValid y with
  | true, true => if s.recSeq x < s.recSeq y then b else a
  | true, false => a
  | false, true => b
  | false, false => 0

/-- The area of the latest snapshot of slot `j` (R483): 0 none, 1 A, 2 B. -/
def latestArea (s : State) (j : Nat) : Nat := s.latestOf 1 2 j

/-- LATEST and SEQ of a slot as the store has them. -/
def showLatest (s : State) (j : Nat) : State :=
  let a := s.latestArea j
  s.wrs [(Reg.SNP_JOB_STAT_LATEST j, a), (Reg.SNP_JOB_SEQ_SEQ j, if a = 0 then 0 else s.recSeq (recKey (areaB a) j))]

/-- The header of Table 19.4 as a number. -/
def recHeader (s : State) (j : Nat) (x : Snap) (seq : Nat) : Nat :=
  0x49565853 + 1 * 2 ^ 32 + 1 * 2 ^ 40 + b2n x.verify * 2 ^ 41 + s.rd (In.jobDbg x.tenant) * 2 ^ 42 +
    s.rd Reg.SNP_PARTNER_TIER2 * 2 ^ 43 + b2n (s.rd Reg.COL_ROLE_ROLE == 1) * 2 ^ 44 + x.tenant * 2 ^ 48 + j * 2 ^ 56 +
    s.rd (Reg.SNP_JOB_CFG_JOB j) * 2 ^ 64 + seq * 2 ^ 96 + x.step * 2 ^ 128 + s.serial * 2 ^ 192 + x.stackSet * 2 ^ 256 +
    x.regions * 2 ^ 288 + x.loss * 2 ^ 320 + s.rd (Reg.SNP_JOB_CFG_LOSS_FMT j) * 2 ^ 384 + x.streams * 2 ^ 400 +
    x.handles.length * 2 ^ 416 + ofLe x.cursor * 2 ^ 512

/-- A handle entry as its 16 bytes (Table 4.8), BUSY 0. -/
def packHandle (x : HEntry) : List Nat :=
  toLe 16 (x.valid + x.kind * 2 + x.acc * 2 ^ 2 + x.persist * 2 ^ 3 + x.cluster * 2 ^ 8 + x.tenant * 2 ^ 16 + x.offset * 2 ^ 32 +
    x.extent * 2 ^ 64)

/-- A handle entry from its 16 bytes as a number. -/
def unpackHandle (n : Nat) : HEntry :=
  ⟨bitsOf n 0 0, bitsOf n 1 1, bitsOf n 2 2, bitsOf n 3 3, bitsOf n 15 8, bitsOf n 23 16, bitsOf n 58 32, bitsOf n 90 64⟩

/-- The manager's tables of Table 19.5 (R26): schedules, the active routing table, groups, the partition table and the partner's pairing;
their places are the model's, as the spec gives the section no format (log 20). -/
def managerTables (s : State) : List (Nat × List Nat) :=
  [(0x125000, (List.range 254).flatMap fun t => toLe 16 (s.rd (In.jobSched t))),
   (0x127000, (List.range 512).flatMap fun i => toLe 4 (s.rd (Reg.COL_ROUTE_ACT i))),
   (0x128000, (List.range 256).flatMap fun g => toLe 16 (s.rd (Reg.COL_GROUP_VALID g) + s.rd (Reg.COL_GROUP_TENANT g) * 2 ^ 8 +
      s.rd (Reg.COL_GROUP_SIZE_M1 g) * 2 ^ 16 + s.rd (Reg.COL_GROUP_RANK g) * 2 ^ 32 + s.rd (Reg.COL_GROUP_GEN g) * 2 ^ 64)),
   (0x12A000, ((List.range 32).map fun r => s.rd (Reg.TEN_REGION_OWNER r)) ++ ((List.range 12).map fun k => s.rd (Reg.TEN_STACK_OWNER k)) ++
      (List.range 254).map fun t => s.rd (Reg.TEN_SHARE_SHARE t)),
   (0x12B000, toLe 4 (s.rd Reg.SNP_PARTNER_SER_LO) ++ toLe 4 (s.rd Reg.SNP_PARTNER_SER_HI) ++
      [s.rd Reg.SNP_PARTNER_STATE, s.rd Reg.SNP_PARTNER_TIER2, s.rd Reg.SNP_PARTNER_FEED])]

/-- The streams of a tenant (R68). -/
def ownStreams (s : State) (t : Nat) : List Nat := (List.range 4096).filter fun n => s.rd (Reg.STREAM_OWNER n) == t

/-- The sections of Table 19.5 that a record takes at the protection point (R68, R490): streams, persistent handles, event counters,
groups, the job's values and, where the module is the manager, its tables. The places within section 0x12_4000 are the model's (log
20). -/
def startSections (s : State) (t regions : Nat) : List (Nat × List Nat) :=
  let groups := (List.range 256).filter fun g => s.on (Reg.COL_GROUP_VALID g) && s.rd (Reg.COL_GROUP_TENANT g) == t
  ((s.ownStreams t).zipIdx.map fun q => (0x1000 + 32 * q.2, toLe 8 q.1 ++ toLe 8 (s.rd (Reg.STREAM_KEY q.1)) ++ toLe 16 (s.rd (Reg.STREAM_CTR q.1)))) ++
    ((s.persistent t).zipIdx.map fun q =>
      (0x21000 + 32 * q.2, toLe 2 q.1.1 ++ toLe 2 q.1.2 ++ List.replicate 12 0 ++ packHandle (s.handleEntry q.1.1 q.1.2))) ++
    ((setBits regions 32).zipIdx.map fun q => (0x121000 + 256 * q.2, (List.range 64).flatMap fun n => toLe 4 (s.rd (Reg.SQ_EVT_VALUE q.1 n)))) ++
    (groups.map fun g => (0x123000 + 16 * g, toLe 16 (1 + t * 2 ^ 8 + s.rd (Reg.COL_GROUP_SIZE_M1 g) * 2 ^ 16 +
      s.rd (Reg.COL_GROUP_RANK g) * 2 ^ 32 + s.rd (Reg.COL_GROUP_GEN g) * 2 ^ 64))) ++
    [(0x124000, toLe 16 (s.rd (In.jobSched t)) ++ toLe 4 (b2n (s.tenantBit Reg.COL_XORID_EN t) + 2 * b2n (s.tenantBit Reg.COL_XORID_GEN t)) ++
      toLe 4 (s.rd (In.jobNum t)) ++ toLe 4 (s.rd (In.jobStep t)))] ++
    if s.rd Reg.COL_ROLE_ROLE = 1 then s.managerTables else []

/-- The sections of Table 19.5 as (offset, bytes), but for the digest; the header is written after the others. -/
def recSections (s : State) (j : Nat) (x : Snap) (base seq : Nat) : List (Nat × List Nat) :=
  x.secs ++
    ((imagedPages x.stackSet x.staging).map fun p => (0x800000 + 4 * p, toLe 4 (crc32c (s.cellar (pageKey base p) (2 ^ 21))))) ++
    ((x.handles.flatMap fun q => s.chunksOf q.1 q.2).zipIdx.map fun q =>
      (0x8E0000 + 4 * q.2, toLe 4 (crc32c (s.cellar (winKey base q.1.1 q.1.2.1) q.1.2.2)))) ++
    [(0, toLe 128 (s.recHeader j x seq))]

/-- The record written into its slot, the digest last. -/
def writeRecord (s : State) (j : Nat) (x : Snap) (area seq : Nat) : State :=
  let base := areaB area
  let k := recKey base j
  let secs := s.recSections j x base seq
  let s1 : State := { s with mem := Tbl.cut s.mem k (k + 0x1000000) }
  let s2 := secs.foldl (fun t q => t.putKeys (k + q.1) q.2) s1
  s2.putKeys (k + 0xFFFFC0) (Config.shake256 (s2.cellar k 0xFFFFC0) 64)

/-! ### The slot's work -/

/-- A snapshot in progress. -/
def snap (s : State) (j : Nat) : Option Snap := Tbl.get none s.snaps j
/-- A snapshot in progress replaced. -/
def setSnap (s : State) (j : Nat) (x : Option Snap) : State := { s with snaps := Tbl.set none s.snaps j x }

/-- Staged pages of a set of stacks as (slot address, page), oldest first. -/
def stagedOf (s : State) (stackSet : Nat) : List (Nat × Nat) :=
  let l := s.staged.filter fun p => stackSet.testBit (p.1 / 2 ^ 36)
  let ins := fun (acc : List (Nat × Nat)) (q : Nat × Nat) =>
    (acc.filter fun z => decide (z.2 / 2 ^ 18 < q.2 / 2 ^ 18)) ++ q :: acc.filter fun z => decide (q.2 / 2 ^ 18 < z.2 / 2 ^ 18)
  (l.foldl ins []).map fun q => (q.1, q.2 % 2 ^ 18 - 1)

/-- Protected handles of slot `j`, ascending, as (region, handle). -/
def markedOf (s : State) (j : Nat) : List (Nat × Nat) :=
  (s.protH.filter fun p => p.2 == j + 1).map fun p => (p.1 / 1024, p.1 % 1024)

/-- Protected pages of a set of stacks, ascending. -/
def protectedOf (s : State) (stackSet : Nat) : List Nat :=
  (setBits stackSet 12).flatMap fun k => ((List.range 18432).map (18432 * k + ·)).filter s.protectedPage

/-- SNP_JOB_LEFT (Table 19.9): pages and handle chunks still to write. -/
def snapLeft (s : State) (j : Nat) (x : Snap) : Nat :=
  (s.stagedOf x.stackSet).length + (s.protectedOf x.stackSet).length +
    ((s.markedOf j).map fun q => (s.chunksOf q.1 q.2).length - s.rd (In.hNext q.1 q.2)).foldl (· + ·) 0

/-- SNP_JOB_LEFT brought up to date. -/
def showLeft (s : State) (j : Nat) : State :=
  s.wr (Reg.SNP_JOB_LEFT_UNITS j) (match s.snap j with | some x => s.snapLeft j x | none => 0)

/-- Whether a launch or a collective operation of tenant `t` is accepted or running. -/
def tenantBusy (s : State) (t : Nat) : Bool :=
  (s.launches.any fun l => l.2.tenant == t) ||
    ((s.cols.filterMap (·.2)) ++ s.colQueue).any fun o => (parseCol o.rcd).tenant == t

/-- The answer of SNP_CTL. -/
def snpAnswer (s : State) (code : Nat) : State := s.wrs [(Reg.SNP_CTL_STAT_CODE, code), (Reg.SNP_CTL_STAT_PEND, 0)]

/-- Why a START of slot `j` is refused (R489); 0 when it is not. -/
def startCode (s : State) (j : Nat) : Nat :=
  let t := s.jobTenant j
  let ks := setBits (s.ownStacks t) 12
  if !s.on (Reg.SNP_JOB_CFG_VALID j) || s.rd (Reg.SNP_JOB_STAT_STATE j) != 0 || s.tenantBusy t then 1
  else if ks.any s.poolInUse then 3
  else if ks.any fun k => let g := s.stagingOf k
      g.2 == 0 || decide (18432 < g.1 + g.2) || s.rd (Reg.HC_WP_SLOT_BASE_ADDR (k / 3) (k % 3)) / 2 ^ 36 != k then 4
  else 0

/-- Protection of a stack's pages outside its staging range (R490). -/
def protectStack (s : State) (g : Nat × Nat × Nat) : State :=
  let d := g.1 / 3
  let i := g.1 % 3
  (s.wpCmd d i 0 g.2.1 true).wpCmd d i (g.2.1 + g.2.2) (18432 - (g.2.1 + g.2.2)) true

/-- SNP_START (R483, R489, R490): the target's record is invalidated, pages and handles are protected, the cursor is read, and the slot
is COPYING. The steps of the job are now those after S (R236). A handle of no bytes has nothing to be written and gets no mark (R491). -/
def snpStart (s : State) (j : Nat) : State :=
  let code := s.startCode j
  if code ≠ 0 then s.snpAnswer code
  else
    let t := s.jobTenant j
    let stackSet := s.ownStacks t
    let s0 := s.showLatest j
    let target := if s0.rd (Reg.SNP_JOB_STAT_LATEST j) = 1 then 2 else 1
    let k := recKey (areaB target) j
    let s1 := s0.memSet (k + 5) (putBits (s0.memGet (k + 5)) 0 1 0)
    let s2 := (s1.stagings stackSet).foldl protectStack s1
    let s3 : State := { s2 with protH := ((s2.persistent t).filter fun q => s2.on (Reg.SP_HT_EXTENT q.1 q.2)).foldl (fun u q => Tbl.set 0 u (1024 * q.1 + q.2) (j + 1)) s2.protH }
    let s4 := (s3.persistent t).foldl (fun u q => u.wr (In.hNext q.1 q.2) 0) s3
    let y := s4.hbmRead (s4.rd (Reg.SNP_JOB_CURSOR_ADDR j)) 64 true
    let step := s.rd (Reg.SNP_JOB_STEP_STEP j)
    let regions := s.ownRegions t
    let s5 := y.1.wr (In.jobStep t) (step + 1)
    let x : Snap := ⟨t, step, s.on (Reg.SNP_JOB_CFG_VERIFY j), stackSet, regions, s.stagings stackSet,
      if y.2.1 = 0 then y.2.2 else List.replicate 64 0, 0, (s5.ownStreams t).length, s5.persistent t, s5.startSections t regions⟩
    (((s5.setSnap j (some x)).wrs [(Reg.SNP_JOB_STAT_STATE j, 2), (Reg.SNP_JOB_STAT_DUE j, 0), (Reg.SNP_JOB_STAT_CAUSE j, 0),
      (Reg.SNP_JOB_STAT_ERR j, 0), (Reg.SNP_JOB_STAT_TARGET j, target), (Reg.SNP_JOB_ELAPSED_MS j, 0), (In.jobDbg t, 0)]).showLeft
      j).snpAnswer 0

/-- SNP_COMMIT (R494): the loss word is read at once; step S + 1 is over. -/
def snpCommit (s : State) (j : Nat) : State :=
  match s.snap j, s.rd (Reg.SNP_JOB_STAT_STATE j) with
  | some x, 2 =>
    let y := s.hbmRead (s.rd (Reg.SNP_JOB_LOSS_ADDR j)) 8 true
    ((y.1.setSnap j (some { x with loss := ofLe y.2.2 })).wrs [(Reg.SNP_JOB_STAT_STATE j, 3), (In.jobStep x.tenant, x.step + 2)]).snpAnswer 0
  | _, _ => s.snpAnswer 1

/-- The end of a snapshot without a record (R495), with ERR. -/
def snapFail (s : State) (j : Nat) (x : Snap) (err : Nat) : State :=
  let s1 := (setBits x.stackSet 12).foldl (fun t k =>
    let n := (t.staged.filter fun p => p.1 / 2 ^ 36 == k).length
    let f := Reg.HC_WP_SLOT_CNT_FREE (k / 3) (k % 3)
    (({ t with staged := t.staged.filter fun p => p.1 / 2 ^ 36 != k } : State).wr f (t.rd f + n)).wpCmd (k / 3) (k % 3) 0 18432 false) s
  let s2 : State := { s1 with
    protH := s1.protH.filter (fun p => p.2 != j + 1),
    launches := s1.launches.map fun p => if p.2.tenant = x.tenant then (p.1, { p.2 with held := false }) else p }
  (((s2.setSnap j none).wrs [(Reg.SNP_JOB_STAT_STATE j, 0), (Reg.SNP_JOB_STAT_ERR j, err), (Reg.SNP_JOB_STAT_TARGET j, 0)]).inc
    Reg.SNP_FAIL_CNT_COUNT 1).showLeft j

/-- SNP_ABORT (R495). -/
def snpAbort (s : State) (j : Nat) : State :=
  match s.snap j with
  | some x => (s.snapFail j x 1).snpAnswer 0
  | none => s.snpAnswer 1

/-- `n` bytes of memory copied from key `src` to key `dst`, counted as written to an area. -/
def toFlash (s : State) (src dst n : Nat) : State :=
  let v := s.rd Reg.SNP_FLASH_LO + 2 ^ 32 * s.rd Reg.SNP_FLASH_HI
  let w := satAdd 48 v n
  ({ s with mem := Tbl.copy 0 s.mem src dst n } : State).wrs [(Reg.SNP_FLASH_LO, w), (Reg.SNP_FLASH_HI, w / 2 ^ 32)]

/-- The bytes of one chunk of a handle written to an area. -/
def chunkToFlash (s : State) (base c o n : Nat) : State :=
  let bs := s.peeks (spBase + spWin * c + o) n
  let w := satAdd 48 (s.rd Reg.SNP_FLASH_LO + 2 ^ 32 * s.rd Reg.SNP_FLASH_HI) n
  (s.putKeys (winKey base c o) bs).wrs [(Reg.SNP_FLASH_LO, w), (Reg.SNP_FLASH_HI, w / 2 ^ 32)]

/-- A page read through its home cache in the STREAM class (R325, R329) and written to an area; none where the stack serves no access or
a granule gives no data (R327, R333, R347). -/
def pageToFlash (s : State) (a dst : Nat) : Option State :=
  if s.stackStatus (a / 2 ^ 36) ≠ 0 then none
  else
    let s1 := s.cacheRange a (2 ^ 21) false false
    if (s1.poison.between (a / 256) (a / 256 + 8192)).isEmpty then some (s1.toFlash a dst (2 ^ 21)) else none

/-- The next unit of slot `j` (R492): a staged page, a chunk of a handle that a held launch names, of another handle, or a protected
page read directly. None where the page gives no data. -/
def flashUnit (s : State) (j : Nat) (x : Snap) : Option State :=
  let base := areaB (s.rd (Reg.SNP_JOB_STAT_TARGET j))
  match s.stagedOf x.stackSet with
  | (a, p) :: _ =>
    let k := a / 2 ^ 36
    let f := Reg.HC_WP_SLOT_CNT_FREE (k / 3) (k % 3)
    (s.pageToFlash a (pageKey base p)).map fun s1 => ({ s1 with staged := Tbl.set 0 s1.staged a 0 } : State).wr f (s1.rd f + 1)
  | [] =>
    let named := (s.launches.filter fun l => l.2.held).flatMap fun l => l.2.whandles
    let hs := s.markedOf j
    let pick := (hs.find? fun q => named.contains (1024 * q.1 + q.2)) <|> hs.head?
    match pick with
    | some (r, h) =>
      let i := s.rd (In.hNext r h)
      let cs := s.chunksOf r h
      let s1 := match cs[i]? with | some c => s.chunkToFlash base c.1 c.2.1 c.2.2 | none => s
      let s2 := s1.wr (In.hNext r h) (i + 1)
      some (if i + 1 < cs.length then s2 else ({ s2 with protH := Tbl.set 0 s2.protH (1024 * r + h) 0 } : State).wr (In.hNext r h) 0)
    | none =>
      match s.protectedOf x.stackSet with
      | p :: _ => (s.pageToFlash (2 ^ 36 * (p / 18432) + 2 ^ 21 * (p % 18432)) (pageKey base p)).map fun s1 =>
          s1.wpCmd (p / 18432 / 3) (p / 18432 % 3) (p % 18432) 1 false
      | [] => some s

/-- Whether slot `j` has something to write. -/
def hasWork (s : State) (j : Nat) : Bool :=
  match s.snap j with
  | some x => decide (s.snapLeft j x ≠ 0)
  | none => false

/-- FLASH_WRITE_UNIT (R492, R495): the next slot in turn that has work writes one unit; a unit that fails to program ends its
snapshot, and so does a page that gives no data, for which the spec names no outcome (log 189). -/
def flashWrite (s : State) (ok : Bool) : State :=
  let j0 := s.rd In.flashLast
  match ((List.range 8).map fun i => (j0 + 1 + i) % 8).find? s.hasWork with
  | none => s
  | some j =>
    match s.snap j with
    | none => s
    | some x =>
      let s1 := s.wr In.flashLast j
      match (if ok then s1.flashUnit j x else none) with
      | some t => t.showLeft j
      | none => s1.snapFail j x 2

/-- SNAPSHOT_RECORD_COMMIT (R494): everything is in flash; the record is written and the slot is IDLE. The partner copy is due. -/
def recordCommit (s : State) (j : Nat) : State :=
  match s.snap j, s.rd (Reg.SNP_JOB_STAT_STATE j) with
  | some x, 3 =>
    if s.hasWork j then s
    else
      let target := s.rd (Reg.SNP_JOB_STAT_TARGET j)
      let seq := s.rd (Reg.SNP_JOB_SEQ_SEQ j) + 1
      let s0 := s.writeRecord j x target seq
      let s1 : State := { s0 with protH := s0.protH.filter fun p => p.2 != j + 1 }
      let s2 := ((s1.setSnap j none).wrs [(Reg.SNP_JOB_STAT_STATE j, 0), (Reg.SNP_JOB_STAT_LATEST j, target), (Reg.SNP_JOB_SEQ_SEQ j, seq),
        (Reg.SNP_JOB_STAT_TARGET j, 0)]).inc Reg.SNP_DONE_CNT_COUNT 1
      let s3 := if s2.on In.lagOn then s2 else s2.wrs [(In.lagOn, 1), (In.lagFrom, s2.rd In.ms39)]
      if s3.rd Reg.SNP_PARTNER_STATE = 0 then s3 else s3.wr Reg.SNP_PARTNER_STATE 2
  | _, _ => s

/-- The partner area that an image of slot `j` from another module goes to (R481, R499): with P0 and P1 the one that does not hold the
latest complete copy, P0 where it is the only one. -/
def partnerTarget (s : State) (j : Nat) : Nat :=
  if s.rd Reg.MOD_ID_CAP = 2 then (if s.latestOf 3 4 j = 3 then 4 else 3) else 3

/-- Bytes of another module's image, by area offset, written to the partner area (R481, R482, R499). Before the last of them the record
there is invalid, as R483 has it; the record comes last. -/
def partnerBytes (s : State) (j : Nat) (image : List (Nat × Nat)) (last : Bool) : State :=
  let base := areaB (s.partnerTarget j)
  let k := recKey base j
  let s1 := if last then s else s.memSet (k + 5) (putBits (s.memGet (k + 5)) 0 1 0)
  (image.filter fun q => decide (q.1 < 0x7440000000)).foldl (fun t q => t.memSet (base + q.1) q.2) s1

/-- PARTNER_COPY (R499): the committed sections leave for the confirmed partner, its confirmation of the latest commit arrives, or bytes of
another module's image arrive for this module's partner area. -/
def partnerCopy (s : State) (j : Nat) (e : PartnerEvent) : State :=
  match e with
  | .arrived image last => s.partnerBytes j (image.map fun q => (q.1.toNat, q.2.toNat)) last
  | .sent =>
    if s.rd Reg.SNP_PARTNER_STATE = 0 ∨ s.rd (Reg.SNP_JOB_STAT_LATEST j) = 0 then s
    else ({ s with colOut := s.colOut ++ [.sections j] } : State).wr Reg.SNP_PARTNER_STATE 2
  | .confirmed =>
    if s.rd Reg.SNP_PARTNER_STATE = 0 ∨ s.rd (Reg.SNP_JOB_STAT_LATEST j) = 0 then s
    else s.wrs [(Reg.SNP_PARTNER_STATE, 3), (Reg.SNP_PARTNER_LAG_S, 0), (In.lagOn, 0)]

/-! ### Commands (R484 to R488, R498, R503) -/

/-- SNAP_CONFIG (R484). -/
def snapConfig (s : State) (f tag j t job cursor loss : Nat) (verify : Bool) (fmt : Nat) : State :=
  let other := (List.range 8).any fun i => i != j && s.on (Reg.SNP_JOB_CFG_VALID i) && s.rd (Reg.SNP_JOB_CFG_TENANT i) == t
  if s.rd (Reg.SNP_JOB_STAT_STATE j) ≠ 0 then s.fwReply f tag 0x28 []
  else if other || cursor % 64 != 0 || loss % 8 != 0 || !s.ownRange t cursor 64 || !s.ownRange t loss 8 || fmt != 0 && fmt != 14 then
    s.fwReply f tag 0x29 []
  else
    ((s.wrs [(Reg.SNP_JOB_CFG_VALID j, 1), (Reg.SNP_JOB_CFG_VERIFY j, b2n verify), (Reg.SNP_JOB_CFG_LOSS_FMT j, fmt),
      (Reg.SNP_JOB_CFG_TENANT j, t), (Reg.SNP_JOB_CFG_JOB j, job), (Reg.SNP_JOB_CURSOR_ADDR j, cursor),
      (Reg.SNP_JOB_LOSS_ADDR j, loss)]).showLatest j).fwReply f tag 0 []

/-- SNAP_RATE (R486). -/
def snapRate (s : State) (f tag j m : Nat) : State :=
  (s.wrs [(Reg.SNP_JOB_MTBF_S j, m), (Reg.SNP_JOB_INTERVAL_S j, snapInterval (s.imageBytes (s.jobTenant j)) m)]).fwReply f tag 0 []

/-- SNAP_ORDER (R488, Table 19.6). -/
def snapOrder (s : State) (f tag j step : Nat) : State :=
  let now := s.rd (In.jobStep (s.jobTenant j))
  if !s.on (Reg.SNP_JOB_CFG_VALID j) || s.rd (Reg.SNP_JOB_STAT_STATE j) != 0 then s.fwReply f tag 0x28 []
  else if step < now then s.fwReply f tag 0x2F (toLe 4 now)
  else (s.wr (Reg.SNP_JOB_STEP_STEP j) step).fwReply f tag 0 []

/-- SNAP_REQUEST (R488): a member's request reaches the manager, which orders a snapshot at a step above every one reported. -/
def snapRequest (s : State) (j step : Nat) : State :=
  if s.rd Reg.COL_ROLE_ROLE ≠ 1 then s
  else
    let top := max step (s.rd (In.stepSeen j))
    let s1 : State := { s with colOut := s.colOut ++ [.snapOrder j ((top + 1 + Config.orderGap s.free) % 2 ^ 32)], free := s.free + 1 }
    s1.wr (In.stepSeen j) top

/-- PARTNER_SET (R498): the partner's serial and feed tag as exchanged, and whether it is the standby manager. -/
def partnerSet (s : State) (f tag serial feed : Nat) (force standby : Bool) : State :=
  let own := s.rd Reg.MOD_STRAP_FEED_ID
  if serial = s.serial then s.fwReply f tag 0x30 []
  else if (own = feed ∨ own = 0xF ∨ feed = 0xF) ∧ !force then s.fwReply f tag 0x31 []
  else if s.rd Reg.COL_ROLE_ROLE = 1 ∧ !standby then s.fwReply f tag 0x32 []
  else
    let s1 := s.wrs [(Reg.SNP_PARTNER_STATE, 1), (Reg.SNP_PARTNER_TIER2, b2n force), (Reg.SNP_PARTNER_FEED, feed),
      (Reg.SNP_PARTNER_SER_LO, serial), (Reg.SNP_PARTNER_SER_HI, serial / 2 ^ 32)]
    (if force then s1.hltLog 9 0 (serial % 2 ^ 48) else s1).fwReply f tag 0 []

/-- SNAP_STATUS (R503): the slot's SNP_JOB registers in address order, then SNP_PARTNER. -/
def snapStatus (s : State) (f tag j : Nat) : State :=
  let stat := s.rd (Reg.SNP_JOB_STAT_STATE j) + s.rd (Reg.SNP_JOB_STAT_DUE j) * 2 ^ 4 + s.rd (Reg.SNP_JOB_STAT_CAUSE j) * 2 ^ 5 +
    s.rd (Reg.SNP_JOB_STAT_LATEST j) * 2 ^ 8 + s.rd (Reg.SNP_JOB_STAT_ERR j) * 2 ^ 12 + s.rd (Reg.SNP_JOB_STAT_TARGET j) * 2 ^ 16
  let cfg := s.rd (Reg.SNP_JOB_CFG_VALID j) + s.rd (Reg.SNP_JOB_CFG_VERIFY j) * 2 + s.rd (Reg.SNP_JOB_CFG_LOSS_FMT j) * 2 ^ 4 +
    s.jobTenant j * 2 ^ 8 + s.rd (Reg.SNP_JOB_CFG_JOB j) * 2 ^ 32
  let part := s.rd Reg.SNP_PARTNER_STATE + s.rd Reg.SNP_PARTNER_TIER2 * 2 ^ 2 + s.rd Reg.SNP_PARTNER_FEED * 2 ^ 4 +
    s.rd Reg.SNP_PARTNER_LAG_S * 2 ^ 8
  s.fwReply f tag 0 (toLe 8 cfg ++ toLe 8 (s.rd (Reg.SNP_JOB_CURSOR_ADDR j)) ++ toLe 8 (s.rd (Reg.SNP_JOB_LOSS_ADDR j)) ++
    [s.rd (Reg.SNP_JOB_STEP_STEP j), s.rd (Reg.SNP_JOB_MTBF_S j), s.rd (Reg.SNP_JOB_INTERVAL_S j), s.rd (Reg.SNP_JOB_ELAPSED_MS j), stat,
      s.rd (Reg.SNP_JOB_SEQ_SEQ j), s.rd (Reg.SNP_JOB_LEFT_UNITS j), part].flatMap (toLe 4))

/-- SNAPSHOT_TIMER (R487). -/
def snapTimer (s : State) (j : Nat) : State :=
  let i := s.rd (Reg.SNP_JOB_INTERVAL_S j)
  if s.on (Reg.SNP_JOB_CFG_VALID j) && i != 0 && decide (1000 * i ≤ s.rd (Reg.SNP_JOB_ELAPSED_MS j)) && !s.on (Reg.SNP_JOB_STAT_DUE j) then
    s.wrs [(Reg.SNP_JOB_STAT_DUE j, 1), (Reg.SNP_JOB_STAT_CAUSE j, 1)]
  else s

/-! ### Restore and replay (R500 to R502) -/

/-- The area that a restore reads: 0 the latest local snapshot, 1 the other local area, 2 the partner's. -/
def sourceBase (s : State) (j src : Nat) : Nat :=
  let a := s.latestArea j
  if src = 2 then partnerB else if src = 0 then areaB (if a = 0 then 1 else a) else areaB (if a = 1 then 2 else 1)

/-- Why a RESTORE is refused (R500): the CODE of SNP_CTL_STAT, 0 when it is not. -/
def restoreCode (s : State) (j src base : Nat) : Nat :=
  let t := s.jobTenant j
  let k := recKey base j
  if !s.on (Reg.SNP_JOB_CFG_VALID j) || s.rd (Reg.SNP_JOB_STAT_STATE j) != 0 || s.tenantBusy t then 1
  else if !s.recValid k || src == 0 && s.latestArea j == 0 then 6
  else if s.keyN (k + 32) 2 % 2 ^ 12 ≠ s.ownStacks t ∨ s.keyN (k + 36) 4 ≠ s.ownRegions t ∨
      (List.range (s.keyN (k + 50) 2 % 2 ^ 13)).any (fun i =>
        let n := s.keyN (k + 0x1000 + 32 * i) 2 % 4096
        s.rd (Reg.STREAM_OWNER n) != t || s.on (Reg.STREAM_BUSY n)) then 5
  else 0

/-- The job's memory is undefined after a restore that stopped (R501): every byte of its stacks is a free value, and so are those of
its handles once they are written. -/
def restoreStops (s : State) (j stackSet : Nat) : State :=
  ((setBits stackSet 12).foldl (fun t k => t.openRange (2 ^ 36 * k) hbmSize) s).wrs
    [(Reg.SNP_JOB_STAT_STATE j, 0), (Reg.SNP_JOB_STAT_ERR j, 3)]

/-- A page of HBM written by a restore through its home cache (R325): `put` lays its bytes, without error or poison. A stack that serves no
access takes nothing (R327, R347; log 189). -/
def restorePage (s : State) (p : Nat) (put : Nat → State → State) : State :=
  let a := 2 ^ 36 * (p / 18432) + 2 ^ 21 * (p % 18432)
  if s.stackStatus (p / 18432) ≠ 0 then s
  else
    let s1 := put a (s.cacheRange a (2 ^ 21) true true)
    { s1 with
      poison := Tbl.cut s1.poison (a / 256) (a / 256 + 8192), hbmErr := Tbl.cut s1.hbmErr a (a + 2 ^ 21),
      lineErr := Tbl.cut s1.lineErr a (a + 2 ^ 21) }

/-- A page restored from an area. -/
def pageBack (s : State) (base p : Nat) : State :=
  s.restorePage p fun a t => { t with mem := Tbl.copy 0 t.mem (pageKey base p) a (2 ^ 21) }

/-- A page of a staging range, restored as zeros. -/
def pageZero (s : State) (p : Nat) : State := s.restorePage p fun a t => { t with mem := Tbl.cut t.mem a (a + 2 ^ 21) }

/-- A chunk of a handle restored: whole rows are written (R116). -/
def chunkBack (s : State) (base : Nat) (c : Nat × Nat × Nat) : State :=
  let a := spBase + spWin * c.1 + c.2.1
  let s1 := (List.range (c.2.2 / 256)).foldl (fun t i => (t.rowAccess c.1 (c.2.1 / 256 + i) true).1) s
  s1.pokes (at' a (s.cellar (winKey base c.1 c.2.1) c.2.2))

/-- The recorded handles as (region, handle, entry). -/
def recHandles (s : State) (k : Nat) : List (Nat × Nat × HEntry) :=
  (List.range (s.keyN (k + 52) 2)).map fun i =>
    let a := k + 0x21000 + 32 * i
    (s.memGet a % 32, s.keyN (a + 2) 2 % 1024, unpackHandle (s.keyN (a + 16) 16))

/-- Chunks of a recorded handle. -/
def entryChunks (r : Nat) (x : HEntry) : List (Nat × Nat × Nat) :=
  let cs := if x.kind = 1 then [x.cluster] else (List.range 8).map (8 * r + ·)
  cs.flatMap fun c => (List.range (cdiv x.extent (2 ^ 21))).map fun i => (c, x.offset + 2 ^ 21 * i, min (2 ^ 21) (x.extent - 2 ^ 21 * i))

/-- Steps 4 to 6 of R501: streams, event counters, groups, the stash, the step counter. -/
def restoreState (s : State) (k t : Nat) : State :=
  let s1 := (List.range (s.keyN (k + 50) 2 % 2 ^ 13)).foldl (fun u i =>
    let a := k + 0x1000 + 32 * i
    let n := s.keyN a 2 % 4096
    u.wrs [(Reg.STREAM_KEY n, s.keyN (a + 8) 8), (Reg.STREAM_CTR n, s.keyN (a + 16) 16)]) s
  let s2 := ((setBits (s.keyN (k + 36) 4) 32).zipIdx).foldl (fun u q =>
    (List.range 64).foldl (fun v n => v.wr (Reg.SQ_EVT_VALUE q.1 n) (s.keyN (k + 0x121000 + 256 * q.2 + 4 * n) 4)) u) s1
  let s3 := (List.range 256).foldl (fun u g =>
    let e := s.keyN (k + 0x123000 + 16 * g) 16
    if e.testBit 0 then u.wrs [(Reg.COL_GROUP_VALID g, 1), (Reg.COL_GROUP_TENANT g, bitsOf e 15 8), (Reg.COL_GROUP_SIZE_M1 g, bitsOf e 27 16),
      (Reg.COL_GROUP_RANK g, bitsOf e 43 32), (Reg.COL_GROUP_GEN g, bitsOf e 95 64)] else u) s2
  let s4 := (List.range 4096).foldl (fun u i =>
    let d := i / 1024
    let e := i % 1024
    if u.rd (Reg.STD_ENT_TENANT d e) = t ∧ u.rd (Reg.STD_ENT_STATE d e) ≠ 0 then
      (u.wr (Reg.STD_ENT_STATE d e) 0).setPoolTop d (u.rd (Reg.STD_ENT_STACK d e)) else u) s3
  s4.wr (In.jobStep t) (s.keyN (k + 16) 4 + 1)

/-- A restore (R500, R501): the answer is CODE, and the index of a page or chunk that failed its CRC. -/
def restore (s : State) (j src : Nat) : State × Nat × Nat :=
  let base := s.sourceBase j src
  let k := recKey base j
  let t := s.jobTenant j
  let code := s.restoreCode j src base
  if code ≠ 0 then (s, code, 0)
  else
    let stackSet := s.ownStacks t
    let pages := imagedPages stackSet (s.stagings stackSet)
    let staged := (s.stagings stackSet).flatMap fun g => (List.range g.2.2).map fun i => 18432 * g.1 + g.2.1 + i
    match pages.find? fun p => crc32c (s.cellar (pageKey base p) (2 ^ 21)) != s.keyN (k + 0x800000 + 4 * p) 4 with
    | some p => (s.restoreStops j stackSet, 7, p)
    | none =>
      let hs := s.recHandles k
      let cs := hs.flatMap fun q => entryChunks q.1 q.2.2
      match cs.zipIdx.find? fun q => crc32c (s.cellar (winKey base q.1.1 q.1.2.1) q.1.2.2) != s.keyN (k + 0x8E0000 + 4 * q.2) 4 with
      | some q =>
        let s1 := (hs.foldl (fun u q => u.handleWrite q.1 q.2.1 q.2.2) s).restoreStops j stackSet
        (cs.foldl (fun u c => u.openRange (spBase + spWin * c.1 + c.2.1) c.2.2) s1, 7, q.2)
      | none =>
        let s1 := staged.foldl pageZero (pages.foldl (fun u p => u.pageBack base p) s)
        let s2 := hs.foldl (fun u q => u.handleWrite q.1 q.2.1 q.2.2) s1
        let s3 := (cs.foldl (fun u c => u.chunkBack base c) s2).restoreState k t
        (s3.wrs [(Reg.SNP_JOB_STAT_STATE j, 5), (Reg.SNP_JOB_STAT_ERR j, 0), (In.restLoss j, s.keyN (k + 40) 8),
          (In.restCheck j, b2n ((s.keyN (k + 4) 2).testBit 9 && !(s.keyN (k + 4) 2).testBit 10))], 0, 0)

/-- The partner's area as it is read, and gone once the restore is over: pairs of area offset (Table 19.2) and byte, others 0. -/
def withPartner (s : State) (image : List (Nat × Nat)) (act : State → State) : State :=
  let s1 := act ((image.filter fun q => decide (q.1 < 0x7440000000)).foldl (fun t q => t.memSet (partnerB + q.1) q.2) s)
  { s1 with mem := Tbl.cut s1.mem partnerB (2 * partnerB) }

/-- SNP_RESTORE (R500): SNP_CTL written with OP RESTORE. -/
def snpRestore (s : State) (j src : Nat) (image : List (Nat × Nat)) : State :=
  s.withPartner image fun t => let y := t.restore j src; (y.1.wr (In.restDue j) 0).snpAnswer y.2.1

/-- RESTORE (R500, R501): the reply is RESTORED with S and CURSOR, or the refusal; a CRC mismatch carries its index. -/
def restoreCmd (s : State) (f tag j src : Nat) (image : List (Nat × Nat)) : State :=
  s.withPartner image fun t =>
    let k := recKey (t.sourceBase j src) j
    let y := t.restore j src
    match y.2.1 with
    | 0 => (y.1.wrs [(In.restDue j, 1), (In.restFlow j, f), (In.restTag j, tag)]).fwReply f tag 0x38
        (t.cellar (k + 16) 4 ++ t.cellar (k + 64) 64)
    | 1 => y.1.fwReply f tag 0x28 []
    | 5 => y.1.fwReply f tag 0x2C []
    | 6 => y.1.fwReply f tag 0x2D []
    | _ => y.1.fwReply f tag 0x2E (toLe 4 y.2.2)

/-- The outcome of a replay, sent to the RESTORE that waits for it. -/
def outcome (s : State) (j status : Nat) : State :=
  let s1 := s.wr (Reg.SNP_JOB_STAT_STATE j) 0
  if s1.on (In.restDue j) then (s1.wr (In.restDue j) 0).fwReply (s1.rd (In.restFlow j)) (s1.rd (In.restTag j)) status [] else s1

/-- REPLAY_COMPARE (R502): the loss of the replayed step against the record's; the replayed step is over. -/
def replayCompare (s0 : State) (j : Nat) : State :=
  let f := In.jobStep (s0.jobTenant j)
  let s := s0.wr f (s0.rd f + 1)
  if s0.rd (Reg.SNP_JOB_STAT_STATE j) ≠ 5 then s0
  else if !s.on (In.restCheck j) || !s.on (Reg.SNP_JOB_CFG_VERIFY j) then s.outcome j 0x3B
  else
    let y := s.hbmRead (s.rd (Reg.SNP_JOB_LOSS_ADDR j)) 8 true
    if y.2.1 = 0 ∧ ofLe y.2.2 = s.rd (In.restLoss j) then
      ((y.1.inc Reg.SNP_REPLAY_OK_COUNT 1).wr (In.misses j) 0).outcome j 0x39
    else
      let again := decide (0 < s.rd (In.misses j))
      ((y.1.inc Reg.SNP_REPLAY_BAD_COUNT 1).wrs [(In.misses j, if again then 0 else 1), (Reg.SNP_JOB_STAT_ERR j, if again then 5 else 4)]).outcome j
        (if again then 0x3C else 0x3A)

end State
end Sys2Proof.Machine
end

