-- ==== Sys2Proof/Machine/RegMap.lean ====
section
/-!
DEFINITION. The register map of Table 17.1: the rows of every block's register table with what a read returns and what a write does.
-/

namespace Sys2Proof.Machine

/-- A row of a block's register table: its offset, how often it repeats and at what stride, its size in bytes, the fields of its
i-th instance with how software accesses them (0 read only, 1 read and write, 2 cleared by 1, 3 set by 1, 4 write only, 5 written by
the row's effect alone, 6 the same and read as 0), and the effect of a write, given the instance, each field as the write would
leave it, the bits written and their mask. -/
structure RegRow where
  off    : Nat
  count  : Nat
  stride : Nat
  size   : Nat
  flds   : Nat → List (Fld × Nat)
  act    : Nat → (Fld → Nat) → Nat → Nat → State → State

/-- No effect beyond the fields. -/
def noAct : Nat → (Fld → Nat) → Nat → Nat → State → State := fun _ _ _ _ s => s

namespace State

/-- OZL_CTL written (R378, R383, R385): `w` the bits, `m` their mask. -/
def ozlCtl (s : State) (p w m : Nat) : State :=
  let s1 := if w.testBit 0 then s.ozlEnable p else if m.testBit 0 && s.on (Reg.OZL_CTL_EN p) then s.ozlDisable p else s
  let s2 := if w.testBit 1 then s1.ozlRetrain p else s1
  let s3 := if w.testBit 2 then s2.ozlAccept p else s2
  if w.testBit 3 then s3.wakeTx p else s3

/-- SNP_CTL written (Table 19.8). A restore from the partner waits for the partner's image, which SNP_RESTORE brings. -/
def snpCtl (s : State) (op j src : Nat) : State :=
  match op with
  | 1 => s.snpStart j
  | 2 => s.snpCommit j
  | 3 => s.snpAbort j
  | 4 => if src = 2 then s.wr Reg.SNP_CTL_STAT_PEND 1 else s.snpRestore j src []
  | _ => s

/-- HTP_ABORT written (R437): TENANT is stored, and the ID word brings the abort. -/
def abortWrite (s : State) (w m : Nat) : State :=
  let t := if m.testBit 32 then s.wr Reg.HTP_ABORT_TENANT (w / 2 ^ 32) else s
  if m.testBit 0 then t.htpAbort (w % 2 ^ 32) else t

/-- HLT_STEST_CTL written (R565, R566). -/
def stestCtl (s : State) (w : Nat) : State :=
  let t := if w.testBit 16 then s.testRequest (w % 32) (w.testBit 8) else s
  if w.testBit 17 then t.testAbort (w % 32) else t

/-- HLT_PIN_FAULT written (Table 22.7): the strap alert ends once no sticky bit is left. -/
def pinsSeen (s : State) : State := if s.pinSticky then s else s.wr (In.alert 4) 0

/-- COL_ROLE written (R415): 1 and 2 need the MGR_EN strap. -/
def roleWrite (s : State) (x : Nat) : State := if (x = 1 ∨ x = 2) ∧ !s.on Reg.MOD_STRAP_MGR_EN then s else s.wr Reg.COL_ROLE_ROLE x

/-- Members `k` and `k + 1` of group `g`, which share a word, written (R388). -/
def memberPair (s : State) (g k : Nat) (v : Fld → Nat) (m : Nat) : State :=
  let put := fun (t : State) (j : Nat) => t.memberWrite g j (v (Reg.COL_MEMBER_X g j)) (v (Reg.COL_MEMBER_Y g j)) (v (Reg.COL_MEMBER_Z g j))
  let t := if m % 2 ^ 16 = 0 then s else put s k
  if m / 2 ^ 16 = 0 then t else put t (k + 1)

end State

/-- Rows of the SP_ block. -/
def rowsSP (c : Nat) : List RegRow :=
  [⟨0x0, 64, 4, 4, fun i => [(Reg.SP_SBE_CNT_COUNT c i, 0)], noAct⟩,
   ⟨0x100, 64, 4, 4, fun i => [(Reg.SP_REBUILD_CNT_COUNT c i, 0)], noAct⟩,
   ⟨0x200, 1, 4, 4, fun _ => [(Reg.SP_UE_CNT_COUNT c, 0)], noAct⟩,
   ⟨0x240, 8, 4, 4, fun i => [(Reg.SP_ROW_LOG_ROW c i, 0), (Reg.SP_ROW_LOG_BANK c i, 0), (Reg.SP_ROW_LOG_KIND c i, 0),
       (Reg.SP_ROW_LOG_VALID c i, 0)], noAct⟩,
   ⟨0x280, 1, 4, 4, fun _ => [(Reg.SP_STRETCH_CNT_CONFLICT c, 0), (Reg.SP_STRETCH_CNT_REBUILD c, 0)], noAct⟩,
   ⟨0x288, 1, 4, 4, fun _ => [(Reg.SP_REMOTE_WAIT_COUNT c, 0)], noAct⟩,
   ⟨0x290, 1, 4, 4, fun _ => [(Reg.SP_ACC_EVT_SAT c, 0), (Reg.SP_ACC_EVT_UFLOW c, 0)], noAct⟩,
   ⟨0x294, 1, 4, 4, fun _ => [(Reg.SP_ACC_ACC40_FTZ c, 0), (Reg.SP_ACC_ACC40_OVF c, 0)], noAct⟩,
   ⟨0x300, 1, 4, 4, fun _ => [(Reg.SP_MAPOUT_CTL_ROW c, 1), (Reg.SP_MAPOUT_CTL_BANK c, 1), (Reg.SP_MAPOUT_CTL_GO c, 5)], fun _ _
       w _ s => if w.testBit 31 then s.mapOutRequest c (s.rd (Reg.SP_MAPOUT_CTL_ROW c)) (s.rd (Reg.SP_MAPOUT_CTL_BANK c)) else s⟩,
   ⟨0x304, 1, 4, 4, fun _ => [(Reg.SP_MAPOUT_STAT_STATUS c, 0), (Reg.SP_MAPOUT_STAT_SPARE c, 0)], noAct⟩,
   ⟨0x30c, 1, 4, 4, fun _ => [(Reg.SP_CNT_CLR_CLR c, 6)], fun _ _ w _ s => if w.testBit 0 then s.spClear c else s⟩,
   ⟨0x400, 64, 4, 4, fun i => [(Reg.SP_SPARE_USED_COUNT c i, 0)], noAct⟩,
   ⟨0x10000, 16384, 4, 4, fun i => [(Reg.SP_REMAP_LROW c (i / 256) (i % 256), 5), (Reg.SP_REMAP_VALID c (i / 256) (i % 256), 5)],
       fun i v _ _ s => s.remapWrite c (i / 256) (i % 256) (v (Reg.SP_REMAP_LROW c (i / 256) (i % 256))) (v (Reg.SP_REMAP_VALID c
       (i / 256) (i % 256)))⟩]

/-- Rows of the MU_ block. -/
def rowsMU (c : Nat) : List RegRow :=
  [⟨0x0, 4, 256, 4, fun i => [(Reg.MU_SAT_CNT_COUNT c i, 0)], noAct⟩,
   ⟨0x4, 4, 256, 4, fun i => [(Reg.MU_INFCLAMP_CNT_COUNT c i, 0)], noAct⟩,
   ⟨0x8, 4, 256, 4, fun i => [(Reg.MU_NANBLK_CNT_COUNT c i, 0)], noAct⟩,
   ⟨0xc, 4, 256, 4, fun i => [(Reg.MU_UFLOW_CNT_COUNT c i, 0)], noAct⟩,
   ⟨0x10, 4, 256, 4, fun i => [(Reg.MU_FTZ_CNT_COUNT c i, 0)], noAct⟩,
   ⟨0x14, 4, 256, 4, fun i => [(Reg.MU_OVF_CNT_COUNT c i, 0)], noAct⟩,
   ⟨0x18, 4, 256, 4, fun i => [(Reg.MU_CHAIN_STAT_LONG c i, 2), (Reg.MU_CHAIN_STAT_LONG_CNT c i, 0)], noAct⟩,
   ⟨0x1c, 4, 256, 4, fun i => [(Reg.MU_BUSY_LO_COUNT c i, 0)], noAct⟩,
   ⟨0x20, 4, 256, 4, fun i => [(Reg.MU_BUSY_HI_COUNT c i, 0)], noAct⟩,
   ⟨0x24, 4, 256, 4, fun i => [(Reg.MU_FAULT_CODE c i, 0), (Reg.MU_FAULT_TILE c i, 0), (Reg.MU_FAULT_IC c i, 0)], noAct⟩,
   ⟨0x400, 1, 4, 4, fun _ => [(Reg.MU_CNT_CLR_CLR c, 6)], fun _ _ w _ s => if w.testBit 0 then s.muClear c else s⟩]

/-- Rows of the SV_ block. -/
def rowsSV (c : Nat) : List RegRow :=
  [⟨0x0, 1, 4, 4, fun _ => [(Reg.SV_IDX_DROPPED_COUNT c, 0)], noAct⟩,
   ⟨0x4, 1, 4, 4, fun _ => [(Reg.SV_TILE_MALFORMED_COUNT c, 0)], noAct⟩,
   ⟨0x8, 1, 4, 4, fun _ => [(Reg.SV_STAT_IDX c, 2), (Reg.SV_STAT_TILE c, 2), (Reg.SV_STAT_HOLD c, 2), (Reg.SV_STAT_CEN_LOST c,
       2)], noAct⟩,
   ⟨0xc, 1, 4, 4, fun _ => [(Reg.SV_FAULT_EN_IDX c, 5), (Reg.SV_FAULT_EN_TILE c, 5)], fun _ v _ _ s => s.svFaultEn c (v
       (Reg.SV_FAULT_EN_IDX c)) (v (Reg.SV_FAULT_EN_TILE c))⟩,
   ⟨0x10, 1, 4, 4, fun _ => [(Reg.SV_HOLD_CNT_READY c, 0), (Reg.SV_HOLD_CNT_OVERRUN c, 0)], noAct⟩,
   ⟨0x14, 1, 4, 4, fun _ => [(Reg.SV_OVERRUN_CNT_COUNT c, 0)], noAct⟩,
   ⟨0x18, 1, 4, 4, fun _ => [(Reg.SV_PAIRS_LO_COUNT c, 0)], noAct⟩,
   ⟨0x1c, 1, 4, 4, fun _ => [(Reg.SV_PAIRS_HI_COUNT c, 0)], noAct⟩,
   ⟨0x20, 1, 4, 4, fun _ => [(Reg.SV_ZSKIP_COUNT c, 0)], noAct⟩,
   ⟨0x24, 1, 4, 4, fun _ => [(Reg.SV_FAULT_CODE c, 0), (Reg.SV_FAULT_MU c, 0), (Reg.SV_FAULT_IC c, 0)], noAct⟩,
   ⟨0x40, 4, 4, 4, fun i => [(Reg.SV_DROP_LOG_ROW c i, 0), (Reg.SV_DROP_LOG_COL c i, 0), (Reg.SV_DROP_LOG_MU c i, 0),
       (Reg.SV_DROP_LOG_KIND c i, 0), (Reg.SV_DROP_LOG_VALID c i, 0)], noAct⟩,
   ⟨0x80, 1, 4, 4, fun _ => [(Reg.SV_CNT_CLR_CLR c, 6)], fun _ _ w _ s => if w.testBit 0 then s.svClear c else s⟩]

/-- Rows of the SH_ block. -/
def rowsSH0 (c : Nat) : List RegRow :=
  [⟨0x0, 1, 4, 4, fun _ => [(Reg.SH_NM_EXCESS_COUNT c, 0)], noAct⟩,
   ⟨0x4, 1, 4, 4, fun _ => [(Reg.SH_CAP_REFUSED_COUNT c, 0)], noAct⟩,
   ⟨0x8, 1, 4, 4, fun _ => [(Reg.SH_TILE_MALFORMED_COUNT c, 0)], noAct⟩,
   ⟨0xc, 1, 4, 4, fun _ => [(Reg.SH_COMP_MISMATCH_COUNT c, 0)], noAct⟩,
   ⟨0x10, 1, 4, 4, fun _ => [(Reg.SH_PRUNED_COUNT c, 0)], noAct⟩,
   ⟨0x14, 1, 4, 4, fun _ => [(Reg.SH_GROWN_COUNT c, 0)], noAct⟩,
   ⟨0x18, 1, 4, 4, fun _ => [(Reg.SH_SHORTFALL_COUNT c, 0)], noAct⟩,
   ⟨0x1c, 1, 4, 4, fun _ => [(Reg.SH_NAN_CNT_COUNT c, 0)], noAct⟩,
   ⟨0x20, 1, 4, 4, fun _ => [(Reg.SH_SAT_CNT_COUNT c, 0)], noAct⟩,
   ⟨0x24, 1, 4, 4, fun _ => [(Reg.SH_UFLOW_CNT_COUNT c, 0)], noAct⟩,
   ⟨0x28, 1, 4, 4, fun _ => [(Reg.SH_TILES_DONE_COUNT c, 0)], noAct⟩,
   ⟨0x2c, 1, 4, 4, fun _ => [(Reg.SH_STAT_TILE c, 2), (Reg.SH_STAT_COMP c, 2), (Reg.SH_STAT_CAP c, 2), (Reg.SH_STAT_TRUNC c, 2)],
       noAct⟩]

/-- Rows of the SH_ block. -/
def rowsSH1 (c : Nat) : List RegRow :=
  [⟨0x30, 1, 4, 4, fun _ => [(Reg.SH_FAULT_EN_TILE c, 5), (Reg.SH_FAULT_EN_COMP c, 5), (Reg.SH_FAULT_EN_CAP c, 5)], fun _ v _ _ s
       => s.shFaultEn c (v (Reg.SH_FAULT_EN_TILE c)) (v (Reg.SH_FAULT_EN_COMP c)) (v (Reg.SH_FAULT_EN_CAP c))⟩,
   ⟨0x34, 1, 4, 4, fun _ => [(Reg.SH_FAULT_CODE c, 0), (Reg.SH_FAULT_IC c, 0)], noAct⟩,
   ⟨0x40, 4, 4, 4, fun i => [(Reg.SH_REFUSE_LOG_TILE c i, 0), (Reg.SH_REFUSE_LOG_KIND c i, 0), (Reg.SH_REFUSE_LOG_VALID c i, 0)],
       noAct⟩,
   ⟨0x80, 1, 4, 4, fun _ => [(Reg.SH_CNT_CLR_CLR c, 6)], fun _ _ w _ s => if w.testBit 0 then s.shClear c else s⟩]

/-- Rows of the SH_ block. -/
def rowsSH (c : Nat) : List RegRow := rowsSH0 c ++ rowsSH1 c

/-- Rows of the SP_ region block. -/
def rowsSPR (r : Nat) : List RegRow :=
  [⟨0x0, 1, 4, 4, fun _ => [(Reg.SP_ZERO_CTL_GO r, 5)], fun _ _ w _ s => if w.testBit 0 then s.spZero r else s⟩,
   ⟨0x4, 1, 4, 4, fun _ => [(Reg.SP_ZERO_STAT_BUSY r, 0), (Reg.SP_ZERO_STAT_DONE_CNT r, 0)], noAct⟩,
   ⟨0x4000, 1024, 16, 16, fun i => [(Reg.SP_HT_VALID r i, 5), (Reg.SP_HT_KIND r i, 5), (Reg.SP_HT_ACC r i, 5), (Reg.SP_HT_PERSIST
       r i, 5), (Reg.SP_HT_BUSY r i, 0), (Reg.SP_HT_CLUSTER r i, 5), (Reg.SP_HT_TENANT r i, 5), (Reg.SP_HT_OFFSET r i, 5),
       (Reg.SP_HT_EXTENT r i, 5)], fun i v _ _ s => s.handleWrite r i ⟨v (Reg.SP_HT_VALID r i), v (Reg.SP_HT_KIND r i), v
       (Reg.SP_HT_ACC r i), v (Reg.SP_HT_PERSIST r i), v (Reg.SP_HT_CLUSTER r i), v (Reg.SP_HT_TENANT r i), v (Reg.SP_HT_OFFSET r
       i), v (Reg.SP_HT_EXTENT r i)⟩⟩]

/-- Rows of the SQ_ block. -/
def rowsSQ0 (r : Nat) : List RegRow :=
  [⟨0x0, 1, 4, 4, fun _ => [(Reg.SQ_STAT_STATE r, 0), (Reg.SQ_STAT_PHASE r, 0)], noAct⟩,
   ⟨0x4, 1, 4, 4, fun _ => [(Reg.SQ_IC_LO_COUNT r, 0)], noAct⟩,
   ⟨0x8, 1, 4, 4, fun _ => [(Reg.SQ_IC_HI_COUNT r, 0)], noAct⟩,
   ⟨0xc, 1, 4, 4, fun _ => [(Reg.SQ_LAUNCH_ID r, 0)], noAct⟩,
   ⟨0x10, 1, 4, 4, fun _ => [(Reg.SQ_FAULT_CODE r, 0), (Reg.SQ_FAULT_SLOT r, 0), (Reg.SQ_FAULT_CLUSTER r, 0),
       (Reg.SQ_FAULT_BUNDLE r, 0)], noAct⟩,
   ⟨0x14, 1, 4, 4, fun _ => [(Reg.SQ_FAULT_IC_COUNT r, 0)], noAct⟩,
   ⟨0x18, 1, 4, 4, fun _ => [(Reg.SQ_WAIT_LIMIT_US r, 1)], noAct⟩,
   ⟨0x1c, 1, 4, 4, fun _ => [(Reg.SQ_HOLD_EVT_COUNT r, 0)], noAct⟩,
   ⟨0x20, 1, 4, 4, fun _ => [(Reg.SQ_HOLD_FENCE_COUNT r, 0)], noAct⟩,
   ⟨0x24, 1, 4, 4, fun _ => [(Reg.SQ_HOLD_DMA_COUNT r, 0)], noAct⟩,
   ⟨0x28, 1, 4, 4, fun _ => [(Reg.SQ_ABORT_GO r, 5)], fun _ _ w _ s => if w.testBit 0 then s.sqAbort r else s⟩,
   ⟨0x2c, 1, 4, 4, fun _ => [(Reg.SQ_CNT_CLR_CLR r, 6)], fun _ _ w _ s => if w.testBit 0 then s.sqClear r else s⟩]

/-- Rows of the SQ_ block. -/
def rowsSQ1 (r : Nat) : List RegRow :=
  [⟨0x100, 64, 4, 4, fun i => [(Reg.SQ_EVT_VALUE r i, 1)], noAct⟩,
   ⟨0x200, 8, 16, 4, fun i => [(Reg.SQ_VU_SAT_COUNT r i, 0)], noAct⟩,
   ⟨0x204, 8, 16, 4, fun i => [(Reg.SQ_VU_UFLOW_COUNT r i, 0)], noAct⟩,
   ⟨0x208, 8, 16, 4, fun i => [(Reg.SQ_VU_INFCLAMP_COUNT r i, 0)], noAct⟩,
   ⟨0x20c, 8, 16, 4, fun i => [(Reg.SQ_VU_NANBLK_COUNT r i, 0)], noAct⟩]

/-- Rows of the SQ_ block. -/
def rowsSQ (r : Nat) : List RegRow := rowsSQ0 r ++ rowsSQ1 r

/-- Rows of the STD_ block. -/
def rowsSTD0 (d : Nat) : List RegRow :=
  [⟨0x0, 1024, 32, 32, fun i => [(Reg.STD_ENT_STATE d i, 0), (Reg.STD_ENT_LFMT d i, 0), (Reg.STD_ENT_SFMT d i, 0),
       (Reg.STD_ENT_MAPS d i, 0), (Reg.STD_ENT_BUSY d i, 0), (Reg.STD_ENT_REASON d i, 0), (Reg.STD_ENT_STACK d i, 0),
       (Reg.STD_ENT_TENANT d i, 0), (Reg.STD_ENT_GEN d i, 0), (Reg.STD_ENT_BASE d i, 0), (Reg.STD_ENT_ROWS d i, 0),
       (Reg.STD_ENT_COLS d i, 0), (Reg.STD_ENT_SIZE d i, 0), (Reg.STD_ENT_TILES d i, 0)], noAct⟩,
   ⟨0x8000, 3, 32, 8, fun i => [(Reg.STD_POOL_BASE_ADDR d i, 5)], fun i v _ _ s => s.poolWrite d i false (v
       (Reg.STD_POOL_BASE_ADDR d i))⟩,
   ⟨0x8008, 3, 32, 8, fun i => [(Reg.STD_POOL_LIM_ADDR d i, 5)], fun i v _ _ s => s.poolWrite d i true (v (Reg.STD_POOL_LIM_ADDR
       d i))⟩,
   ⟨0x8010, 3, 32, 8, fun i => [(Reg.STD_POOL_TOP_ADDR d i, 0)], noAct⟩,
   ⟨0x8100, 1, 4, 4, fun _ => [(Reg.STD_CMD_OP d, 6), (Reg.STD_CMD_ENTRY d, 6), (Reg.STD_CMD_STACK d, 6), (Reg.STD_CMD_MAPS d,
       6), (Reg.STD_CMD_LFMT d, 6), (Reg.STD_CMD_TENANT d, 6)], fun _ _ w _ s => s.stdCmd d w⟩,
   ⟨0x8104, 1, 4, 4, fun _ => [(Reg.STD_ARG_ROWS_ROWS d, 1)], noAct⟩,
   ⟨0x8108, 1, 4, 4, fun _ => [(Reg.STD_ARG_COLS_COLS d, 1)], noAct⟩,
   ⟨0x810c, 1, 4, 4, fun _ => [(Reg.STD_CMD_STAT_STATUS d, 0), (Reg.STD_CMD_STAT_PEND d, 0)], noAct⟩,
   ⟨0x8200, 1, 4, 4, fun _ => [(Reg.STD_REFUSED_COUNT d, 0)], noAct⟩,
   ⟨0x8204, 1, 4, 4, fun _ => [(Reg.STD_OPEN_REFUSED_COUNT d, 0)], noAct⟩,
   ⟨0x8208, 1, 4, 4, fun _ => [(Reg.STD_NOT_STASHED_COUNT d, 0)], noAct⟩,
   ⟨0x820c, 1, 4, 4, fun _ => [(Reg.STD_WR_LO_COUNT d, 0)], noAct⟩]

/-- Rows of the STD_ block. -/
def rowsSTD1 (d : Nat) : List RegRow :=
  [⟨0x8210, 1, 4, 4, fun _ => [(Reg.STD_WR_HI_COUNT d, 0)], noAct⟩,
   ⟨0x8214, 1, 4, 4, fun _ => [(Reg.STD_CVT_SAT_COUNT d, 0)], noAct⟩,
   ⟨0x8218, 1, 4, 4, fun _ => [(Reg.STD_CVT_NANBLK_COUNT d, 0)], noAct⟩,
   ⟨0x821c, 1, 4, 4, fun _ => [(Reg.STD_CVT_UFLOW_COUNT d, 0)], noAct⟩,
   ⟨0x8240, 8, 4, 4, fun i => [(Reg.STD_HOLD_CNT_COUNT d i, 0)], noAct⟩,
   ⟨0x8280, 4, 4, 4, fun i => [(Reg.STD_REFUSE_LOG_ENTRY d i, 0), (Reg.STD_REFUSE_LOG_REASON d i, 0), (Reg.STD_REFUSE_LOG_REGION
       d i, 0), (Reg.STD_REFUSE_LOG_VALID d i, 0)], noAct⟩,
   ⟨0x8300, 1, 4, 4, fun _ => [(Reg.STD_CNT_CLR_CLR d, 6)], fun _ _ w _ s => if w.testBit 0 then s.stdClear d else s⟩]

/-- Rows of the STD_ block. -/
def rowsSTD (d : Nat) : List RegRow := rowsSTD0 d ++ rowsSTD1 d

/-- Rows of the HC_ block. -/
def rowsHC0 (d : Nat) : List RegRow :=
  [⟨0x0, 1, 4, 4, fun _ => [(Reg.HC_HIT_LO_COUNT d, 0)], noAct⟩,
   ⟨0x4, 1, 4, 4, fun _ => [(Reg.HC_HIT_HI_COUNT d, 0)], noAct⟩,
   ⟨0x8, 1, 4, 4, fun _ => [(Reg.HC_MISS_LO_COUNT d, 0)], noAct⟩,
   ⟨0xc, 1, 4, 4, fun _ => [(Reg.HC_MISS_HI_COUNT d, 0)], noAct⟩,
   ⟨0x10, 1, 4, 4, fun _ => [(Reg.HC_WB_CNT_COUNT d, 0)], noAct⟩,
   ⟨0x14, 1, 4, 4, fun _ => [(Reg.HC_CE_CNT_COUNT d, 0)], noAct⟩,
   ⟨0x18, 1, 4, 4, fun _ => [(Reg.HC_UE_CNT_CLEAN d, 0), (Reg.HC_UE_CNT_DIRTY d, 0)], noAct⟩,
   ⟨0x1c, 1, 4, 4, fun _ => [(Reg.HC_ATOM_CNT_COUNT d, 0)], noAct⟩,
   ⟨0x20, 1, 4, 4, fun _ => [(Reg.HC_FADD_SAT_COUNT d, 0)], noAct⟩,
   ⟨0x24, 1, 4, 4, fun _ => [(Reg.HC_FADD_UFLOW_COUNT d, 0)], noAct⟩,
   ⟨0x28, 1, 4, 4, fun _ => [(Reg.HC_FLUSH_STACKS d, 1), (Reg.HC_FLUSH_GO d, 5)], fun _ _ w _ s => if w.testBit 31 then s.hcFlush
       d (s.rd (Reg.HC_FLUSH_STACKS d)) else s⟩,
   ⟨0x100, 1, 4, 4, fun _ => [(Reg.HC_WP_CMD_OP d, 6), (Reg.HC_WP_CMD_STACK d, 6)], fun _ _ w _ s => if w % 4 = 1 ∨ w % 4 = 2
       then s.wpCmd d (bitsOf w 5 4) (s.rd (Reg.HC_WP_FIRST_PAGE d)) (s.rd (Reg.HC_WP_COUNT_PAGES d)) (w % 4 == 1) else s⟩]

/-- Rows of the HC_ block. -/
def rowsHC1 (d : Nat) : List RegRow :=
  [⟨0x104, 1, 4, 4, fun _ => [(Reg.HC_WP_FIRST_PAGE d, 1)], noAct⟩,
   ⟨0x108, 1, 4, 4, fun _ => [(Reg.HC_WP_COUNT_PAGES d, 1)], noAct⟩,
   ⟨0x10c, 1, 4, 4, fun _ => [(Reg.HC_WP_STAT_PEND d, 0), (Reg.HC_WP_STAT_QUEUE d, 0)], noAct⟩,
   ⟨0x140, 3, 16, 8, fun i => [(Reg.HC_WP_SLOT_BASE_ADDR d i, 1)], noAct⟩,
   ⟨0x148, 3, 16, 4, fun i => [(Reg.HC_WP_SLOT_CNT_FREE d i, 1)], noAct⟩,
   ⟨0x180, 1, 4, 4, fun _ => [(Reg.HC_WP_COPIED_COUNT d, 0)], noAct⟩,
   ⟨0x184, 1, 4, 4, fun _ => [(Reg.HC_WP_SLOTWAIT_COUNT d, 0)], noAct⟩,
   ⟨0x188, 1, 4, 4, fun _ => [(Reg.HC_WP_STALL_MAX_NS d, 0)], noAct⟩,
   ⟨0x200, 1, 4, 4, fun _ => [(Reg.HC_CNT_CLR_CLR d, 6)], fun _ _ w _ s => if w.testBit 0 then s.hcClear d else s⟩,
   ⟨0x1000, 576, 4, 4, fun i => [(Reg.HC_WP_BITS d 0 i, 0)], noAct⟩,
   ⟨0x2000, 576, 4, 4, fun i => [(Reg.HC_WP_BITS d 1 i, 0)], noAct⟩,
   ⟨0x3000, 576, 4, 4, fun i => [(Reg.HC_WP_BITS d 2 i, 0)], noAct⟩]

/-- Rows of the HC_ block. -/
def rowsHC (d : Nat) : List RegRow := rowsHC0 d ++ rowsHC1 d

/-- Rows of the ARB_ die block. -/
def rowsARBD (d : Nat) : List RegRow :=
  [⟨0x0, 1, 4, 4, fun _ => [(Reg.ARB_CFG_MODE d, 1), (Reg.ARB_CFG_AGE d, 1), (Reg.ARB_CFG_FOREIGN_W d, 1)], noAct⟩,
   ⟨0x4, 1, 4, 4, fun _ => [(Reg.ARB_STAT_PRIO_ERR d, 2)], noAct⟩,
   ⟨0x8, 1, 4, 4, fun _ => [(Reg.ARB_CNT_CLR_CLR d, 6)], fun _ _ w _ s => if w.testBit 0 then s.arbDieClear d else s⟩,
   ⟨0x100, 96, 4, 4, fun i => [(Reg.ARB_REQ_CFG_PRIO d i, 5), (Reg.ARB_REQ_CFG_TENANT d i, 0)], fun i v _ m s => if m % 4 = 0
       then s else s.prioWrite d i (v (Reg.ARB_REQ_CFG_PRIO d i))⟩,
   ⟨0x400, 96, 4, 4, fun i => [(Reg.ARB_GRANT_COUNT d i, 0)], noAct⟩,
   ⟨0x600, 96, 4, 4, fun i => [(Reg.ARB_WAIT_COUNT d i, 0)], noAct⟩,
   ⟨0x800, 96, 4, 4, fun i => [(Reg.ARB_WAIT_MAX_COUNT d i, 0)], noAct⟩,
   ⟨0xa00, 96, 4, 4, fun i => [(Reg.ARB_AGE_CNT_COUNT d i, 0)], noAct⟩]

/-- Rows of the DMA_ block. -/
def rowsDMA (d : Nat) : List RegRow :=
  [⟨0x0, 16, 16, 4, fun i => [(Reg.DMA_SAT_COUNT d i, 0)], noAct⟩,
   ⟨0x4, 16, 16, 4, fun i => [(Reg.DMA_INFCLAMP_COUNT d i, 0)], noAct⟩,
   ⟨0x8, 16, 16, 4, fun i => [(Reg.DMA_NANBLK_COUNT d i, 0)], noAct⟩,
   ⟨0xc, 16, 16, 4, fun i => [(Reg.DMA_UFLOW_COUNT d i, 0)], noAct⟩,
   ⟨0x100, 1, 4, 4, fun _ => [(Reg.DMA_CNT_CLR_CLR d, 6)], fun _ _ w _ s => if w.testBit 0 then s.dmaClear d else s⟩]

/-- Rows of the HBM_ block. -/
def rowsHBM (k : Nat) : List RegRow :=
  [⟨0x0, 1, 4, 4, fun _ => [(Reg.HBM_STAT_STATE k, 0), (Reg.HBM_STAT_RATE k, 0), (Reg.HBM_STAT_HOT k, 0), (Reg.HBM_STAT_TEMP k,
       0)], noAct⟩,
   ⟨0x4, 1, 4, 4, fun _ => [(Reg.HBM_CFG_FORCE2X k, 1), (Reg.HBM_CFG_CAL_PERIOD k, 1), (Reg.HBM_CFG_MAXRATE k, 1)],
       fun _ _ _ _ s => s.refreshRate k⟩,
   ⟨0x8, 1, 4, 4, fun _ => [(Reg.HBM_CE_CNT_COUNT k, 0)], noAct⟩,
   ⟨0xc, 1, 4, 4, fun _ => [(Reg.HBM_UE_CNT_COUNT k, 0)], noAct⟩,
   ⟨0x10, 1, 4, 4, fun _ => [(Reg.HBM_ODECC_CNT_COUNT k, 0)], noAct⟩,
   ⟨0x14, 1, 4, 4, fun _ => [(Reg.HBM_HOLE_CNT_COUNT k, 0)], noAct⟩,
   ⟨0x18, 1, 4, 4, fun _ => [(Reg.HBM_CAL_CNT_COUNT k, 0)], noAct⟩,
   ⟨0x1c, 1, 4, 4, fun _ => [(Reg.HBM_CAL_FAIL_COUNT k, 0)], noAct⟩,
   ⟨0x20, 1, 4, 4, fun _ => [(Reg.HBM_ZERO_CTL_GO k, 5)], fun _ _ w _ s => if w.testBit 0 then s.hbmZero k else s⟩,
   ⟨0x24, 1, 4, 4, fun _ => [(Reg.HBM_ZERO_STAT_STATUS k, 0), (Reg.HBM_ZERO_STAT_DONE_CNT k, 0)], noAct⟩,
   ⟨0x40, 4, 4, 4, fun i => [(Reg.HBM_UE_LOG_GRANULE k i, 0), (Reg.HBM_UE_LOG_KIND k i, 0), (Reg.HBM_UE_LOG_VALID k i, 0)], noAct⟩,
   ⟨0x80, 1, 4, 4, fun _ => [(Reg.HBM_CNT_CLR_CLR k, 6)], fun _ _ w _ s => if w.testBit 0 then s.hbmClear k else s⟩]

/-- Rows of the MOD_ block. -/
def rowsMOD0 : List RegRow :=
  [⟨0x0, 1, 4, 4, fun _ => [(Reg.MOD_ID_CAP, 0), (Reg.MOD_ID_STEP, 0)], noAct⟩,
   ⟨0x8, 1, 4, 4, fun _ => [(Reg.MOD_SERIAL_LO, 0)], noAct⟩,
   ⟨0xc, 1, 4, 4, fun _ => [(Reg.MOD_SERIAL_HI, 0)], noAct⟩,
   ⟨0x10, 1, 4, 4, fun _ => [(Reg.MOD_STRAP_SLOT_ID, 0), (Reg.MOD_STRAP_MGR_EN, 0), (Reg.MOD_STRAP_FEED_ID, 0)], noAct⟩,
   ⟨0x20, 1, 4, 4, fun _ => [(Reg.MOD_RESET_CAUSE_POR, 2), (Reg.MOD_RESET_CAUSE_PIN, 2), (Reg.MOD_RESET_CAUSE_WDT, 2),
       (Reg.MOD_RESET_CAUSE_CORE, 0), (Reg.MOD_RESET_CAUSE_PARITY, 2), (Reg.MOD_RESET_CAUSE_IOD, 2), (Reg.MOD_RESET_CAUSE_SOFT,
       2), (Reg.MOD_RESET_CAUSE_BOOT, 2)], fun _ _ _ _ s => s.wr (In.alert 0) 0⟩,
   ⟨0x24, 1, 4, 4, fun _ => [(Reg.MOD_RESET_CTL_WARM, 5)], fun _ _ w _ s => if w.testBit 0 then s.resetCtl else s⟩,
   ⟨0x30, 1, 4, 4, fun _ => [(Reg.MOD_BOOT_STAGE, 0), (Reg.MOD_BOOT_SLOT, 0), (Reg.MOD_BOOT_TRIAL, 0), (Reg.MOD_BOOT_ROLLED_BACK,
       0), (Reg.MOD_BOOT_TRIES, 0), (Reg.MOD_BOOT_MS, 0)], noAct⟩,
   ⟨0x34, 1, 4, 4, fun _ => [(Reg.MOD_BOOT_LIMIT_S, 1)], noAct⟩,
   ⟨0x38, 1, 4, 4, fun _ => [(Reg.MOD_SVN_MIN, 0)], noAct⟩,
   ⟨0x3c, 1, 4, 4, fun _ => [(Reg.MOD_FW_VER_VERSION, 0)], noAct⟩,
   ⟨0x40, 1, 4, 4, fun _ => [(Reg.MOD_READY_STATUS, 1)], noAct⟩,
   ⟨0x44, 1, 4, 4, fun _ => [(Reg.MOD_READY_REGIONS_MASK, 1)], noAct⟩]

/-- Rows of the MOD_ block. -/
def rowsMOD1 : List RegRow :=
  [⟨0x48, 1, 4, 4, fun _ => [(Reg.MOD_READY_STACKS_MASK, 1)], noAct⟩,
   ⟨0x50, 1, 4, 4, fun _ => [(Reg.MOD_CC_RUN_RUN, 5)], fun _ v _ _ s => s.ccRun (v Reg.MOD_CC_RUN_RUN)⟩,
   ⟨0x60, 1, 4, 4, fun _ => [(Reg.MOD_CSRAM_CE_COUNT, 0)], noAct⟩,
   ⟨0x64, 1, 4, 4, fun _ => [(Reg.MOD_CSRAM_UE_COUNT, 0)], noAct⟩,
   ⟨0x68, 1, 4, 4, fun _ => [(Reg.MOD_CC_PARITY_COUNT, 0)], noAct⟩,
   ⟨0x100, 8, 16, 4, fun i => [(Reg.MOD_WDT_PERIOD i, 1), (Reg.MOD_WDT_EN i, 5)], fun i _ w _ s => if w.testBit 31 then s.wdtArm
       i (s.rd (Reg.MOD_WDT_PERIOD i)) else s⟩,
   ⟨0x104, 8, 16, 4, fun i => [(Reg.MOD_WDT_KICK_KEY i, 6)], fun i _ w _ s => s.wdtKick i (w % 256)⟩,
   ⟨0x108, 8, 16, 4, fun i => [(Reg.MOD_WDT_LEFT_MS i, 0)], noAct⟩,
   ⟨0x200, 8, 16, 4, fun i => [(Reg.MOD_LAUNCH_LO_ADDR i, 4)], noAct⟩,
   ⟨0x204, 8, 16, 4, fun i => [(Reg.MOD_LAUNCH_HI_ADDR i, 6)], fun i _ w _ s => s.launchSubmit i (w % 2 ^ 16)⟩,
   ⟨0x208, 8, 16, 4, fun i => [(Reg.MOD_LAUNCH_STAT_PEND i, 0)], noAct⟩]

/-- Rows of the MOD_ block. -/
def rowsMOD : List RegRow := rowsMOD0 ++ rowsMOD1

/-- Rows of the PWR_ block. -/
def rowsPWR0 : List RegRow :=
  [⟨0x0, 1, 4, 4, fun _ => [(Reg.PWR_MODE_REQ, 1)], noAct⟩,
   ⟨0x4, 1, 4, 4, fun _ => [(Reg.PWR_STAT_STATE, 0), (Reg.PWR_STAT_LAST, 0), (Reg.PWR_STAT_WAKE_BIT, 0)], noAct⟩,
   ⟨0x8, 1, 4, 4, fun _ => [(Reg.PWR_MSG_CODE, 0), (Reg.PWR_MSG_REGION, 0), (Reg.PWR_MSG_PEND, 2)], noAct⟩,
   ⟨0x10, 8, 4, 4, fun i => [(Reg.PWR_JOBS i, 1)], noAct⟩,
   ⟨0x40, 1, 4, 4, fun _ => [(Reg.PWR_RGATE_REQ, 5)], fun _ _ w _ s => s.gateRequest w⟩,
   ⟨0x44, 1, 4, 4, fun _ => [(Reg.PWR_RSTATE_GATED, 0)], noAct⟩,
   ⟨0x48, 1, 4, 4, fun _ => [(Reg.PWR_RWAKE_WAKE, 5)], fun _ _ w _ s => s.wakeRequest w⟩,
   ⟨0x4c, 1, 4, 4, fun _ => [(Reg.PWR_DRAIN_TIMEOUT_US, 1)], noAct⟩,
   ⟨0x50, 1, 4, 4, fun _ => [(Reg.PWR_WAKE_EN, 5)], fun _ v _ _ s => s.wr Reg.PWR_WAKE_EN (v Reg.PWR_WAKE_EN &&& 0x1333F3F)⟩,
   ⟨0x54, 1, 4, 4, fun _ => [(Reg.PWR_WAKE_POL_A, 1), (Reg.PWR_WAKE_POL_B, 1)], noAct⟩,
   ⟨0x58, 1, 4, 4, fun _ => [(Reg.PWR_WAKE_DEB_US, 1)], noAct⟩,
   ⟨0x5c, 1, 4, 4, fun _ => [(Reg.PWR_WAKE_SRC, 2)], noAct⟩]

/-- Rows of the PWR_ block. -/
def rowsPWR1 : List RegRow :=
  [⟨0x60, 1, 4, 4, fun _ => [(Reg.PWR_RET_STACK_MASK, 1)], noAct⟩,
   ⟨0x64, 1, 4, 4, fun _ => [(Reg.PWR_PROBE_PERIOD_MS, 1)], noAct⟩,
   ⟨0x80, 8, 4, 4, fun i => [(Reg.PWR_PROBE_CMP_SRC i, 1), (Reg.PWR_PROBE_CMP_OP i, 1), (Reg.PWR_PROBE_CMP_THRESH i, 1)], noAct⟩,
   ⟨0xa0, 8, 4, 4, fun i => [(Reg.PWR_PROBE_VAL_VALUE i, 0), (Reg.PWR_PROBE_VAL_MATCH i, 2)], noAct⟩,
   ⟨0x100, 1, 4, 4, fun _ => [(Reg.PWR_REFUSED_COUNT, 0)], noAct⟩,
   ⟨0x104, 1, 4, 4, fun _ => [(Reg.PWR_ABORTED_COUNT, 0)], noAct⟩,
   ⟨0x108, 1, 4, 4, fun _ => [(Reg.PWR_GATE_CNT_COUNT, 0)], noAct⟩,
   ⟨0x10c, 1, 4, 4, fun _ => [(Reg.PWR_WAKE_CNT_COUNT, 0)], noAct⟩,
   ⟨0x110, 1, 4, 4, fun _ => [(Reg.PWR_WAKE_MAX_NS, 0)], noAct⟩,
   ⟨0x140, 4, 4, 4, fun i => [(Reg.PWR_REFUSE_LOG_KIND i, 0), (Reg.PWR_REFUSE_LOG_INDEX i, 0), (Reg.PWR_REFUSE_LOG_DIE i, 0),
       (Reg.PWR_REFUSE_LOG_STATE i, 0), (Reg.PWR_REFUSE_LOG_REGION i, 0), (Reg.PWR_REFUSE_LOG_ABORTED i, 0),
       (Reg.PWR_REFUSE_LOG_VALID i, 0)], noAct⟩,
   ⟨0x180, 1, 4, 4, fun _ => [(Reg.PWR_CNT_CLR_CLR, 6)], fun _ _ w _ s => if w.testBit 0 then s.pwrClear else s⟩,
   ⟨0x1000, 256, 8, 4, fun i => [(Reg.PWR_RET_BANK_LO i, 1)], noAct⟩]

/-- Rows of the PWR_ block. -/
def rowsPWR2 : List RegRow :=
  [⟨0x1004, 256, 8, 4, fun i => [(Reg.PWR_RET_BANK_HI i, 1)], noAct⟩]

/-- Rows of the PWR_ block. -/
def rowsPWR : List RegRow := rowsPWR0 ++ rowsPWR1 ++ rowsPWR2

/-- Rows of the HLT_ block. -/
def rowsHLT0 : List RegRow :=
  [⟨0x0, 1, 4, 4, fun _ => [(Reg.HLT_RISK_SCORE, 0)], noAct⟩,
   ⟨0x4, 1, 4, 4, fun _ => [(Reg.HLT_RISK_BIAS_BIAS, 1)], noAct⟩,
   ⟨0x10, 1, 4, 4, fun _ => [(Reg.HLT_LOG_HEAD_INDEX, 0)], noAct⟩,
   ⟨0x14, 1, 4, 4, fun _ => [(Reg.HLT_LOG_TAIL_INDEX, 1)], noAct⟩,
   ⟨0x18, 1, 4, 4, fun _ => [(Reg.HLT_LOG_LOST_COUNT, 0)], noAct⟩,
   ⟨0x20, 1, 4, 4, fun _ => [(Reg.HLT_STEST_CTL_REGION, 6), (Reg.HLT_STEST_CTL_MODE, 6), (Reg.HLT_STEST_CTL_GO, 6),
       (Reg.HLT_STEST_CTL_ABORT, 6)], fun _ _ w _ s => s.stestCtl w⟩,
   ⟨0x24, 1, 8, 8, fun _ => [(Reg.HLT_STEST_STAT_PEND, 0), (Reg.HLT_STEST_STAT_RUN, 0)], noAct⟩,
   ⟨0x2c, 1, 4, 4, fun _ => [(Reg.HLT_STEST_ERR_ASSIGNED, 2)], noAct⟩,
   ⟨0x30, 1, 4, 4, fun _ => [(Reg.HLT_CNT_CLR_CLR, 6)], fun _ _ w _ s => if w.testBit 0 then s.hltClear else s⟩,
   ⟨0x100, 32, 4, 4, fun i => [(Reg.HLT_STEST_RES_RESULT i, 0), (Reg.HLT_STEST_RES_UNIT i, 0), (Reg.HLT_STEST_RES_CLUSTER i, 0),
       (Reg.HLT_STEST_RES_ROWS i, 0)], noAct⟩,
   ⟨0x200, 32, 16, 16, fun i => [(Reg.HLT_REGION_SAT i, 0), (Reg.HLT_REGION_UFLOW i, 0), (Reg.HLT_REGION_FTZ i, 0),
       (Reg.HLT_REGION_OVF i, 0)], noAct⟩,
   ⟨0x400, 1, 4, 4, fun _ => [(Reg.HLT_FEED_A_USED, 0), (Reg.HLT_FEED_B_USED, 0), (Reg.HLT_FEED_A_INRANGE, 0),
       (Reg.HLT_FEED_B_INRANGE, 0), (Reg.HLT_FEED_A_ISO, 0), (Reg.HLT_FEED_B_ISO, 0), (Reg.HLT_FEED_REV_A, 2),
       (Reg.HLT_FEED_REV_B, 2), (Reg.HLT_FEED_LOSS_A, 2), (Reg.HLT_FEED_LOSS_B, 2), (Reg.HLT_FEED_OUT_A, 2), (Reg.HLT_FEED_OUT_B,
       2), (Reg.HLT_FEED_ISO_A, 2), (Reg.HLT_FEED_ISO_B, 2), (Reg.HLT_FEED_PRES, 0)], noAct⟩]

/-- Rows of the HLT_ block. -/
def rowsHLT1 : List RegRow :=
  [⟨0x404, 1, 4, 4, fun _ => [(Reg.HLT_PIN_FAULT_SHORT_LO, 2), (Reg.HLT_PIN_FAULT_SHORT_HI, 2), (Reg.HLT_PIN_FAULT_SCL_STUCK, 2),
       (Reg.HLT_PIN_FAULT_SDA_STUCK, 2), (Reg.HLT_PIN_FAULT_SLOT_OPEN, 0), (Reg.HLT_PIN_FAULT_MGR_OPEN, 0),
       (Reg.HLT_PIN_FAULT_FEED_OPEN, 0)], fun _ _ _ _ s => s.pinsSeen⟩,
   ⟨0x408, 1, 4, 4, fun _ => [(Reg.HLT_RAIL_FAULT_RAIL, 0), (Reg.HLT_RAIL_FAULT_KIND, 0), (Reg.HLT_RAIL_FAULT_STRIKES, 0),
       (Reg.HLT_RAIL_FAULT_VALID, 2)], noAct⟩,
   ⟨0x800, 256, 16, 16, fun i => [(Reg.HLT_LOG_KIND i, 0), (Reg.HLT_LOG_UNIT i, 0), (Reg.HLT_LOG_DETAIL i, 0), (Reg.HLT_LOG_MS i,
       0)], noAct⟩]

/-- Rows of the HLT_ block. -/
def rowsHLT : List RegRow := rowsHLT0 ++ rowsHLT1

/-- Rows of the SEC_ block. -/
def rowsSEC : List RegRow :=
  [⟨0x0, 16, 4, 4, fun i => [(Reg.SEC_ID_PUB i, 0)], noAct⟩,
   ⟨0x40, 16, 4, 4, fun i => [(Reg.SEC_ROOT_HASH i, 0)], noAct⟩,
   ⟨0x100, 128, 4, 4, fun i => [(Reg.SEC_MEAS (i / 16) (i % 16), 0)], noAct⟩,
   ⟨0x300, 16, 4, 4, fun i => [(Reg.SEC_MEAS_IN i, 4)], noAct⟩,
   ⟨0x340, 1, 4, 4, fun _ => [(Reg.SEC_MEAS_CTL_IDX, 4), (Reg.SEC_MEAS_CTL_GO, 6), (Reg.SEC_MEAS_CTL_ERR, 2)], fun _ v w _ s =>
       if w.testBit 8 then s.measGo (v Reg.SEC_MEAS_CTL_IDX) else s⟩,
   ⟨0x344, 1, 4, 4, fun _ => [(Reg.SEC_MEAS_LOCK_LOCK, 5)], fun _ _ w _ s => s.measLock (w % 256)⟩,
   ⟨0x400, 1, 4, 4, fun _ => [(Reg.SEC_DBG_STAT_STATE, 0), (Reg.SEC_DBG_STAT_EVER, 0)], noAct⟩,
   ⟨0x404, 1, 4, 4, fun _ => [(Reg.SEC_DBG_FAIL_COUNT, 0), (Reg.SEC_DBG_FAIL_WAIT_S, 0)], noAct⟩,
   ⟨0x408, 1, 4, 4, fun _ => [(Reg.SEC_DBG_KEYSET_KEYS, 0), (Reg.SEC_DBG_KEYSET_PWD, 0)], noAct⟩,
   ⟨0x40c, 1, 4, 4, fun _ => [(Reg.SEC_FW_REVOKE_KEYS, 3)], noAct⟩]

/-- Rows of the TEN_ block. -/
def rowsTEN : List RegRow :=
  [⟨0x0, 32, 4, 4, fun i => [(Reg.TEN_REGION_OWNER i, 5), (Reg.TEN_REGION_PEND i, 0), (Reg.TEN_REGION_STATUS i, 0)], fun i v _ m
       s => if m % 256 = 0 then s else s.tenRegion i (v (Reg.TEN_REGION_OWNER i))⟩,
   ⟨0x80, 12, 4, 4, fun i => [(Reg.TEN_STACK_OWNER i, 5), (Reg.TEN_STACK_PEND i, 0), (Reg.TEN_STACK_STATUS i, 0)], fun i v _ m s
       => if m % 256 = 0 then s else s.tenStack i (v (Reg.TEN_STACK_OWNER i))⟩,
   ⟨0x100, 254, 4, 4, fun i => [(Reg.TEN_SHARE_SHARE i, 1)], noAct⟩,
   ⟨0x800, 1, 8, 8, fun _ => [(Reg.TEN_MREC_BASE_ADDR, 1)], noAct⟩,
   ⟨0x808, 1, 4, 4, fun _ => [(Reg.TEN_MREC_SIZE_ENTRIES, 1)], noAct⟩,
   ⟨0x80c, 1, 4, 4, fun _ => [(Reg.TEN_MREC_HEAD_INDEX, 0)], noAct⟩,
   ⟨0x810, 1, 4, 4, fun _ => [(Reg.TEN_MREC_TAIL_INDEX, 5)], fun _ v _ _ s => s.meterTail (v Reg.TEN_MREC_TAIL_INDEX)⟩,
   ⟨0x820, 1, 4, 4, fun _ => [(Reg.TEN_MSEQ_LO, 0)], noAct⟩,
   ⟨0x824, 1, 4, 4, fun _ => [(Reg.TEN_MSEQ_HI, 0)], noAct⟩,
   ⟨0x828, 1, 4, 4, fun _ => [(Reg.TEN_ZERO_CNT_COUNT, 0)], noAct⟩]

/-- Rows of the SNP_ block. -/
def rowsSNP0 : List RegRow :=
  [⟨0x0, 1, 4, 4, fun _ => [(Reg.SNP_CTL_OP, 6), (Reg.SNP_CTL_JSLOT, 6), (Reg.SNP_CTL_SRC, 6)], fun _ _ w _ s => s.snpCtl (bitsOf
       w 2 0) (bitsOf w 6 4) (bitsOf w 9 8)⟩,
   ⟨0x4, 1, 4, 4, fun _ => [(Reg.SNP_CTL_STAT_CODE, 0), (Reg.SNP_CTL_STAT_PEND, 0)], noAct⟩,
   ⟨0x8, 1, 4, 4, fun _ => [(Reg.SNP_RISK_THRESH, 1), (Reg.SNP_RISK_HYST, 1), (Reg.SNP_RISK_SCORE, 0), (Reg.SNP_RISK_ARMED, 0)],
       noAct⟩,
   ⟨0xc, 1, 4, 4, fun _ => [(Reg.SNP_PARTNER_STATE, 0), (Reg.SNP_PARTNER_TIER2, 0), (Reg.SNP_PARTNER_FEED, 0),
       (Reg.SNP_PARTNER_LAG_S, 0)], noAct⟩,
   ⟨0x10, 1, 4, 4, fun _ => [(Reg.SNP_PARTNER_SER_LO, 0)], noAct⟩,
   ⟨0x14, 1, 4, 4, fun _ => [(Reg.SNP_PARTNER_SER_HI, 0)], noAct⟩,
   ⟨0x20, 1, 4, 4, fun _ => [(Reg.SNP_DONE_CNT_COUNT, 0)], noAct⟩,
   ⟨0x24, 1, 4, 4, fun _ => [(Reg.SNP_FAIL_CNT_COUNT, 0)], noAct⟩,
   ⟨0x28, 1, 4, 4, fun _ => [(Reg.SNP_REPLAY_OK_COUNT, 0)], noAct⟩,
   ⟨0x2c, 1, 4, 4, fun _ => [(Reg.SNP_REPLAY_BAD_COUNT, 0)], noAct⟩,
   ⟨0x30, 1, 4, 4, fun _ => [(Reg.SNP_HELD_CNT_COUNT, 0)], noAct⟩,
   ⟨0x34, 1, 4, 4, fun _ => [(Reg.SNP_FLASH_LO, 0)], noAct⟩]

/-- Rows of the SNP_ block. -/
def rowsSNP1 : List RegRow :=
  [⟨0x38, 1, 4, 4, fun _ => [(Reg.SNP_FLASH_HI, 0)], noAct⟩,
   ⟨0x80, 1, 4, 4, fun _ => [(Reg.SNP_CNT_CLR_CLR, 6)], fun _ _ w _ s => if w.testBit 0 then s.snpClear else s⟩,
   ⟨0x100, 8, 64, 8, fun i => [(Reg.SNP_JOB_CFG_VALID i, 1), (Reg.SNP_JOB_CFG_VERIFY i, 1), (Reg.SNP_JOB_CFG_LOSS_FMT i, 1),
       (Reg.SNP_JOB_CFG_TENANT i, 1), (Reg.SNP_JOB_CFG_JOB i, 1)], noAct⟩,
   ⟨0x108, 8, 64, 8, fun i => [(Reg.SNP_JOB_CURSOR_ADDR i, 1)], noAct⟩,
   ⟨0x110, 8, 64, 8, fun i => [(Reg.SNP_JOB_LOSS_ADDR i, 1)], noAct⟩,
   ⟨0x118, 8, 64, 4, fun i => [(Reg.SNP_JOB_STEP_STEP i, 1)], noAct⟩,
   ⟨0x11c, 8, 64, 4, fun i => [(Reg.SNP_JOB_MTBF_S i, 1)], noAct⟩,
   ⟨0x120, 8, 64, 4, fun i => [(Reg.SNP_JOB_INTERVAL_S i, 1)], noAct⟩,
   ⟨0x124, 8, 64, 4, fun i => [(Reg.SNP_JOB_ELAPSED_MS i, 0)], noAct⟩,
   ⟨0x128, 8, 64, 4, fun i => [(Reg.SNP_JOB_STAT_STATE i, 0), (Reg.SNP_JOB_STAT_DUE i, 0), (Reg.SNP_JOB_STAT_CAUSE i, 0),
       (Reg.SNP_JOB_STAT_LATEST i, 0), (Reg.SNP_JOB_STAT_ERR i, 0), (Reg.SNP_JOB_STAT_TARGET i, 0)], noAct⟩,
   ⟨0x12c, 8, 64, 4, fun i => [(Reg.SNP_JOB_SEQ_SEQ i, 0)], noAct⟩,
   ⟨0x130, 8, 64, 4, fun i => [(Reg.SNP_JOB_LEFT_UNITS i, 0)], noAct⟩]

/-- Rows of the SNP_ block. -/
def rowsSNP : List RegRow := rowsSNP0 ++ rowsSNP1

/-- Rows of the DBG_ block. -/
def rowsDBG : List RegRow :=
  [⟨0x0, 1, 4, 4, fun _ => [(Reg.DBG_CTL_SCAN_REGION, 1)], noAct⟩,
   ⟨0x4, 1, 4, 4, fun _ => [(Reg.DBG_HALT_MASK, 5)], fun _ v _ _ s => s.dbgHalt (v Reg.DBG_HALT_MASK) 0⟩,
   ⟨0x8, 1, 4, 4, fun _ => [(Reg.DBG_STEP_REGION, 6)], fun _ _ w _ s => s.dbgStep (w % 32)⟩,
   ⟨0x10, 1, 4, 4, fun _ => [(Reg.DBG_ADDR_REGION, 1), (Reg.DBG_ADDR_CLUSTER, 1), (Reg.DBG_ADDR_SPACE, 1), (Reg.DBG_ADDR_OFFSET,
       1)], noAct⟩,
   ⟨0x18, 1, 4, 4, fun _ => [(Reg.DBG_DATA_LO, 1)], noAct⟩,
   ⟨0x1c, 1, 4, 4, fun _ => [(Reg.DBG_DATA_HI, 5)], fun _ v _ _ s => s.dbgDataHi (v Reg.DBG_DATA_HI)⟩,
   ⟨0x20, 1, 4, 4, fun _ => [(Reg.DBG_INJ_TARGET, 1), (Reg.DBG_INJ_BITS, 1), (Reg.DBG_INJ_ARM, 3)], noAct⟩,
   ⟨0x28, 1, 4, 4, fun _ => [(Reg.DBG_INJ_ADDR_LO, 1)], noAct⟩,
   ⟨0x2c, 1, 4, 4, fun _ => [(Reg.DBG_INJ_ADDR_HI, 1)], noAct⟩]

/-- Rows of the CLK_ block. -/
def rowsCLK : List RegRow :=
  [⟨0x0, 32, 4, 4, fun i => [(Reg.CLK_ISL_CAP i, 1), (Reg.CLK_ISL_CUR i, 0), (Reg.CLK_ISL_PWR i, 0), (Reg.CLK_ISL_THERM i, 0),
       (Reg.CLK_ISL_STATE i, 0)], noAct⟩,
   ⟨0x100, 32, 8, 4, fun i => [(Reg.CLK_PER_LO_COUNT i, 0)], noAct⟩,
   ⟨0x104, 32, 8, 4, fun i => [(Reg.CLK_PER_HI_COUNT i, 0)], noAct⟩,
   ⟨0x200, 32, 4, 4, fun i => [(Reg.CLK_HELD_COUNT i, 0)], noAct⟩,
   ⟨0x280, 1, 4, 4, fun _ => [(Reg.CLK_DOM_STAT_RUN, 0)], noAct⟩,
   ⟨0x284, 1, 4, 4, fun _ => [(Reg.CLK_XING_STUCK_COUNT, 0)], noAct⟩,
   ⟨0x288, 1, 4, 4, fun _ => [(Reg.CLK_XING_LOG_SRC, 0), (Reg.CLK_XING_LOG_DST, 0), (Reg.CLK_XING_LOG_VALID, 0)], noAct⟩,
   ⟨0x28c, 1, 4, 4, fun _ => [(Reg.CLK_CNT_CLR_CLR, 6)], fun _ _ w _ s => if w.testBit 0 then s.clkClear else s⟩]

/-- Rows of the ARB_ port block. -/
def rowsARBP : List RegRow :=
  [⟨0x1000, 448, 4, 4, fun i => [(Reg.ARB_SLOT_ACT (i / 64) (i % 64), 0)], noAct⟩,
   ⟨0x2000, 448, 4, 4, fun i => [(Reg.ARB_SLOT_SHD (i / 64) (i % 64), 5)], fun i v _ _ s => s.shadowWrite (i / 64) (i % 64) (v
       (Reg.ARB_SLOT_SHD (i / 64) (i % 64)))⟩,
   ⟨0x3000, 7, 16, 4, fun i => [(Reg.ARB_SLOT_CTL_ARM i, 3)], noAct⟩,
   ⟨0x3004, 7, 16, 4, fun i => [(Reg.ARB_SLOT_STAT_SWAPS i, 0), (Reg.ARB_SLOT_STAT_LATE i, 0)], noAct⟩,
   ⟨0x3008, 7, 16, 4, fun i => [(Reg.ARB_SLOT_LENT_COUNT i, 0)], noAct⟩,
   ⟨0x300c, 7, 16, 4, fun i => [(Reg.ARB_SLOT_P0_COUNT i, 0)], noAct⟩,
   ⟨0x3100, 1, 4, 4, fun _ => [(Reg.ARBP_CNT_CLR_CLR, 6)], fun _ _ w _ s => if w.testBit 0 then s.arbPortClear else s⟩]

/-- Rows of the OZL_ block. -/
def rowsOZL0 (p : Nat) : List RegRow :=
  [⟨0x0, 1, 4, 4, fun _ => [(Reg.OZL_CTL_EN p, 5), (Reg.OZL_CTL_RETRAIN p, 5), (Reg.OZL_CTL_ACCEPT p, 5), (Reg.OZL_CTL_WAKE_TX p,
       5)], fun _ _ w m s => s.ozlCtl p w m⟩,
   ⟨0x4, 1, 4, 4, fun _ => [(Reg.OZL_CFG_MAXW p, 1), (Reg.OZL_CFG_RETRAIN_MAX p, 1), (Reg.OZL_CFG_SYM_LIMIT p, 1)], noAct⟩,
   ⟨0x8, 1, 4, 4, fun _ => [(Reg.OZL_STAT_STATE p, 0), (Reg.OZL_STAT_WIDTH p, 0), (Reg.OZL_STAT_MISWIRE p, 0),
       (Reg.OZL_STAT_REFCLK p, 0)], noAct⟩,
   ⟨0xc, 1, 4, 4, fun _ => [(Reg.OZL_LANE_BAD_RX p, 0), (Reg.OZL_LANE_BAD_TX p, 0)], noAct⟩,
   ⟨0x10, 1, 4, 4, fun _ => [(Reg.OZL_LANE_POL_INV p, 0)], noAct⟩,
   ⟨0x14, 1, 4, 4, fun _ => [(Reg.OZL_LANE_MAP_LO p, 0)], noAct⟩,
   ⟨0x18, 1, 4, 4, fun _ => [(Reg.OZL_LANE_MAP_HI p, 0)], noAct⟩,
   ⟨0x1c, 1, 4, 4, fun _ => [(Reg.OZL_PEER_LO p, 0)], noAct⟩,
   ⟨0x20, 1, 4, 4, fun _ => [(Reg.OZL_PEER_HI p, 0)], noAct⟩,
   ⟨0x24, 1, 4, 4, fun _ => [(Reg.OZL_PEER_PORT_PORT p, 0)], noAct⟩,
   ⟨0x28, 1, 4, 4, fun _ => [(Reg.OZL_FEC_CORR_COUNT p, 0)], noAct⟩,
   ⟨0x2c, 1, 4, 4, fun _ => [(Reg.OZL_FEC_UNCORR_COUNT p, 0)], noAct⟩]

/-- Rows of the OZL_ block. -/
def rowsOZL1 (p : Nat) : List RegRow :=
  [⟨0x30, 1, 4, 4, fun _ => [(Reg.OZL_CRC_ERR_COUNT p, 0)], noAct⟩,
   ⟨0x34, 1, 4, 4, fun _ => [(Reg.OZL_REPLAY_COUNT p, 0)], noAct⟩,
   ⟨0x38, 1, 4, 4, fun _ => [(Reg.OZL_RETRAIN_CNT_COUNT p, 0)], noAct⟩,
   ⟨0x3c, 1, 4, 4, fun _ => [(Reg.OZL_DOWN_CNT_COUNT p, 0)], noAct⟩,
   ⟨0x40, 1, 4, 4, fun _ => [(Reg.OZL_WAKE_PATTERN p, 0), (Reg.OZL_WAKE_ACTIVITY p, 0)], noAct⟩,
   ⟨0x44, 1, 4, 4, fun _ => [(Reg.OZL_TX_LO_COUNT p, 0)], noAct⟩,
   ⟨0x48, 1, 4, 4, fun _ => [(Reg.OZL_TX_HI_COUNT p, 0)], noAct⟩,
   ⟨0x4c, 1, 4, 4, fun _ => [(Reg.OZL_RX_LO_COUNT p, 0)], noAct⟩,
   ⟨0x50, 1, 4, 4, fun _ => [(Reg.OZL_RX_HI_COUNT p, 0)], noAct⟩,
   ⟨0x80, 16, 4, 4, fun i => [(Reg.OZL_SYMERR_COUNT p i, 0)], noAct⟩,
   ⟨0xc0, 1, 4, 4, fun _ => [(Reg.OZL_CNT_CLR_CLR p, 6)], fun _ _ w _ s => if w.testBit 0 then s.ozlClear p else s⟩]

/-- Rows of the OZL_ block. -/
def rowsOZL (p : Nat) : List RegRow := rowsOZL0 p ++ rowsOZL1 p

/-- Rows of the OZL_ common block. -/
def rowsOZLC : List RegRow :=
  [⟨0x0, 1, 4, 4, fun _ => [(Reg.OZL_COORD_X, 1), (Reg.OZL_COORD_Y, 1), (Reg.OZL_COORD_Z, 1), (Reg.OZL_COORD_SX, 1),
       (Reg.OZL_COORD_SY, 1), (Reg.OZL_COORD_SZ, 1)], noAct⟩]

/-- Rows of the HTP_ block. -/
def rowsHTP0 : List RegRow :=
  [⟨0x0, 1, 4, 4, fun _ => [(Reg.HTP_CTL_EN, 1)], fun _ _ _ _ s => if s.on Reg.HTP_CTL_EN then s else s.hostDown⟩,
   ⟨0x4, 1, 4, 4, fun _ => [(Reg.HTP_CFG_VLAN_EN, 1), (Reg.HTP_CFG_VID, 1), (Reg.HTP_CFG_RETRY_MAX, 1)], noAct⟩,
   ⟨0x8, 1, 4, 4, fun _ => [(Reg.HTP_STAT_LINK, 0), (Reg.HTP_STAT_REFCLK, 0)], noAct⟩,
   ⟨0xc, 1, 4, 4, fun _ => [(Reg.HTP_RTO_US, 1)], noAct⟩,
   ⟨0x10, 1, 4, 4, fun _ => [(Reg.HTP_MAC_LO, 1)], noAct⟩,
   ⟨0x14, 1, 4, 4, fun _ => [(Reg.HTP_MAC_HI, 1)], noAct⟩,
   ⟨0x20, 4, 4, 4, fun i => [(Reg.HTP_ADDR_DATA i, 1)], noAct⟩,
   ⟨0x30, 4, 4, 4, fun i => [(Reg.HTP_ADDR_MGMT i, 1)], noAct⟩,
   ⟨0x40, 2, 32, 8, fun i => [(Reg.HTP_RING_BASE_ADDR i, 5)], fun i v _ _ s => if s.on Reg.HTP_CTL_EN then s else s.wr
       (Reg.HTP_RING_BASE_ADDR i) (v (Reg.HTP_RING_BASE_ADDR i))⟩,
   ⟨0x48, 2, 32, 4, fun i => [(Reg.HTP_RING_SIZE_ENTRIES i, 5)], fun i v _ _ s => if s.on Reg.HTP_CTL_EN then s else s.wr
       (Reg.HTP_RING_SIZE_ENTRIES i) (v (Reg.HTP_RING_SIZE_ENTRIES i))⟩,
   ⟨0x4c, 2, 32, 4, fun i => [(Reg.HTP_RING_HEAD_INDEX i, 0)], noAct⟩,
   ⟨0x50, 2, 32, 4, fun i => [(Reg.HTP_RING_TAIL_INDEX i, 1)], noAct⟩]

/-- Rows of the HTP_ block. -/
def rowsHTP1 : List RegRow :=
  [⟨0x80, 1, 8, 8, fun _ => [(Reg.HTP_CQ_BASE_ADDR, 1)], noAct⟩,
   ⟨0x88, 1, 4, 4, fun _ => [(Reg.HTP_CQ_SIZE_ENTRIES, 1)], noAct⟩,
   ⟨0x8c, 1, 4, 4, fun _ => [(Reg.HTP_CQ_HEAD_INDEX, 0)], noAct⟩,
   ⟨0x90, 1, 8, 8, fun _ => [(Reg.HTP_TXQ_ADDR_ADDR, 1)], noAct⟩,
   ⟨0x98, 1, 4, 4, fun _ => [(Reg.HTP_TXQ_GO_FLOW, 6)], fun _ _ w _ s => s.txqGo (w % 256)⟩,
   ⟨0x9c, 1, 4, 4, fun _ => [(Reg.HTP_CQ_TAIL_INDEX, 1)], noAct⟩,
   ⟨0xa0, 1, 8, 8, fun _ => [(Reg.HTP_ABORT_ID, 6), (Reg.HTP_ABORT_TENANT, 6)], fun _ _ w m s => s.abortWrite w m⟩,
   ⟨0xa8, 1, 4, 4, fun _ => [(Reg.HTP_ABORT_STAT_RESULT, 0)], noAct⟩,
   ⟨0xc0, 8, 4, 4, fun i => [(Reg.HTP_BROKEN i, 2)], noAct⟩,
   ⟨0x100, 1, 4, 4, fun _ => [(Reg.HTP_DROP_L2_COUNT, 0)], noAct⟩,
   ⟨0x104, 1, 4, 4, fun _ => [(Reg.HTP_DROP_L3_COUNT, 0)], noAct⟩,
   ⟨0x108, 1, 4, 4, fun _ => [(Reg.HTP_DROP_FLOW_COUNT, 0)], noAct⟩]

/-- Rows of the HTP_ block. -/
def rowsHTP2 : List RegRow :=
  [⟨0x10c, 1, 4, 4, fun _ => [(Reg.HTP_DROP_HDR_COUNT, 0)], noAct⟩,
   ⟨0x110, 1, 4, 4, fun _ => [(Reg.HTP_DROP_WIN_COUNT, 0)], noAct⟩,
   ⟨0x114, 1, 4, 4, fun _ => [(Reg.HTP_DUP_COUNT, 0)], noAct⟩,
   ⟨0x118, 1, 4, 4, fun _ => [(Reg.HTP_RETX_COUNT, 0)], noAct⟩,
   ⟨0x11c, 1, 4, 4, fun _ => [(Reg.HTP_RING_FULL_COUNT, 0)], noAct⟩,
   ⟨0x120, 1, 4, 4, fun _ => [(Reg.HTP_LINK_DOWN_COUNT, 0)], noAct⟩,
   ⟨0x124, 1, 4, 4, fun _ => [(Reg.HTP_FEC_CORR_COUNT, 0)], noAct⟩,
   ⟨0x128, 1, 4, 4, fun _ => [(Reg.HTP_FEC_UNCORR_COUNT, 0)], noAct⟩,
   ⟨0x180, 1, 4, 4, fun _ => [(Reg.HTP_CNT_CLR_CLR, 6)], fun _ _ w _ s => if w.testBit 0 then s.htpClear else s⟩,
   ⟨0x1000, 256, 32, 32, fun i => [(Reg.HTP_FLOW_VALID i, 5), (Reg.HTP_FLOW_MGMT i, 5), (Reg.HTP_FLOW_PRIO i, 5),
       (Reg.HTP_FLOW_TENANT i, 5), (Reg.HTP_FLOW_PORT i, 5), (Reg.HTP_FLOW_WINDOW i, 5), (Reg.HTP_FLOW_HOST i, 5)], fun i v _ m s
       => s.flowWords i (v (Reg.HTP_FLOW_VALID i)) (v (Reg.HTP_FLOW_MGMT i)) (v (Reg.HTP_FLOW_PRIO i)) (v (Reg.HTP_FLOW_TENANT
       i)) (v (Reg.HTP_FLOW_PORT i)) (v (Reg.HTP_FLOW_WINDOW i)) (v (Reg.HTP_FLOW_HOST i)) m⟩]

/-- Rows of the HTP_ block. -/
def rowsHTP : List RegRow := rowsHTP0 ++ rowsHTP1 ++ rowsHTP2

/-- Rows of the HC_ATOM port block. -/
def rowsHCA (c : Nat) : List RegRow :=
  [⟨0x0, 1, 8, 8, fun _ => [(Reg.HC_ATOM_ADDR_ADDR c, 1)], noAct⟩,
   ⟨0x8, 1, 8, 8, fun _ => [(Reg.HC_ATOM_OPND_V c, 1)], noAct⟩,
   ⟨0x10, 1, 8, 8, fun _ => [(Reg.HC_ATOM_CMP_C c, 1)], noAct⟩,
   ⟨0x18, 1, 8, 8, fun _ => [(Reg.HC_ATOM_RES_OLD c, 0)], noAct⟩,
   ⟨0x20, 1, 4, 4, fun _ => [(Reg.HC_ATOM_CTL_OP c, 5), (Reg.HC_ATOM_CTL_GO c, 5)], fun _ v w _ s => if s.on (Reg.HC_ATOM_CTL_GO
       c) then s else if w.testBit 31 then s.atomPort c (v (Reg.HC_ATOM_CTL_OP c)) else s.wr (Reg.HC_ATOM_CTL_OP c) (v
       (Reg.HC_ATOM_CTL_OP c))⟩,
   ⟨0x24, 1, 4, 4, fun _ => [(Reg.HC_ATOM_STAT_STATUS c, 0)], noAct⟩]

/-- Rows of the stream table block. -/
def rowsSTR : List RegRow :=
  [⟨0x0, 4096, 32, 32, fun i => [(Reg.STREAM_KEY i, 5), (Reg.STREAM_CTR i, 5), (Reg.STREAM_OWNER i, 5), (Reg.STREAM_BUSY i, 0),
       (Reg.STREAM_EN i, 5)], fun i v _ _ s => s.streamWrite i (v (Reg.STREAM_KEY i)) (v (Reg.STREAM_CTR i)) (v (Reg.STREAM_OWNER i))
       (v (Reg.STREAM_EN i))⟩]

/-- Rows of the COL_ block. -/
def rowsCOL0 : List RegRow :=
  [⟨0x0, 1, 4, 4, fun _ => [(Reg.COL_SUBMIT_LO_ADDR, 4)], noAct⟩,
   ⟨0x4, 1, 4, 4, fun _ => [(Reg.COL_SUBMIT_HI_ADDR, 4)], fun _ v _ _ s => s.colSubmit (s.rd Reg.COL_SUBMIT_LO_ADDR + v
       Reg.COL_SUBMIT_HI_ADDR * 2 ^ 32)⟩,
   ⟨0x8, 1, 4, 4, fun _ => [(Reg.COL_SUBMIT_STAT_CODE, 0), (Reg.COL_SUBMIT_STAT_SLOT, 0), (Reg.COL_SUBMIT_STAT_DESC, 0),
       (Reg.COL_SUBMIT_STAT_PEND, 0)], noAct⟩,
   ⟨0xc, 1, 4, 4, fun _ => [(Reg.COL_STAT_INFLIGHT, 0), (Reg.COL_STAT_HELD, 0), (Reg.COL_STAT_GROUP_BUSY, 2),
       (Reg.COL_STAT_QUEUED, 0)], noAct⟩,
   ⟨0x10, 1, 4, 4, fun _ => [(Reg.COL_ROLE_ROLE, 5), (Reg.COL_ROLE_MGR_EN, 0)], fun _ v _ _ s => s.roleWrite (v
       Reg.COL_ROLE_ROLE)⟩,
   ⟨0x14, 1, 4, 4, fun _ => [(Reg.COL_MGR_EPOCH_EPOCH, 1)], noAct⟩,
   ⟨0x18, 1, 4, 4, fun _ => [(Reg.COL_MGR_TIMEOUT_US, 1)], noAct⟩,
   ⟨0x1c, 1, 4, 4, fun _ => [(Reg.COL_MGR_STAT_LOST, 0), (Reg.COL_MGR_STAT_AGE, 0)], noAct⟩,
   ⟨0x20, 1, 4, 4, fun _ => [(Reg.COL_TIMEOUT_US, 1)], noAct⟩,
   ⟨0x24, 1, 4, 4, fun _ => [(Reg.COL_ROUTE_CTL_TABLE, 1), (Reg.COL_ROUTE_CTL_SWAP, 5)], fun _ _ w _ s => if w.testBit 1 then
       s.routeSwapRequest else s⟩,
   ⟨0x40, 8, 4, 4, fun i => [(Reg.COL_XORID_EN i, 1)], noAct⟩,
   ⟨0x60, 8, 4, 4, fun i => [(Reg.COL_XORID_GEN i, 1)], noAct⟩]

/-- Rows of the COL_ block. -/
def rowsCOL1 : List RegRow :=
  [⟨0x80, 8, 4, 4, fun i => [(Reg.COL_XORID_HOLD i, 1)], noAct⟩,
   ⟨0x100, 1, 4, 4, fun _ => [(Reg.COL_OPS_DONE_COUNT, 0)], noAct⟩,
   ⟨0x104, 1, 4, 4, fun _ => [(Reg.COL_OPS_FAULT_COUNT, 0)], noAct⟩,
   ⟨0x108, 1, 4, 4, fun _ => [(Reg.COL_SHARD_CNT_COUNT, 0)], noAct⟩,
   ⟨0x10c, 1, 4, 4, fun _ => [(Reg.COL_TOKEN_DROP_COUNT, 0)], noAct⟩,
   ⟨0x110, 1, 4, 4, fun _ => [(Reg.COL_ROUTE_BAD_COUNT, 0)], noAct⟩,
   ⟨0x114, 1, 4, 4, fun _ => [(Reg.COL_TX_LO_COUNT, 0)], noAct⟩,
   ⟨0x118, 1, 4, 4, fun _ => [(Reg.COL_TX_HI_COUNT, 0)], noAct⟩,
   ⟨0x11c, 1, 4, 4, fun _ => [(Reg.COL_RX_LO_COUNT, 0)], noAct⟩,
   ⟨0x120, 1, 4, 4, fun _ => [(Reg.COL_RX_HI_COUNT, 0)], noAct⟩,
   ⟨0x124, 1, 4, 4, fun _ => [(Reg.COL_FWD_LO_COUNT, 0)], noAct⟩,
   ⟨0x128, 1, 4, 4, fun _ => [(Reg.COL_FWD_HI_COUNT, 0)], noAct⟩]

/-- Rows of the COL_ block. -/
def rowsCOL2 : List RegRow :=
  [⟨0x140, 4, 4, 4, fun i => [(Reg.COL_LOG_CODE i, 0), (Reg.COL_LOG_GROUP i, 0), (Reg.COL_LOG_SLOT i, 0), (Reg.COL_LOG_VALID i,
       0)], noAct⟩,
   ⟨0x180, 1, 4, 4, fun _ => [(Reg.COL_CNT_CLR_CLR, 6)], fun _ _ w _ s => if w.testBit 0 then s.colCntClear else s⟩,
   ⟨0x1000, 256, 16, 12, fun i => [(Reg.COL_GROUP_VALID i, 5), (Reg.COL_GROUP_BUSY i, 0), (Reg.COL_GROUP_TENANT i, 5),
       (Reg.COL_GROUP_SIZE_M1 i, 5), (Reg.COL_GROUP_RANK i, 5), (Reg.COL_GROUP_GEN i, 5)], fun i v _ _ s => s.groupWrite i (v
       (Reg.COL_GROUP_VALID i)) (v (Reg.COL_GROUP_TENANT i)) (v (Reg.COL_GROUP_SIZE_M1 i)) (v (Reg.COL_GROUP_RANK i)) (v
       (Reg.COL_GROUP_GEN i))⟩,
   ⟨0x2000, 512, 4, 4, fun i => [(Reg.COL_ROUTE_ACT i, 0)], noAct⟩,
   ⟨0x2800, 512, 4, 4, fun i => [(Reg.COL_ROUTE_SHD i, 5)], fun i v _ _ s => s.wr (Reg.COL_ROUTE_SHD i) (v (Reg.COL_ROUTE_SHD i) &&&
       0x77777777)⟩,
   ⟨0x100000, 524288, 4, 4, fun i => [(Reg.COL_MEMBER_X (i / 2048) (2 * (i % 2048) + 0), 5), (Reg.COL_MEMBER_Y (i / 2048) (2 * (i
       % 2048) + 0), 5), (Reg.COL_MEMBER_Z (i / 2048) (2 * (i % 2048) + 0), 5), (Reg.COL_MEMBER_X (i / 2048) (2 * (i % 2048) +
       1), 5), (Reg.COL_MEMBER_Y (i / 2048) (2 * (i % 2048) + 1), 5), (Reg.COL_MEMBER_Z (i / 2048) (2 * (i % 2048) + 1), 5)], fun
       i v _ m s => s.memberPair (i / 2048) (2 * (i % 2048)) v m⟩]

/-- Rows of the COL_ block. -/
def rowsCOL : List RegRow := rowsCOL0 ++ rowsCOL1 ++ rowsCOL2

end Sys2Proof.Machine
end

