-- ==== Sys2Proof/Machine/Mmio.lean ====
section
/-!
DEFINITION. The control-complex address map (R444, Table 17.1): register accesses of 1 to 8 bytes and privileged accesses to every
address, as control cores and DBG_MEM make them.
-/

namespace Sys2Proof.Machine

/-- The block of Table 17.1 that an offset within the IO die's range lies in: its offset and rows. -/
def iodBlock (o : Nat) : Option (Nat × List RegRow) :=
  if o < 0xB0000 then
    match o / 0x10000 with
    | 0 => some (0, rowsMOD)
    | 1 => some (0x10000, rowsPWR)
    | 2 => some (0x20000, rowsHLT)
    | 3 => some (0x30000, rowsSEC)
    | 4 => some (0x40000, rowsTEN)
    | 5 => some (0x50000, rowsSNP)
    | 6 => some (0x60000, rowsDBG)
    | 7 => some (0x70000, rowsCLK)
    | 8 => some (0x80000, rowsARBP)
    | 9 => let p := (o - 0x90000) / 0x200
           if p < 6 then some (0x90000 + 0x200 * p, rowsOZL p) else some (0x90C00, rowsOZLC)
    | _ => some (0xA0000, rowsHTP)
  else if o < 0xB0800 then some (0xB0000 + 0x100 * ((o - 0xB0000) / 0x100), rowsHCA ((o - 0xB0000) / 0x100))
  else if 0xC0000 ≤ o ∧ o < 0xE0000 then some (0xC0000, rowsSTR)
  else if 0x400000 ≤ o ∧ o < 0x800000 then some (0x400000, rowsCOL)
  else none

/-- The block of Table 17.1 that an address lies in: its base and rows. -/
def blockAt (a : Nat) : Option (Nat × List RegRow) :=
  if a < 0x020000000000 then none
  else if a < 0x020004000000 then
    let c := (a - 0x020000000000) / 0x40000
    let b := Reg.clusterB c
    let o := a - b
    if o < 0x20000 then some (b, rowsSP c) else if o < 0x21000 then some (b + 0x20000, rowsMU c)
    else if o < 0x22000 then some (b + 0x21000, rowsSV c) else some (b + 0x22000, rowsSH c)
  else if a < 0x020004200000 then
    let r := (a - 0x020004000000) / 0x10000
    let b := Reg.regionB r
    if a - b < 0x8000 then some (b, rowsSPR r) else some (b + 0x8000, rowsSQ r)
  else if 0x020004400000 ≤ a ∧ a < 0x020004480000 then
    let d := (a - 0x020004400000) / 0x20000
    let b := Reg.dieB d
    let o := a - b
    if o < 0x10000 then some (b, rowsSTD d) else if o < 0x14000 then some (b + 0x10000, rowsHC d)
    else if o < 0x18000 then some (b + 0x14000, rowsARBD d)
    else if o < 0x1C000 then
      let k := (o - 0x18000) / 0x1000
      some (b + 0x18000 + 0x1000 * k, if k < 3 then rowsHBM (3 * d + k) else [])
    else some (b + 0x1C000, rowsDMA d)
  else if Reg.iodB ≤ a then (iodBlock (a - Reg.iodB)).map fun x => (Reg.iodB + x.1, x.2)
  else none

/-- A register as an address meets it: its row, the instance, the instance's base address, and the byte within it. -/
structure RegHit where
  row  : RegRow
  i    : Nat
  base : Nat
  byte : Nat

/-- The register of `row` at offset `o` of a block at `b`. -/
def rowHit (b o : Nat) (row : RegRow) : Option RegHit :=
  let x := o - row.off
  if row.off ≤ o ∧ x / row.stride < row.count ∧ x % row.stride < row.size then
    some ⟨row, x / row.stride, b + row.off + x / row.stride * row.stride, x % row.stride⟩
  else none

/-- The register at an address, where one stands. -/
def findReg (a : Nat) : Option RegHit :=
  match blockAt a with
  | none => none
  | some x => x.2.findSome? (rowHit x.1 (a - x.1))

/-- Whether Table 17.1 maps a register block at the address. -/
def regMapped (a : Nat) : Bool := (blockAt a).isSome

namespace RegHit

/-- The place of a field in the register. -/
def place (h : RegHit) (f : Fld) : Nat := f.bit - 8 * h.base

/-- The register's value: its fields in their places; write-only fields and fields that read as 0 show 0. -/
def value (h : RegHit) (s : State) : Nat :=
  (h.row.flds h.i).foldl (fun v p => if p.2 = 4 ∨ p.2 = 6 then v else v + s.rd p.1 * 2 ^ h.place p.1) 0

/-- A field as a write of bits `w` under mask `m` leaves it. -/
def merged (h : RegHit) (s : State) (w m : Nat) (f : Fld) : Nat :=
  bitsOf (w &&& m) (h.place f + f.w - 1) (h.place f) |||
    (s.rd f - (s.rd f &&& bitsOf m (h.place f + f.w - 1) (h.place f)))

/-- The effect of a write on one field by its access code. -/
def putFld (h : RegHit) (w m : Nat) (s : State) (p : Fld × Nat) : State :=
  let x := bitsOf (w &&& m) (h.place p.1 + p.1.w - 1) (h.place p.1)
  match p.2 with
  | 1 => s.wr p.1 (h.merged s w m p.1)
  | 2 => s.wr p.1 (s.rd p.1 - (s.rd p.1 &&& x))
  | 3 => s.wr p.1 (s.rd p.1 ||| x)
  | 4 => s.wr p.1 (h.merged s w m p.1)
  | _ => s

/-- A write of bits `w` under mask `m`, both in the register's own places: its fields, then the effect of its row. -/
def write (h : RegHit) (s : State) (w m : Nat) : State :=
  let v := h.merged s w m
  h.row.act h.i v (w &&& m) m ((h.row.flds h.i).foldl (h.putFld w m) s)

end RegHit

namespace State

/-- Whether the address lies in the DBG_ block while debug is locked (R574). -/
def dbgDark (s : State) (a : Nat) : Bool := decide (a / 0x10000 = (Reg.iodB + 0x60000) / 0x10000) && !s.unlocked

/-- The value of the register at a hit; DBG_DATA of a halted region shows the word that DBG_ADDR names (R576). -/
def regValue (s : State) (h : RegHit) : Nat :=
  if s.dbgDark h.base then 0
  else if s.dbgHalted (s.rd Reg.DBG_ADDR_REGION) ∧ h.base = Reg.iodB + 0x60018 then s.dbgWord % 2 ^ 32
  else if s.dbgHalted (s.rd Reg.DBG_ADDR_REGION) ∧ h.base = Reg.iodB + 0x6001C then s.dbgWord / 2 ^ 32
  else h.value s

/-- A read of `n` bytes, `n` up to 4, within one aligned word of a mapped block. Where no register stands the spec states no value. -/
def regRead4 (s : State) (a n : Nat) : State × Nat :=
  match findReg a with
  | none => ({ s with free := s.free + 1 }, (Config.freeWord s.free).toNat % 2 ^ (8 * n))
  | some h => (s, bitsOf (s.regValue h) (8 * h.byte + 8 * n - 1) (8 * h.byte))

/-- A read of `n` bytes, `n` one of 1, 2, 4, 8, at a multiple of `n` in a mapped block. -/
def regRead (s : State) (a n : Nat) : State × Nat :=
  if n = 8 then
    let x := s.regRead4 a 4
    let y := x.1.regRead4 (a + 4) 4
    (y.1, x.2 + y.2 * 2 ^ 32)
  else s.regRead4 a n

/-- A write of `n` bytes within one register; where no register stands nothing takes it. -/
def regWrite1 (s : State) (a n v : Nat) : State :=
  match findReg a with
  | none => s
  | some h => if s.dbgDark h.base then s else h.write s (v % 2 ^ (8 * n) * 2 ^ (8 * h.byte)) ((2 ^ (8 * n) - 1) * 2 ^ (8 * h.byte))

/-- Whether one register covers all 8 bytes from `a`. -/
def oneReg (a : Nat) : Bool :=
  match findReg a with
  | none => false
  | some h => decide (h.byte + 8 ≤ h.row.size)

/-- A write of `n` bytes at a multiple of `n` in a mapped block. A write of 8 bytes that meets two registers writes the lower
first. -/
def regWrite (s : State) (a n v : Nat) : State :=
  if n = 8 ∧ !oneReg a then (s.regWrite1 a 4 (v % 2 ^ 32)).regWrite1 (a + 4) 4 (v / 2 ^ 32)
  else s.regWrite1 a n v

/-- A register write by privileged code (R8, R444); a misaligned one, or one outside every block, writes nothing. -/
def registerWrite (s : State) (a n v : Nat) : State := if a % n = 0 ∧ regMapped a then s.regWrite a n v else s

/-- The CSRAM words that `n` bytes from address `a` meet are checked (R440): corrected errors counted; `true` on an uncorrectable
one. -/
def csramCheck (s : State) (a : Nat) : State × Bool :=
  match Tbl.get 0 s.csErr (a / 8 * 8) with
  | 0 => (s, false)
  | 1 => (({ s with csErr := Tbl.set 0 s.csErr (a / 8 * 8) 0 } : State).inc Reg.MOD_CSRAM_CE_COUNT 1, false)
  | _ => ((s.inc Reg.MOD_CSRAM_UE_COUNT 1).risk 2 1, true)

/-- The exception cause of an HBM status of R335: 7 for poison, otherwise 4. -/
def hbmCause (st : Nat) : Nat := if st = 0 then 0 else if st = 4 then 7 else 4

/-- A control core's access to one granule of a bank: it wakes the bank's region (R509), is checked as a remote access of its own (R116,
R130), and a rebuild it meets stretches the bank's island (R114). True when it is uncorrectable. -/
def coreBank (s : State) (c g : Nat) : State × Bool :=
  let x := ((s.noteWaker (c / 8) 0xFE).wakeRegion (c / 8)).rowAccess c g false
  (if x.2.2 = 0 then x.1 else x.1.noteFar [(c, bankOf g)], x.2.1)

/-- A privileged load of `n` bytes at a multiple of `n`: the cause of the exception it takes, 0 for none, and the value. -/
def busLoad (s : State) (a n : Nat) : State × Nat × Nat :=
  match Machine.place a with
  | .hbm _ _ | .hole _ =>
    let x := s.hbmRead a n true
    (x.1, hbmCause x.2.1, ofLe x.2.2)
  | .sp c o =>
    let x := s.coreBank c (o / 256)
    if x.2 then (x.1, 7, 0) else (x.1, 0, x.1.peekN a n)
  | .csram _ =>
    let x := s.csramCheck a
    if x.2 then (x.1, 7, 0) else (x.1, 0, x.1.peekN a n)
  | .rom _ => (s, 0, s.peekN a n)
  | .regs => if regMapped a then let x := s.regRead a n; (x.1, 0, x.2) else (s, 4, 0)
  | _ => (s, 4, 0)

/-- A privileged store of `n` bytes at a multiple of `n` by the agent `src` (R344): the cause of the exception it takes. -/
def busStore (s : State) (src a n v : Nat) : State × Nat :=
  match Machine.place a with
  | .hbm _ _ | .hole _ =>
    let x := s.hbmWriteBy src a (toLe n v) true
    (x.1, hbmCause x.2)
  | .sp c o =>
    let x := s.coreBank c (o / 256)
    if x.2 then (x.1, 0) else ((x.1.pokes (at' a (toLe n v))).inject ((at' a (toLe n v)).map (·.1)), 0)
  | .csram _ =>
    let x := if n = 8 then { s with csErr := Tbl.set 0 s.csErr a 0 } else (s.csramCheck a).1
    ((x.pokes (at' a (toLe n v))).inject ((at' a (toLe n v)).map (·.1)), 0)
  | .regs => if regMapped a then (s.regWrite a n v, 0) else (s, 4)
  | _ => (s, 4)

end State
end Sys2Proof.Machine
end

