-- ==== Sys2Proof/Machine/Operands.lean ====
section
/-!
DEFINITION. Operands of control-core instructions: general registers (R308), immediates, and the instruction words that an exception
reports (Table 10.17).
-/

namespace Sys2Proof.Machine
namespace State

/-- G0 reads 0; other general registers hold 64 bits (R308). -/
def gpr (s : State) (c n : Nat) : Word64 := if n = 0 then 0 else BitVec.ofNat 64 (s.rd (In.gpr c n))

/-- A general register written; G0 ignores writes (R308). -/
def setGpr (s : State) (c n : Nat) (v : Word64) : State := if n = 0 then s else s.wr (In.gpr c n) v.toNat

/-- The program counter of core `c`. -/
def pcOf (s : State) (c : Nat) : Word64 := BitVec.ofNat 64 (s.rd (In.pc c))

/-- The program counter set. -/
def setPc (s : State) (c : Nat) (a : Word64) : State := s.wr (In.pc c) a.toNat

end State

/-- A 16-bit signed immediate. -/
def imm16 (i : BitVec 16) : Word64 := i.signExtend 64

/-- A 21-bit signed immediate. -/
def imm21 (i : BitVec 21) : Word64 := i.signExtend 64

/-- A branch or jump displacement in bytes: 4 times the immediate (Table 10.17). -/
def disp (i : Word64) : Word64 := 4#64 * i

/-- The word of ALU function `fn` (R308): D, S1 and S2 in [10:6], [15:11] and [20:16], FN in [31:21]. -/
def aluWord (fn d s1 s2 : Nat) : Nat := 1 + d * 2 ^ 6 + s1 * 2 ^ 11 + s2 * 2 ^ 16 + fn * 2 ^ 21

/-- The word of an instruction with two registers, in [10:6] and [15:11], and a 16-bit immediate. -/
def immWord (major a b : Nat) (imm : BitVec 16) : Nat := major + a * 2 ^ 6 + b * 2 ^ 11 + imm.toNat * 2 ^ 16

/-- The word of LUI and JAL: D and a 21-bit immediate. -/
def longWord (major d : Nat) (imm : BitVec 21) : Nat := major + d * 2 ^ 6 + imm.toNat * 2 ^ 11

/-- The words of no instruction (Table 10.17): MAJOR 0, with the all-zero word among them, and 29 to 63, an ALU function above 13, and
SYS function 7. -/
def illegalWord (w : Nat) : Bool :=
  let major := w % 64
  decide (major = 0 ∨ 29 ≤ major ∨ major = 1 ∧ 14 ≤ w / 2 ^ 21 % 2 ^ 11 ∨ major = 28 ∧ w / 2 ^ 16 % 8 = 7)

/-- The 32-bit word of SYS function `fn` with its fields [10:6], [15:11], [20:19] and [31:21] (R308). -/
def sysWord (fn d s1 mid top : Nat) : Word64 :=
  BitVec.ofNat 64 (28 + d % 32 * 2 ^ 6 + s1 % 32 * 2 ^ 11 + fn % 8 * 2 ^ 16 + mid % 4 * 2 ^ 19 + top % 2 ^ 11 * 2 ^ 21)

/-- The word of a SYS function that uses no field, with its 23 remaining bits. -/
def plainWord (fn : Nat) (rest : BitVec 23) : Word64 :=
  sysWord fn (rest.toNat % 32) (rest.toNat / 2 ^ 5) (rest.toNat / 2 ^ 10) (rest.toNat / 2 ^ 12)

/-- The word of SHIFTI, as TVAL shows it. -/
def shiftWord (d s1 : Nat) (imm : BitVec 16) : Word64 := BitVec.ofNat 64 (immWord 7 d s1 imm)

end Sys2Proof.Machine
end

