-- ==== Sys2Proof/Machine/Flags.lean ====
section
/-!
DEFINITION. What a control core computes from two values (Table 10.17): the ALU results, comparisons, and the levels of the conditions
that end a WAIT (R310). The block has no flag register; the sticky flags and counts of its units are register fields.
-/

namespace Sys2Proof.Machine

/-- A truth value as 1 or 0. -/
def bit64 (b : Bool) : Word64 := if b then 1 else 0

/-- A shift by a register (operation 0 SLL, 1 SRL, 2 SRA). Table 10.17 states no result for an amount of 64 or more (log 6). -/
def shiftBy (op : Nat) (a n : Word64) : Word64 :=
  if n.toNat < 64 then
    match op with
    | 0 => a <<< n.toNat
    | 1 => a >>> n.toNat
    | _ => a.sshiftRight n.toNat
  else Config.freeShift op a n

/-- The high half of an unsigned product. -/
def mulHigh (a b : Word64) : Word64 := BitVec.ofNat 64 (a.toNat * b.toNat / 2 ^ 64)

/-- DIVU: all ones for division by 0. -/
def divU (a b : Word64) : Word64 := if b = 0 then BitVec.allOnes 64 else BitVec.ofNat 64 (a.toNat / b.toNat)

/-- REMU: the dividend for division by 0. -/
def remU (a b : Word64) : Word64 := if b = 0 then a else BitVec.ofNat 64 (a.toNat % b.toNat)

namespace State

/-- The levels of the five WAIT conditions (R310, R426). -/
def waitLevels (s : State) (c : Nat) : Nat :=
  b2n ((List.range 2).any fun q => s.rd (Reg.HTP_RING_HEAD_INDEX q) != s.rd (Reg.HTP_RING_TAIL_INDEX q)) +
    b2n (s.on (In.ccDone c)) * 2 +
    b2n (decide (s.rd (Reg.MOD_CC_TIMER c) ≤ s.rd (Reg.MOD_CC_CYCLE c))) * 2 ^ 2 +
    b2n (decide (s.rd (Reg.MOD_CC_EVWATCH_THRESH c) ≤
      s.rd (Reg.SQ_EVT_VALUE (s.rd (Reg.MOD_CC_EVWATCH_CTR c) / 64) (s.rd (Reg.MOD_CC_EVWATCH_CTR c) % 64)))) * 2 ^ 3 +
    b2n (s.on Reg.PWR_MSG_PEND || (List.range 8).any fun w => s.on (Reg.HTP_BROKEN w)) * 2 ^ 4

/-- The enabled conditions that hold. -/
def waitHeld (s : State) (c : Nat) : Nat := s.rd (Reg.MOD_CC_WAITMASK c) &&& s.waitLevels c

end State
end Sys2Proof.Machine
end

