-- ==== Sys2Proof/Machine/Cc.lean ====
section
/-!
DEFINITION. The control cores (R308 to R310, R440 to R444): one instruction of a core, taking an exception and returning from it, memory
accesses, CSRs, WAIT and FENCE.
-/

namespace Sys2Proof.Machine

/-- What an instruction of a core does: it goes on to the next, jumps, takes an exception with a cause and a TVAL, or has to wait
with nothing changed. -/
inductive CcOut where
  | next (s : State)
  | jump (s : State) (a : Word64)
  | trap (s : State) (cause : Nat) (tval : Word64)
  | stall

namespace State

/-- Taking an exception (R309): PC, cause and faulting address saved, the mode copied to PREV, privileged mode entered, and a jump to
MOD_CC_TVEC. -/
def ccTrap (s : State) (c cause : Nat) (tval : Word64) : State :=
  (s.wrs [(Reg.MOD_CC_EPC c, (s.pcOf c).toNat), (Reg.MOD_CC_CAUSE c, cause), (Reg.MOD_CC_TVAL c, tval.toNat),
    (Reg.MOD_CC_MODE_PREV c, s.rd (Reg.MOD_CC_MODE_CUR c)), (Reg.MOD_CC_MODE_CUR c, 1)]).setPc c
    (BitVec.ofNat 64 (s.rd (Reg.MOD_CC_TVEC c)))

/-- Returning from an exception (R309): the mode from PREV, a jump to MOD_CC_EPC. -/
def ccReturn (s : State) (c : Nat) : CcOut :=
  .jump (s.wr (Reg.MOD_CC_MODE_CUR c) (s.rd (Reg.MOD_CC_MODE_PREV c))) (BitVec.ofNat 64 (s.rd (Reg.MOD_CC_EPC c)))

/-- Whether core `c` is in privileged mode. -/
def privileged (s : State) (c : Nat) : Bool := s.on (Reg.MOD_CC_MODE_CUR c)

/-- Whether the core's mode allows an access of `n` bytes at `a`: in unprivileged mode within MOD_CC_UBASE and MOD_CC_ULIM and below
Table 17.1's addresses (R309, R444). -/
def mayAccess (s : State) (c : Nat) (a : Word64) (n : Nat) : Bool :=
  s.privileged c || (decide (s.rd (Reg.MOD_CC_UBASE c) ≤ a.toNat) && decide (a.toNat + n ≤ s.rd (Reg.MOD_CC_ULIM c)) &&
    decide (a.toNat + n ≤ 0x020000000000))

/-- Whether core `c` executes: released, not stopped by a parity error, not in WAIT (R310, R442, R443). -/
def runs (s : State) (c : Nat) : Bool := s.released c && !s.on (In.ccStop c) && !s.on (In.ccWait c)

/-- The fetch at the program counter: the cause of the exception that it takes, 0 for none, and the instruction word. Registers hold no
instructions. -/
def ccFetch (s : State) (c : Nat) : State × Nat × Nat :=
  let a := s.pcOf c
  if !s.mayAccess c a 4 || Machine.place a.toNat == .regs then (s, 4, 0) else s.busLoad a.toNat 4

/-- One instruction of core `c` (R308, R309), whose word is `w`: the word fetched decides which instruction this is. A word of Table 10.17
that no instruction has takes exception 1; where another instruction's word stands at the program counter, this one does not take place
(DESIGN CHOICE, log 193).
A jump target that is no multiple of 4 is an exception that leaves the link register unwritten. -/
def coreStep (s : State) (c : Nat) (w : Nat) (f : State → CcOut) : State :=
  if !s.runs c then s
  else
    let x := s.ccFetch c
    if x.2.1 ≠ 0 then x.1.ccTrap c x.2.1 (s.pcOf c)
    else if illegalWord x.2.2 then x.1.ccTrap c 1 (BitVec.ofNat 64 x.2.2)
    else if x.2.2 ≠ w then s
    else
      match f x.1 with
      | .next t => t.setPc c (s.pcOf c + 4)
      | .jump t a => if a.toNat % 4 = 0 then t.setPc c a else x.1.ccTrap c 3 a
      | .trap t cause v => t.ccTrap c cause v
      | .stall => s

/-! ### Register instructions -/

/-- D = a function of S1 and S2. -/
def alu (f : Word64 → Word64 → Word64) (c d s1 s2 : Nat) (s : State) : CcOut :=
  .next (s.setGpr c d (f (s.gpr c s1) (s.gpr c s2)))

/-- D = a function of S1 and the sign-extended immediate. -/
def aluImm (f : Word64 → Word64 → Word64) (c d s1 : Nat) (i : BitVec 16) (s : State) : CcOut :=
  .next (s.setGpr c d (f (s.gpr c s1) (imm16 i)))

/-- SHIFTI: IMM[5:0] the amount, IMM[7:6] the kind, of which 3 is illegal. -/
def shiftImm (c d s1 : Nat) (i : BitVec 16) (s : State) : CcOut :=
  if i.toNat / 64 % 4 = 3 then .trap s 1 (shiftWord d s1 i)
  else .next (s.setGpr c d (shiftBy (i.toNat / 64 % 4) (s.gpr c s1) (BitVec.ofNat 64 (i.toNat % 64))))

/-! ### Loads and stores -/

/-- Whether a write of core `c` that is held on a protected page overlaps `n` bytes at `a` (R304, R344). -/
def ownHeld (s : State) (c a n : Nat) : Bool :=
  s.heldw.any fun w => w.src == c && (w.ws.any (fun p => decide (a ≤ p.1) && decide (p.1 < a + n)) ||
    w.atoms.any fun h => decide (a < h.addr + 8) && decide (h.addr < a + n))

/-- The address S1 + IMM16. -/
def dataAddr (s : State) (c s1 : Nat) (i : BitVec 16) : Word64 := s.gpr c s1 + imm16 i

/-- The 64-bit value of `n` loaded bytes, sign- or zero-extended. -/
def extended (n : Nat) (signed : Bool) (v : Nat) : Word64 :=
  if signed then BitVec.ofInt 64 (sext (8 * n) v) else BitVec.ofNat 64 (v % 2 ^ (8 * n))

/-- A load of `n` bytes: misaligned cause 3, access fault 4, uncorrectable 7. It waits behind the core's own held writes of these
bytes. -/
def load (n : Nat) (signed : Bool) (c d s1 : Nat) (i : BitVec 16) (s : State) : CcOut :=
  let a := s.dataAddr c s1 i
  if a.toNat % n ≠ 0 then .trap s 3 a
  else if !s.mayAccess c a n then .trap s 4 a
  else if s.ownHeld c a.toNat n then .stall
  else
    let x := s.busLoad a.toNat n
    if x.2.1 ≠ 0 then .trap x.1 x.2.1 a else .next (x.1.setGpr c d (extended n signed x.2.2))

/-- A store of the low `n` bytes of S2. -/
def store (n : Nat) (c s2 s1 : Nat) (i : BitVec 16) (s : State) : CcOut :=
  let a := s.dataAddr c s1 i
  if a.toNat % n ≠ 0 then .trap s 3 a
  else if !s.mayAccess c a n then .trap s 4 a
  else
    let x := s.busStore c a.toNat n ((s.gpr c s2).toNat % 2 ^ (8 * n))
    if x.2 ≠ 0 then .trap x.1 x.2 a else .next x.1

/-! ### Branches and jumps -/

/-- A branch on two registers. -/
def branch (f : Word64 → Word64 → Bool) (c a b : Nat) (i : BitVec 16) (s : State) : CcOut :=
  if f (s.gpr c a) (s.gpr c b) then .jump s (s.pcOf c + disp (imm16 i)) else .next s

/-- JAL. -/
def jal (c d : Nat) (i : BitVec 21) (s : State) : CcOut := .jump (s.setGpr c d (s.pcOf c + 4)) (s.pcOf c + disp (imm21 i))

/-- JALR. -/
def jalr (c d s1 : Nat) (i : BitVec 16) (s : State) : CcOut := .jump (s.setGpr c d (s.pcOf c + 4)) (s.dataAddr c s1 i)

/-! ### SYS functions -/

/-- A SYS function with unused bits `u` and the word `w`: a set bit is an illegal instruction, and in unprivileged mode a privileged
function is cause 2 (R308, R309). -/
def sys (u : Nat) (priv : Bool) (w : Word64) (c : Nat) (f : State → CcOut) (s : State) : CcOut :=
  if u ≠ 0 then .trap s 1 w else if priv && !s.privileged c then .trap s 2 w else f s

/-- SYSCALL (cause 5) and BREAK (cause 6). -/
def callOut (cause : Nat) (w : Word64) (s : State) : CcOut := .trap s cause w

/-- The cycle count of domain 36 as `now` tells it; it never falls. -/
def seeCycle (s : State) (now : Nat) : State :=
  (List.range 8).foldl (fun t c => t.wr (Reg.MOD_CC_CYCLE c) (max now (s.rd (Reg.MOD_CC_CYCLE c)))) s

/-- WAIT (R310, R511): with a power state requested it enters that state; otherwise it returns at once when an enabled condition
holds, and else suspends the core. -/
def waitStart (c now : Nat) (s : State) : CcOut :=
  let s1 := s.seeCycle now
  if s1.rd Reg.PWR_MODE_REQ ≠ 0 then .next (s1.wr (In.ccWait c) 2)
  else if s1.waitHeld c ≠ 0 then .next (s1.wr (Reg.MOD_CC_WAITCAUSE c) (s1.waitHeld c))
  else .next (s1.wr (In.ccWait c) 1)

/-- WAIT_WAKE (R310): a suspended core resumes when an enabled condition holds. -/
def waitWake (s : State) (c now : Nat) : State :=
  let s1 := s.seeCycle now
  if s1.rd (In.ccWait c) = 1 ∧ s1.waitHeld c ≠ 0 ∧ s1.released c ∧ !s1.on (In.ccStop c) then
    s1.wrs [(In.ccWait c, 0), (Reg.MOD_CC_WAITCAUSE c, s1.waitHeld c)]
  else s1

/-- The control-core FENCE (R304, R305): from scope 3 up it waits for the core's own held writes; scopes 6 and 7 are reserved. -/
def ccFence (scope : Nat) (w : Word64) (c : Nat) (s : State) : CcOut :=
  if 6 ≤ scope then .trap s 1 w else if 3 ≤ scope ∧ s.heldw.any (fun h => h.src == c) then .stall else .next s

/-- The CSRs of Table 10.18. -/
def csr (s : State) (c n : Nat) : Option Nat :=
  match n with
  | 0 => some (s.rd (Reg.MOD_CC_ID c))
  | 1 => some (s.rd (Reg.MOD_CC_MODE_CUR c) + s.rd (Reg.MOD_CC_MODE_PREV c) * 2)
  | 2 => some (s.rd (Reg.MOD_CC_EPC c))
  | 3 => some (s.rd (Reg.MOD_CC_CAUSE c))
  | 4 => some (s.rd (Reg.MOD_CC_TVAL c))
  | 5 => some (s.rd (Reg.MOD_CC_TVEC c))
  | 6 => some (s.rd (Reg.MOD_CC_WAITMASK c))
  | 7 => some (s.rd (Reg.MOD_CC_WAITCAUSE c))
  | 8 => some (s.rd (Reg.MOD_CC_CYCLE c))
  | 9 => some (s.rd (Reg.MOD_CC_TIMER c))
  | 10 => some (s.rd (Reg.MOD_CC_EVWATCH_CTR c) + s.rd (Reg.MOD_CC_EVWATCH_THRESH c) * 2 ^ 32)
  | 11 => some (s.rd (Reg.MOD_CC_UBASE c))
  | 12 => some (s.rd (Reg.MOD_CC_ULIM c))
  | _ => none

/-- CSRR: in unprivileged mode only MOD_CC_ID and MOD_CC_CYCLE (R309); a read of MOD_CC_WAITCAUSE ends the record of completions
(R310). -/
def csrRead (c d n now : Nat) (w : Word64) (s : State) : CcOut :=
  if !s.privileged c ∧ n ≠ 0 ∧ n ≠ 8 then .trap s 2 w
  else
    let s1 := s.seeCycle now
    match s1.csr c n with
    | none => .trap s 1 w
    | some v => .next ((if n = 7 then s1.wr (In.ccDone c) 0 else s1).setGpr c d (BitVec.ofNat 64 v))

/-- A CSR written by its access in Table 10.18; fields that are read only take nothing, and MOD_CC_TVEC stays a multiple of 4. -/
def csrPut (s : State) (c n v : Nat) : State :=
  match n with
  | 1 => s.wr (Reg.MOD_CC_MODE_PREV c) (v / 2)
  | 2 => s.wr (Reg.MOD_CC_EPC c) v
  | 5 => s.wr (Reg.MOD_CC_TVEC c) (v / 4 * 4)
  | 6 => s.wr (Reg.MOD_CC_WAITMASK c) v
  | 9 => s.wr (Reg.MOD_CC_TIMER c) v
  | 10 => s.wrs [(Reg.MOD_CC_EVWATCH_CTR c, v), (Reg.MOD_CC_EVWATCH_THRESH c, v / 2 ^ 32)]
  | 11 => s.wr (Reg.MOD_CC_UBASE c) v
  | 12 => s.wr (Reg.MOD_CC_ULIM c) v
  | _ => s

/-- CSRW. -/
def csrWrite (c s1 n : Nat) (w : Word64) (s : State) : CcOut :=
  match s.csr c n with
  | none => .trap s 1 w
  | some _ => .next (s.csrPut c n (s.gpr c s1).toNat)

end State
end Sys2Proof.Machine
end

