-- ==== Sys2Proof/Machine/CcOps.lean ====
section
/-!
DEFINITION. The instructions of the control cores: one meaning each.
-/

namespace Sys2Proof.Machine

/-- ADD (R308). -/
def execAdd (core : CoreId) (d s1 s2 : Fin 32) (s : State) : Host.Outcome State Fault Refusal :=
  .next (s.clocked (s.coreStep core.val (aluWord 0 d.val s1.val s2.val) (State.alu (· + ·) core.val d.val s1.val s2.val)))

/-- SUB (R308). -/
def execSub (core : CoreId) (d s1 s2 : Fin 32) (s : State) : Host.Outcome State Fault Refusal :=
  .next (s.clocked (s.coreStep core.val (aluWord 1 d.val s1.val s2.val) (State.alu (· - ·) core.val d.val s1.val s2.val)))

/-- AND (R308). -/
def execAndOp (core : CoreId) (d s1 s2 : Fin 32) (s : State) : Host.Outcome State Fault Refusal :=
  .next (s.clocked (s.coreStep core.val (aluWord 2 d.val s1.val s2.val) (State.alu (· &&& ·) core.val d.val s1.val s2.val)))

/-- OR (R308). -/
def execOrOp (core : CoreId) (d s1 s2 : Fin 32) (s : State) : Host.Outcome State Fault Refusal :=
  .next (s.clocked (s.coreStep core.val (aluWord 3 d.val s1.val s2.val) (State.alu (· ||| ·) core.val d.val s1.val s2.val)))

/-- XOR (R308). -/
def execXorOp (core : CoreId) (d s1 s2 : Fin 32) (s : State) : Host.Outcome State Fault Refusal :=
  .next (s.clocked (s.coreStep core.val (aluWord 4 d.val s1.val s2.val) (State.alu (· ^^^ ·) core.val d.val s1.val s2.val)))

/-- SLL (R308). -/
def execSll (core : CoreId) (d s1 s2 : Fin 32) (s : State) : Host.Outcome State Fault Refusal :=
  .next (s.clocked (s.coreStep core.val (aluWord 5 d.val s1.val s2.val) (State.alu (shiftBy 0) core.val d.val s1.val s2.val)))

/-- SRL (R308). -/
def execSrl (core : CoreId) (d s1 s2 : Fin 32) (s : State) : Host.Outcome State Fault Refusal :=
  .next (s.clocked (s.coreStep core.val (aluWord 6 d.val s1.val s2.val) (State.alu (shiftBy 1) core.val d.val s1.val s2.val)))

/-- SRA (R308). -/
def execSra (core : CoreId) (d s1 s2 : Fin 32) (s : State) : Host.Outcome State Fault Refusal :=
  .next (s.clocked (s.coreStep core.val (aluWord 7 d.val s1.val s2.val) (State.alu (shiftBy 2) core.val d.val s1.val s2.val)))

/-- SLT (R308). -/
def execSlt (core : CoreId) (d s1 s2 : Fin 32) (s : State) : Host.Outcome State Fault Refusal :=
  .next (s.clocked (s.coreStep core.val (aluWord 8 d.val s1.val s2.val)
      (State.alu (fun a b => bit64 (a.slt b)) core.val d.val s1.val s2.val)))

/-- SLTU (R308). -/
def execSltu (core : CoreId) (d s1 s2 : Fin 32) (s : State) : Host.Outcome State Fault Refusal :=
  .next (s.clocked (s.coreStep core.val (aluWord 9 d.val s1.val s2.val)
      (State.alu (fun a b => bit64 (a.ult b)) core.val d.val s1.val s2.val)))

/-- MUL (R308). -/
def execMul (core : CoreId) (d s1 s2 : Fin 32) (s : State) : Host.Outcome State Fault Refusal :=
  .next (s.clocked (s.coreStep core.val (aluWord 10 d.val s1.val s2.val) (State.alu (· * ·) core.val d.val s1.val s2.val)))

/-- MULHU (R308). -/
def execMulhu (core : CoreId) (d s1 s2 : Fin 32) (s : State) : Host.Outcome State Fault Refusal :=
  .next (s.clocked (s.coreStep core.val (aluWord 11 d.val s1.val s2.val) (State.alu mulHigh core.val d.val s1.val s2.val)))

/-- DIVU (R308). -/
def execDivu (core : CoreId) (d s1 s2 : Fin 32) (s : State) : Host.Outcome State Fault Refusal :=
  .next (s.clocked (s.coreStep core.val (aluWord 12 d.val s1.val s2.val) (State.alu divU core.val d.val s1.val s2.val)))

/-- REMU (R308). -/
def execRemu (core : CoreId) (d s1 s2 : Fin 32) (s : State) : Host.Outcome State Fault Refusal :=
  .next (s.clocked (s.coreStep core.val (aluWord 13 d.val s1.val s2.val) (State.alu remU core.val d.val s1.val s2.val)))

/-- ADDI (R308). -/
def execAddi (core : CoreId) (d s1 : Fin 32) (imm : BitVec 16) (s : State) : Host.Outcome State Fault Refusal :=
  .next (s.clocked (s.coreStep core.val (immWord 2 d.val s1.val imm) (State.aluImm (· + ·) core.val d.val s1.val imm)))

/-- ANDI (R308). -/
def execAndi (core : CoreId) (d s1 : Fin 32) (imm : BitVec 16) (s : State) : Host.Outcome State Fault Refusal :=
  .next (s.clocked (s.coreStep core.val (immWord 3 d.val s1.val imm) (State.aluImm (· &&& ·) core.val d.val s1.val imm)))

/-- ORI (R308). -/
def execOri (core : CoreId) (d s1 : Fin 32) (imm : BitVec 16) (s : State) : Host.Outcome State Fault Refusal :=
  .next (s.clocked (s.coreStep core.val (immWord 4 d.val s1.val imm) (State.aluImm (· ||| ·) core.val d.val s1.val imm)))

/-- XORI (R308). -/
def execXori (core : CoreId) (d s1 : Fin 32) (imm : BitVec 16) (s : State) : Host.Outcome State Fault Refusal :=
  .next (s.clocked (s.coreStep core.val (immWord 5 d.val s1.val imm) (State.aluImm (· ^^^ ·) core.val d.val s1.val imm)))

/-- SLTI (R308). -/
def execSlti (core : CoreId) (d s1 : Fin 32) (imm : BitVec 16) (s : State) : Host.Outcome State Fault Refusal :=
  .next (s.clocked (s.coreStep core.val (immWord 6 d.val s1.val imm)
      (State.aluImm (fun a b => bit64 (a.slt b)) core.val d.val s1.val imm)))

/-- SHIFTI (R308). -/
def execShifti (core : CoreId) (d s1 : Fin 32) (imm : BitVec 16) (s : State) : Host.Outcome State Fault Refusal :=
  .next (s.clocked (s.coreStep core.val (immWord 7 d.val s1.val imm) (State.shiftImm core.val d.val s1.val imm)))

/-- LUI (R308). -/
def execLui (core : CoreId) (d : Fin 32) (imm : BitVec 21) (s : State) : Host.Outcome State Fault Refusal :=
  .next (s.clocked (s.coreStep core.val (longWord 8 d.val imm) (fun t => .next (t.setGpr core.val d.val (imm21 imm <<< 16)))))

/-- LB (R308). -/
def execLb (core : CoreId) (d s1 : Fin 32) (imm : BitVec 16) (s : State) : Host.Outcome State Fault Refusal :=
  .next (s.clocked (s.coreStep core.val (immWord 9 d.val s1.val imm) (State.load 1 true core.val d.val s1.val imm)))

/-- LH (R308). -/
def execLh (core : CoreId) (d s1 : Fin 32) (imm : BitVec 16) (s : State) : Host.Outcome State Fault Refusal :=
  .next (s.clocked (s.coreStep core.val (immWord 10 d.val s1.val imm) (State.load 2 true core.val d.val s1.val imm)))

/-- LW (R308). -/
def execLw (core : CoreId) (d s1 : Fin 32) (imm : BitVec 16) (s : State) : Host.Outcome State Fault Refusal :=
  .next (s.clocked (s.coreStep core.val (immWord 11 d.val s1.val imm) (State.load 4 true core.val d.val s1.val imm)))

/-- LD (R308). -/
def execLd (core : CoreId) (d s1 : Fin 32) (imm : BitVec 16) (s : State) : Host.Outcome State Fault Refusal :=
  .next (s.clocked (s.coreStep core.val (immWord 12 d.val s1.val imm) (State.load 8 true core.val d.val s1.val imm)))

/-- LBU (R308). -/
def execLbu (core : CoreId) (d s1 : Fin 32) (imm : BitVec 16) (s : State) : Host.Outcome State Fault Refusal :=
  .next (s.clocked (s.coreStep core.val (immWord 13 d.val s1.val imm) (State.load 1 false core.val d.val s1.val imm)))

/-- LHU (R308). -/
def execLhu (core : CoreId) (d s1 : Fin 32) (imm : BitVec 16) (s : State) : Host.Outcome State Fault Refusal :=
  .next (s.clocked (s.coreStep core.val (immWord 14 d.val s1.val imm) (State.load 2 false core.val d.val s1.val imm)))

/-- LWU (R308). -/
def execLwu (core : CoreId) (d s1 : Fin 32) (imm : BitVec 16) (s : State) : Host.Outcome State Fault Refusal :=
  .next (s.clocked (s.coreStep core.val (immWord 15 d.val s1.val imm) (State.load 4 false core.val d.val s1.val imm)))

/-- SB (R308). -/
def execSb (core : CoreId) (s2 s1 : Fin 32) (imm : BitVec 16) (s : State) : Host.Outcome State Fault Refusal :=
  .next (s.clocked (s.coreStep core.val (immWord 16 s2.val s1.val imm) (State.store 1 core.val s2.val s1.val imm)))

/-- SH (R308). -/
def execSh (core : CoreId) (s2 s1 : Fin 32) (imm : BitVec 16) (s : State) : Host.Outcome State Fault Refusal :=
  .next (s.clocked (s.coreStep core.val (immWord 17 s2.val s1.val imm) (State.store 2 core.val s2.val s1.val imm)))

/-- SW (R308). -/
def execSw (core : CoreId) (s2 s1 : Fin 32) (imm : BitVec 16) (s : State) : Host.Outcome State Fault Refusal :=
  .next (s.clocked (s.coreStep core.val (immWord 18 s2.val s1.val imm) (State.store 4 core.val s2.val s1.val imm)))

/-- SD (R308). -/
def execSd (core : CoreId) (s2 s1 : Fin 32) (imm : BitVec 16) (s : State) : Host.Outcome State Fault Refusal :=
  .next (s.clocked (s.coreStep core.val (immWord 19 s2.val s1.val imm) (State.store 8 core.val s2.val s1.val imm)))

/-- BEQ (R308). -/
def execBeq (core : CoreId) (a b : Fin 32) (imm : BitVec 16) (s : State) : Host.Outcome State Fault Refusal :=
  .next (s.clocked (s.coreStep core.val (immWord 20 a.val b.val imm) (State.branch (· == ·) core.val a.val b.val imm)))

/-- BNE (R308). -/
def execBne (core : CoreId) (a b : Fin 32) (imm : BitVec 16) (s : State) : Host.Outcome State Fault Refusal :=
  .next (s.clocked (s.coreStep core.val (immWord 21 a.val b.val imm) (State.branch (· != ·) core.val a.val b.val imm)))

/-- BLT (R308). -/
def execBlt (core : CoreId) (a b : Fin 32) (imm : BitVec 16) (s : State) : Host.Outcome State Fault Refusal :=
  .next (s.clocked (s.coreStep core.val (immWord 22 a.val b.val imm) (State.branch (fun a b => a.slt b) core.val a.val b.val imm)))

/-- BGE (R308). -/
def execBge (core : CoreId) (a b : Fin 32) (imm : BitVec 16) (s : State) : Host.Outcome State Fault Refusal :=
  .next (s.clocked (s.coreStep core.val (immWord 23 a.val b.val imm) (State.branch (fun a b => !a.slt b) core.val a.val b.val imm)))

/-- BLTU (R308). -/
def execBltu (core : CoreId) (a b : Fin 32) (imm : BitVec 16) (s : State) : Host.Outcome State Fault Refusal :=
  .next (s.clocked (s.coreStep core.val (immWord 24 a.val b.val imm) (State.branch (fun a b => a.ult b) core.val a.val b.val imm)))

/-- BGEU (R308). -/
def execBgeu (core : CoreId) (a b : Fin 32) (imm : BitVec 16) (s : State) : Host.Outcome State Fault Refusal :=
  .next (s.clocked (s.coreStep core.val (immWord 25 a.val b.val imm) (State.branch (fun a b => !a.ult b) core.val a.val b.val imm)))

/-- JAL (R308). -/
def execJal (core : CoreId) (d : Fin 32) (imm : BitVec 21) (s : State) : Host.Outcome State Fault Refusal :=
  .next (s.clocked (s.coreStep core.val (longWord 26 d.val imm) (State.jal core.val d.val imm)))

/-- JALR (R308). -/
def execJalr (core : CoreId) (d s1 : Fin 32) (imm : BitVec 16) (s : State) : Host.Outcome State Fault Refusal :=
  .next (s.clocked (s.coreStep core.val (immWord 27 d.val s1.val imm) (State.jalr core.val d.val s1.val imm)))

/-- SYSCALL (R309). -/
def execSyscall (core : CoreId) (unused : BitVec 23) (s : State) : Host.Outcome State Fault Refusal :=
  .next (s.clocked (s.coreStep core.val (plainWord 0 unused).toNat
      (State.sys unused.toNat false (plainWord 0 unused) core.val (State.callOut 5
      (plainWord 0 unused)))))

/-- PRET (R309). -/
def execPret (core : CoreId) (unused : BitVec 23) (s : State) : Host.Outcome State Fault Refusal :=
  .next (s.clocked (s.coreStep core.val (plainWord 1 unused).toNat
      (State.sys unused.toNat true (plainWord 1 unused) core.val (fun t => t.ccReturn
      core.val))))

/-- WAIT (R310). -/
def execWait (core : CoreId) (unused : BitVec 23) (now : Word64) (s : State) : Host.Outcome State Fault Refusal :=
  .next (s.clocked (s.coreStep core.val (plainWord 2 unused).toNat
      (State.sys unused.toNat true (plainWord 2 unused) core.val (State.waitStart
      core.val now.toNat))))

/-- WAIT_WAKE (R310). -/
def execWaitWake (core : CoreId) (now : Word64) (s : State) : Host.Outcome State Fault Refusal :=
  .next (s.clocked (s.waitWake core.val now.toNat))

/-- CC_FENCE (R304). -/
def execCcFence (core : CoreId) (scope : BitVec 3) (d s1 : BitVec 5) (mid : BitVec 2) (top : BitVec 8) (s : State) :
      Host.Outcome State Fault Refusal :=
  .next (s.clocked (s.coreStep core.val (sysWord 3 d.toNat s1.toNat mid.toNat (scope.toNat + top.toNat * 8)).toNat
      (State.sys (d.toNat + s1.toNat + mid.toNat + top.toNat) false (sysWord 3
      d.toNat s1.toNat mid.toNat (scope.toNat + top.toNat * 8)) core.val (State.ccFence scope.toNat (sysWord 3 d.toNat
      s1.toNat mid.toNat (scope.toNat + top.toNat * 8)) core.val))))

/-- CSRR (R308). -/
def execCsrr (core : CoreId) (d : Fin 32) (csr : BitVec 11) (s1 : BitVec 5) (mid : BitVec 2) (now : Word64) (s : State)
      : Host.Outcome State Fault Refusal :=
  .next (s.clocked (s.coreStep core.val (sysWord 4 d.val s1.toNat mid.toNat csr.toNat).toNat
      (State.sys (s1.toNat + mid.toNat) false (sysWord 4 d.val s1.toNat mid.toNat
      csr.toNat) core.val (State.csrRead core.val d.val csr.toNat now.toNat (sysWord 4 d.val s1.toNat mid.toNat
      csr.toNat)))))

/-- CSRW (R308). -/
def execCsrw (core : CoreId) (csr : BitVec 11) (s1 : Fin 32) (d : BitVec 5) (mid : BitVec 2) (s : State) : Host.Outcome
      State Fault Refusal :=
  .next (s.clocked (s.coreStep core.val (sysWord 5 d.toNat s1.val mid.toNat csr.toNat).toNat
      (State.sys (d.toNat + mid.toNat) true (sysWord 5 d.toNat s1.val mid.toNat
      csr.toNat) core.val (State.csrWrite core.val s1.val csr.toNat (sysWord 5 d.toNat s1.val mid.toNat csr.toNat)))))

/-- BREAK (R309). -/
def execBrk (core : CoreId) (unused : BitVec 23) (s : State) : Host.Outcome State Fault Refusal :=
  .next (s.clocked (s.coreStep core.val (plainWord 6 unused).toNat
      (State.sys unused.toNat false (plainWord 6 unused) core.val (State.callOut 6
      (plainWord 6 unused)))))

end Sys2Proof.Machine
end

