-- ==== Sys2Proof/Machine/ColOps.lean ====
section
/-!
DEFINITION. The commands of the collective engine and the manager: one meaning each.
-/

namespace Sys2Proof.Machine

/-- CHAIN_REDUCE (R396). -/
def execChainReduce (submit : Option (BitVec 48)) (group : BitVec 8) (opid : BitVec 32) (parts results : List (BitVec
      40)) (tags : List (BitVec 13 × BitVec 32)) (s : State) : Host.Outcome State Fault Refusal :=
  .next (s.clocked (s.colRun 1 (submit.map BitVec.toNat) group.toNat opid.toNat fun t o x c => t.colReduce o x c
      (parts.map BitVec.toNat) (results.map BitVec.toNat) (tags.map fun q => (q.1.toNat, q.2.toNat))))

/-- REDUCE_SCATTER (R396). -/
def execReduceScatter (submit : Option (BitVec 48)) (group : BitVec 8) (opid : BitVec 32) (parts results : List (BitVec
      40)) (tags : List (BitVec 13 × BitVec 32)) (s : State) : Host.Outcome State Fault Refusal :=
  .next (s.clocked (s.colRun 2 (submit.map BitVec.toNat) group.toNat opid.toNat fun t o x c => t.colReduce o x c
      (parts.map BitVec.toNat) (results.map BitVec.toNat) (tags.map fun q => (q.1.toNat, q.2.toNat))))

/-- ALL_GATHER (R400). -/
def execAllGather (submit : Option (BitVec 48)) (group : BitVec 8) (opid : BitVec 32) (shards : List (List (BitVec 40 ×
      Byte))) (tags : List (BitVec 64)) (s : State) : Host.Outcome State Fault Refusal :=
  .next (s.clocked (s.colRun 3 (submit.map BitVec.toNat) group.toNat opid.toNat fun t o x c => t.colGather o x c
      (shards.map fun l => l.map fun q => (q.1.toNat, q.2.toNat)) (tags.map BitVec.toNat)))

/-- DISPATCH (R405). -/
def execDispatch (submit : Option (BitVec 48)) (group : BitVec 8) (opid : BitVec 32) (counts : List (List (BitVec 32)))
      (plans : List (BitVec 32)) (rows : List (BitVec 16 × BitVec 32 × List (BitVec 40 × Byte))) (s : State) :
      Host.Outcome State Fault Refusal :=
  .next (s.clocked (s.colRun 4 (submit.map BitVec.toNat) group.toNat opid.toNat fun t o x c => t.colDispatch o x c
      (counts.map fun l => l.map BitVec.toNat) (plans.map BitVec.toNat) (rows.map fun q => (q.1.toNat, q.2.1.toNat,
      q.2.2.map fun e => (e.1.toNat, e.2.toNat)))))

/-- COMBINE (R407). -/
def execCombine (submit : Option (BitVec 48)) (group : BitVec 8) (opid : BitVec 32) (rows : List (BitVec 32 × List
      (BitVec 40 × Byte))) (s : State) : Host.Outcome State Fault Refusal :=
  .next (s.clocked (s.colRun 5 (submit.map BitVec.toNat) group.toNat opid.toNat fun t o x c => t.colCombine o x c
      (rows.map fun q => (q.1.toNat, q.2.map fun e => (e.1.toNat, e.2.toNat)))))

/-- PERMUTE (R409). -/
def execPermute (submit : Option (BitVec 48)) (group : BitVec 8) (opid : BitVec 32) (pieces : List SentPiece) (s : State) : Host.Outcome State Fault Refusal :=
  .next (s.clocked (s.colRun 6 (submit.map BitVec.toNat) group.toNat opid.toNat fun t o x c => t.colPermute o x c
      (pieces.map fun q => (q.piece.toNat, q.peer.toNat, q.fmt.toNat, q.rows.map fun l => l.map fun e => (e.1.toNat, e.2.toNat)))))

/-- GNORM (R411). -/
def execGnorm (submit : Option (BitVec 48)) (group : BitVec 8) (opid : BitVec 32) (part result : BitVec 40) (s : State)
      : Host.Outcome State Fault Refusal :=
  .next (s.clocked (s.colRun 7 (submit.map BitVec.toNat) group.toNat opid.toNat fun t _ x c => some (t.colNorm x c
      part.toNat result.toNat)))

/-- SEND (R408). -/
def execSend (submit : Option (BitVec 48)) (group : BitVec 8) (opid : BitVec 32) (s : State) : Host.Outcome State Fault
      Refusal :=
  .next (s.clocked (s.colRun 8 (submit.map BitVec.toNat) group.toNat opid.toNat fun t _ x c => some (t.colSend x c)))

/-- RECV (R408). -/
def execRecv (submit : Option (BitVec 48)) (group : BitVec 8) (opid : BitVec 32) (elems : List (BitVec 40 × Byte)) (s :
      State) : Host.Outcome State Fault Refusal :=
  .next (s.clocked (s.colRun 9 (submit.map BitVec.toNat) group.toNat opid.toNat fun t o x c => t.colRecv o x c
      (elems.map fun q => (q.1.toNat, q.2.toNat))))

/-- READY_FLIT (R394). -/
def execReadyFlit (group : BitVec 8) (opid : BitVec 32) (rank : BitVec 12) (op : BitVec 4) (gen : BitVec 32) (bytes
      elems : BitVec 64) (slot : Fin 32) (s : State) : Host.Outcome State Fault Refusal :=
  .next (s.clocked (s.readyFlit ⟨group.toNat, opid.toNat, rank.toNat, op.toNat, gen.toNat, bytes.toNat, elems.toNat,
      slot.val⟩))

/-- READY_REPEAT (R394). -/
def execReadyRepeat (group : BitVec 8) (opid : BitVec 32) (rank : BitVec 12) (s : State) : Host.Outcome State Fault
      Refusal :=
  .next (s.clocked (s.readyRepeat group.toNat opid.toNat rank.toNat))

/-- COL_OP_COMPLETE (R395). -/
def execColOpComplete (group : BitVec 8) (opid : BitVec 32) (s : State) : Host.Outcome State Fault Refusal :=
  .next (s.clocked (s.colComplete group.toNat opid.toNat))

/-- COL_TIMEOUT (R413). -/
def execColTimeout (group : BitVec 8) (opid : BitVec 32) (s : State) : Host.Outcome State Fault Refusal :=
  .next (s.clocked (s.colTimeout group.toNat opid.toNat))

/-- COL_LINK_FAULT (R412). -/
def execColLinkFault (p : PortId) (group : BitVec 8) (opid : BitVec 32) (s : State) : Host.Outcome State Fault Refusal
      :=
  .next (s.clocked (s.colLinkFault p.val group.toNat opid.toNat))

/-- MANAGER_ABORT (R412). -/
def execManagerAbort (group : BitVec 8) (opid : BitVec 32) (s : State) : Host.Outcome State Fault Refusal :=
  .next (s.clocked (s.colAbort group.toNat opid.toNat))

/-- ROUTE_SWAP (R389). -/
def execRouteSwap (s : State) : Host.Outcome State Fault Refusal :=
  .next (s.clocked (s.routeSwap))

/-- GROUP_WRITE (R388). -/
def execGroupWrite (group : BitVec 8) (member : Option (BitVec 12 × BitVec 4 × BitVec 4 × BitVec 4)) (valid : Bool)
      (tenant : BitVec 8) (sizeM1 rank : BitVec 12) (gen : BitVec 32) (s : State) : Host.Outcome State Fault Refusal :=
  .next (s.clocked (s.groupCmd group.toNat (member.map fun m => (m.1.toNat, m.2.1.toNat, m.2.2.1.toNat, m.2.2.2.toNat))
      (b2n valid) tenant.toNat sizeM1.toNat rank.toNat gen.toNat))

/-- HEARTBEAT_SEND (R416). -/
def execHeartbeatSend (s : State) : Host.Outcome State Fault Refusal :=
  .next (s.clocked (s.heartbeatSend))

/-- HEARTBEAT_RECEIVE (R416). -/
def execHeartbeatReceive (epoch : BitVec 32) (s : State) : Host.Outcome State Fault Refusal :=
  .next (s.clocked (s.heartbeatReceive epoch.toNat))

/-- HEARTBEAT_TIMEOUT (R416). -/
def execHeartbeatTimeout (s : State) : Host.Outcome State Fault Refusal :=
  .next (s.clocked (s.heartbeatTimeout))

/-- HELD_OP_START (R417). -/
def execHeldOpStart (group : BitVec 8) (opid : BitVec 32) (s : State) : Host.Outcome State Fault Refusal :=
  .next (s.clocked (s.heldOpStart group.toNat opid.toNat))

/-- XORID_SWITCH (R419). -/
def execXoridSwitch (tenant : TenantId) (s : State) : Host.Outcome State Fault Refusal :=
  .next (s.clocked (s.xoridSwitch tenant.val))

/-- XORID_GO (R419). -/
def execXoridGo (tenant : TenantId) (generation : Bool) (s : State) : Host.Outcome State Fault Refusal :=
  .next (s.clocked (s.xoridGo tenant.val (b2n generation)))

end Sys2Proof.Machine
end

