-- ==== Sys2Proof/Machine/ElecOps.lean ====
section
/-!
DEFINITION. The commands of feeds, rails, power and thermal control, pins, SMBus and reference clocks: one meaning each.
-/

namespace Sys2Proof.Machine

/-- FEED_REVERSED (R525). -/
def execFeedReversed (feed : Fin 2) (s : State) : Host.Outcome State Fault Refusal :=
  .next (s.feedReversed feed.val)

/-- FEED_ABSENT (R525). -/
def execFeedAbsent (feed : Fin 2) (s : State) : Host.Outcome State Fault Refusal :=
  .next (s.feedAbsent feed.val)

/-- FEED_OUT_OF_RANGE (R525). -/
def execFeedOutOfRange (feed : Fin 2) (s : State) : Host.Outcome State Fault Refusal :=
  .next (s.feedOut feed.val)

/-- FEED_OVERVOLTAGE (R525). -/
def execFeedOvervoltage (feed : Fin 2) (s : State) : Host.Outcome State Fault Refusal :=
  .next (s.feedOver feed.val)

/-- FEED_OVERCURRENT (R525). -/
def execFeedOvercurrent (feed : Fin 2) (s : State) : Host.Outcome State Fault Refusal :=
  .next (s.feedCurrent feed.val)

/-- FEED_REJOIN (R525). -/
def execFeedRejoin (feed : Fin 2) (s : State) : Host.Outcome State Fault Refusal :=
  .next (s.feedRejoin feed.val)

/-- EMERGENCY_SHUTDOWN (R526). -/
def execEmergencyShutdown (presHigh : Bool) (s : State) : Host.Outcome State Fault Refusal :=
  .next (s.emergency presHigh)

/-- PRES_N_ASSERT (R528). -/
def execPresNAssert (s : State) : Host.Outcome State Fault Refusal :=
  .next (s.presAssert)

/-- POWER_UP (R533). -/
def execPowerUp (slotId slotOpen : BitVec 6) (feedId feedOpen : BitVec 4) (mgrEn mgrOpen : Bool) (s : State) :
      Host.Outcome State Fault Refusal :=
  .next (s.powerUp ⟨slotId.toNat, b2n mgrEn, feedId.toNat, slotOpen.toNat, b2n mgrOpen, feedOpen.toNat⟩)

/-- RAIL_FAULT (R535). -/
def execRailFault (rail : BitVec 8) (beyond : Bool) (s : State) : Host.Outcome State Fault Refusal :=
  .next (s.railFault rail.toNat (if beyond then 2 else 1))

/-- POWER_SAMPLE (R536). -/
def execPowerSample (va vb watts : BitVec 16) (s : State) : Host.Outcome State Fault Refusal :=
  .next (s.powerSample va.toNat vb.toNat watts.toNat)

/-- POWER_SLOW_LOOP (R536). -/
def execPowerSlowLoop (mean : BitVec 16) (s : State) : Host.Outcome State Fault Refusal :=
  .next (s.clocked (s.slowLoop mean.toNat))

/-- THERMAL_CONTROL_TICK (R553). -/
def execThermalControlTick (dies : Vector (BitVec 8) 4) (iod : BitVec 8) (stackSet : Vector (BitVec 8) 12) (s : State) :
      Host.Outcome State Fault Refusal :=
  .next (s.thermalTick (dies.toList.map BitVec.toInt) iod.toInt (stackSet.toList.map BitVec.toNat))

/-- DIE_TRIP (R554). -/
def execDieTrip (d : DieId) (sensor : Fin 67) (reading : BitVec 8) (s : State) : Host.Outcome State Fault Refusal :=
  .next (s.clocked (s.dieTrip d.val sensor.val reading.toNat))

/-- MODULE_TRIP (R554). -/
def execModuleTrip (reading : BitVec 8) (s : State) : Host.Outcome State Fault Refusal :=
  .next (s.moduleTrip reading.toNat)

/-- PIN_READBACK_TICK (R548). -/
def execPinReadbackTick (low high : BitVec 4) (s : State) : Host.Outcome State Fault Refusal :=
  .next (s.pinReadback low.toNat high.toNat)

/-- SMBUS_STUCK (R547). -/
def execSmbusStuck (scl : Bool) (s : State) : Host.Outcome State Fault Refusal :=
  .next (s.smbusStuck scl)

/-- SMBUS_READ (R550). -/
def execSmbusRead (code : BitVec 8) (s : State) : Host.Outcome State Fault Refusal :=
  .next (s.smbusRead code.toNat)

/-- REFCLK_ABSENT (R546). -/
def execRefclkAbsent (eth : Bool) (s : State) : Host.Outcome State Fault Refusal :=
  .next (s.refAbsent eth)

/-- REFCLK_PRESENT (R546). -/
def execRefclkPresent (eth : Bool) (s : State) : Host.Outcome State Fault Refusal :=
  .next (s.refPresent eth)

end Sys2Proof.Machine
end

