-- ==== Sys2Proof/Machine/HbmOps.lean ====
section
/-!
DEFINITION. The commands of the home caches and the HBM stacks: one meaning each.
-/

namespace Sys2Proof.Machine

/-- FADD32 (R335). -/
def execFadd32 (core : CoreId) (s : State) : Host.Outcome State Fault Refusal :=
  .next (s.clocked (s.atomPort core.val 1))

/-- FADD16 (R335). -/
def execFadd16 (core : CoreId) (s : State) : Host.Outcome State Fault Refusal :=
  .next (s.clocked (s.atomPort core.val 2))

/-- IADD32 (R334). -/
def execIadd32 (core : CoreId) (s : State) : Host.Outcome State Fault Refusal :=
  .next (s.clocked (s.atomPort core.val 3))

/-- IADD64 (R334). -/
def execIadd64 (core : CoreId) (s : State) : Host.Outcome State Fault Refusal :=
  .next (s.clocked (s.atomPort core.val 4))

/-- UMIN32 (R334). -/
def execUmin32 (core : CoreId) (s : State) : Host.Outcome State Fault Refusal :=
  .next (s.clocked (s.atomPort core.val 5))

/-- UMAX32 (R334). -/
def execUmax32 (core : CoreId) (s : State) : Host.Outcome State Fault Refusal :=
  .next (s.clocked (s.atomPort core.val 6))

/-- SMIN32 (R334). -/
def execSmin32 (core : CoreId) (s : State) : Host.Outcome State Fault Refusal :=
  .next (s.clocked (s.atomPort core.val 7))

/-- SMAX32 (R334). -/
def execSmax32 (core : CoreId) (s : State) : Host.Outcome State Fault Refusal :=
  .next (s.clocked (s.atomPort core.val 8))

/-- FMIN32 (R334). -/
def execFmin32 (core : CoreId) (s : State) : Host.Outcome State Fault Refusal :=
  .next (s.clocked (s.atomPort core.val 9))

/-- FMAX32 (R334). -/
def execFmax32 (core : CoreId) (s : State) : Host.Outcome State Fault Refusal :=
  .next (s.clocked (s.atomPort core.val 10))

/-- CAS32 (R334). -/
def execCas32 (core : CoreId) (s : State) : Host.Outcome State Fault Refusal :=
  .next (s.clocked (s.atomPort core.val 11))

/-- CAS64 (R334). -/
def execCas64 (core : CoreId) (s : State) : Host.Outcome State Fault Refusal :=
  .next (s.clocked (s.atomPort core.val 12))

/-- HC_FLUSH (R331). -/
def execHcFlush (d : DieId) (stackSet : BitVec 3) (s : State) : Host.Outcome State Fault Refusal :=
  .next (s.clocked (s.hcFlush d.val stackSet.toNat))

/-- HC_WP_PROTECT (R343). -/
def execHcWpProtect (d : DieId) (stack : Fin 4) (first count : BitVec 15) (s : State) : Host.Outcome State Fault
      Refusal :=
  .next (s.clocked (s.wpCmd d.val stack.val first.toNat count.toNat true))

/-- HC_WP_RELEASE (R346). -/
def execHcWpRelease (d : DieId) (stack : Fin 4) (first count : BitVec 15) (s : State) : Host.Outcome State Fault
      Refusal :=
  .next (s.clocked (s.wpCmd d.val stack.val first.toNat count.toNat false))

/-- PROTECTED_PAGE_WRITE (R344). -/
def execProtectedPageWrite (addr : BitVec 48) (bytes : List Byte) (s : State) : Host.Outcome State Fault Refusal :=
  .next (s.clocked (s.heldTouch addr.toNat (bytes.map BitVec.toNat)))

/-- FIRST_TOUCH_COPY_DONE (R344). -/
def execFirstTouchCopyDone (k : StackId) (ns : BitVec 32) (s : State) : Host.Outcome State Fault Refusal :=
  .next (s.clocked (s.copyDone k.val ns.toNat))

/-- HBM_ZERO (R347). -/
def execHbmZero (k : StackId) (s : State) : Host.Outcome State Fault Refusal :=
  .next (s.clocked (s.hbmZero k.val))

/-- HBM_ZERO_DONE (R347). -/
def execHbmZeroDone (k : StackId) (s : State) : Host.Outcome State Fault Refusal :=
  .next (s.clocked (s.hbmZeroDone k.val))

/-- HBM_REFRESH (R339). -/
def execHbmRefresh (k : StackId) (s : State) : Host.Outcome State Fault Refusal :=
  .next (s.clocked (s.hbmRefresh k.val))

/-- CHANNEL_CALIBRATION (R341). -/
def execChannelCalibration (k : StackId) (retrain : Bool) (s : State) : Host.Outcome State Fault Refusal :=
  .next (s.clocked (s.calibrate k.val retrain))

/-- STACK_TRAINING (R327). -/
def execStackTraining (k : StackId) (passes : BitVec 3) (s : State) : Host.Outcome State Fault Refusal :=
  .next (s.clocked (s.stackTraining k.val passes.toNat))

/-- STACK_LOST (R327). -/
def execStackLost (k : StackId) (s : State) : Host.Outcome State Fault Refusal :=
  .next (s.clocked (s.stackLost k.val))

end Sys2Proof.Machine
end

