-- ==== Sys2Proof/Machine/HostOps.lean ====
section
/-!
DEFINITION. The commands of the host port, the transport engine and firmware's tenant commands: one meaning each.
-/

namespace Sys2Proof.Machine

/-- HOST_LINK_DOWN (R422). -/
def execHostLinkDown (s : State) : Host.Outcome State Fault Refusal :=
  .next (s.clocked (s.hostDown))

/-- HOST_LINK_UP (R422). -/
def execHostLinkUp (s : State) : Host.Outcome State Fault Refusal :=
  .next (s.clocked (s.hostUp))

/-- FRAME_RECEIVE (R421). -/
def execFrameReceive (frame : List Byte) (fec : Fin 3) (us : BitVec 32) (s : State) : Host.Outcome State Fault Refusal
      :=
  .next (s.clocked (s.frameReceive fec.val us.toNat (frame.map BitVec.toNat)))

/-- NEIGHBOR_SOLICITATION (R421). -/
def execNeighborSolicitation (src target : BitVec 128) (s : State) : Host.Outcome State Fault Refusal :=
  .next (s.clocked (s.neighbor src.toNat target.toNat))

/-- ECHO_REQUEST (R421). -/
def execEchoRequest (src dst : BitVec 128) (rest : List Byte) (s : State) : Host.Outcome State Fault Refusal :=
  .next (s.clocked (s.echo src.toNat dst.toNat (rest.map BitVec.toNat)))

/-- DATA_PACKET (R425). -/
def execDataPacket (flow : BitVec 8) (first last : Bool) (seq : BitVec 32) (ack : BitVec 32) (sack : BitVec 64) (win :
      BitVec 16) (us : BitVec 32) (payload : List Byte) (s : State) : Host.Outcome State Fault Refusal :=
  .next (s.clocked (s.dataPacket flow.toNat first last seq.toNat ack.toNat sack.toNat win.toNat us.toNat (payload.map
      BitVec.toNat)))

/-- ACK_PACKET (R426). -/
def execAckPacket (flow : BitVec 8) (ack : BitVec 32) (sack : BitVec 64) (win : BitVec 16) (us : BitVec 32) (s : State)
      : Host.Outcome State Fault Refusal :=
  .next (s.clocked (s.ackPacket flow.toNat ack.toNat sack.toNat win.toNat us.toNat))

/-- KEEPALIVE (R424). -/
def execKeepalive (flow : BitVec 8) (ack : BitVec 32) (sack : BitVec 64) (win : BitVec 16) (us : BitVec 32) (s : State)
      : Host.Outcome State Fault Refusal :=
  .next (s.clocked (s.keepalive flow.toNat ack.toNat sack.toNat win.toNat us.toNat))

/-- RETRANSMIT_TIMEOUT (R426). -/
def execRetransmitTimeout (flow : BitVec 8) (s : State) : Host.Outcome State Fault Refusal :=
  .next (s.clocked (s.flowTimeout flow.toNat))

/-- HTP_FLOW_WRITE (R423). -/
def execHtpFlowWrite (flow : BitVec 8) (valid mgmt : Bool) (prio : BitVec 2) (tenant : BitVec 8) (port window : BitVec
      16) (host : BitVec 128) (s : State) : Host.Outcome State Fault Refusal :=
  .next (s.clocked (s.flowWrite flow.toNat (b2n valid) (b2n mgmt) prio.toNat tenant.toNat port.toNat window.toNat
      host.toNat))

/-- CMD (R431). -/
def execCmd (flow : BitVec 8) (s : State) : Host.Outcome State Fault Refusal :=
  .next (s.clocked (s.hostCmd flow.toNat))

/-- CMD_DEPOSIT_RESUME (R432). -/
def execCmdDepositResume (flow : BitVec 8) (s : State) : Host.Outcome State Fault Refusal :=
  .next (s.clocked (s.cmdResume flow.toNat))

/-- PUT (R429). -/
def execPut (flow : BitVec 8) (s : State) : Host.Outcome State Fault Refusal :=
  .next (s.clocked (s.hostPut flow.toNat))

/-- GET (R429). -/
def execGet (flow : BitVec 8) (s : State) : Host.Outcome State Fault Refusal :=
  .next (s.clocked (s.hostGet flow.toNat))

/-- ATOMIC (R429). -/
def execAtomic (flow : BitVec 8) (s : State) : Host.Outcome State Fault Refusal :=
  .next (s.clocked (s.hostAtomic flow.toNat))

/-- REDUCE_PUT (R336). -/
def execReducePut (flow : BitVec 8) (s : State) : Host.Outcome State Fault Refusal :=
  .next (s.clocked (s.hostReduce flow.toNat))

/-- CMD_NACK (R428). -/
def execCmdNack (flow : BitVec 8) (s : State) : Host.Outcome State Fault Refusal :=
  .next (s.clocked (s.cmdNack flow.toNat))

/-- HTP_TXQ_GO (R438). -/
def execHtpTxqGo (flow : BitVec 8) (s : State) : Host.Outcome State Fault Refusal :=
  .next (s.clocked (s.txqGo flow.toNat))

/-- JOB (R236). -/
def execJob (flow : BitVec 8) (tag : BitVec 32) (job : BitVec 32) (schedule : BitVec 128) (step : BitVec 32) (s :
      State) : Host.Outcome State Fault Refusal :=
  .next (s.clocked (s.jobCmd flow.toNat tag.toNat job.toNat schedule.toNat step.toNat))

/-- LAUNCH (R434). -/
def execLaunch (core : CoreId) (flow : BitVec 8) (rcd : BitVec 512) (shape : List (BitVec 32)) (s : State) :
      Host.Outcome State Fault Refusal :=
  .next (s.clocked (s.launchCmd core.val flow.toNat rcd.toNat (shape.map BitVec.toNat)))

/-- ABORT (R437). -/
def execAbort (flow : BitVec 8) (tag : BitVec 32) (launchId : BitVec 32) (s : State) : Host.Outcome State Fault Refusal
      :=
  .next (s.clocked (s.abortCmd flow.toNat tag.toNat launchId.toNat))

/-- COLL (R433). -/
def execColl (flow : BitVec 8) (addr : BitVec 48) (s : State) : Host.Outcome State Fault Refusal :=
  .next (s.clocked (s.collCmd flow.toNat addr.toNat))

end Sys2Proof.Machine
end

