-- ==== Sys2Proof/Machine/LaunchOps.lean ====
section
/-!
DEFINITION. The commands of the launch unit and of a region's banks as a whole: one meaning each.
-/

namespace Sys2Proof.Machine

/-- LAUNCH_SUBMIT (R279). -/
def execLaunchSubmit (core : CoreId) (hi : BitVec 16) (s : State) : Host.Outcome State Fault Refusal :=
  .next (s.clocked (s.launchSubmit core.val hi.toNat))

/-- LAUNCH_COMMIT (R437). -/
def execLaunchCommit (launchId : BitVec 32) (tenant : TenantId) (s : State) : Host.Outcome State Fault Refusal :=
  .next (s.clocked (s.launchCommit launchId.toNat tenant.val))

/-- COMPLETION_RING_ENTRY (R436). -/
def execCompletionRingEntry (s : State) : Host.Outcome State Fault Refusal :=
  .next (s.clocked (s.ringEntry))

/-- SP_ZERO (R131). -/
def execSpZero (r : RegionId) (s : State) : Host.Outcome State Fault Refusal :=
  .next (s.clocked (s.spZero r.val))

/-- ZEROISATION_DONE (R131). -/
def execZeroisationDone (r : RegionId) (s : State) : Host.Outcome State Fault Refusal :=
  .next (s.clocked (s.zeroDone r.val))

/-- SP_MAPOUT (R121). -/
def execSpMapout (k : ClusterId) (row : Fin 8192) (bank : Fin 64) (s : State) : Host.Outcome State Fault Refusal :=
  .next (s.clocked (s.mapOutRequest k.val row.val bank.val))

/-- MAPOUT_EXECUTE (R121). -/
def execMapoutExecute (k : ClusterId) (s : State) : Host.Outcome State Fault Refusal :=
  .next (s.clocked (s.mapOutExecute k.val))

/-- SP_REMAP_WRITE (R120). -/
def execSpRemapWrite (k : ClusterId) (bank : Fin 64) (e : Fin 256) (lrow : Fin 8192) (valid : Bool) (s : State) :
      Host.Outcome State Fault Refusal :=
  .next (s.clocked (s.remapWrite k.val bank.val e.val lrow.val (b2n valid)))

/-- HTP_ABORT (R437). -/
def execHtpAbort (launchId : BitVec 32) (s : State) : Host.Outcome State Fault Refusal :=
  .next (s.clocked (s.htpAbort launchId.toNat))

/-- HELD_LAUNCH_START (R491). -/
def execHeldLaunchStart (launchId : BitVec 32) (tenant : TenantId) (s : State) : Host.Outcome State Fault Refusal :=
  .next (s.clocked (s.heldStart launchId.toNat tenant.val))

/-- PWR_RGATE (R507). -/
def execPwrRgate (mask : BitVec 32) (s : State) : Host.Outcome State Fault Refusal :=
  .next (s.clocked (s.gateRequest mask.toNat))

/-- GATING_DEFERRED_START (R507). -/
def execGatingDeferredStart (r : RegionId) (s : State) : Host.Outcome State Fault Refusal :=
  .next (s.clocked (s.gateStart r.val))

/-- GATING_DONE (R508). -/
def execGatingDone (r : RegionId) (s : State) : Host.Outcome State Fault Refusal :=
  .next (s.clocked (s.gateDone r.val))

/-- GATING_DRAIN_TIMEOUT (R508). -/
def execGatingDrainTimeout (r : RegionId) (s : State) : Host.Outcome State Fault Refusal :=
  .next (s.clocked (s.gateTimeout r.val))

/-- PWR_RWAKE (R509). -/
def execPwrRwake (mask : BitVec 32) (s : State) : Host.Outcome State Fault Refusal :=
  .next (s.clocked (s.wakeRequest mask.toNat))

/-- REGION_WAKE (R509). -/
def execRegionWake (r : RegionId) (s : State) : Host.Outcome State Fault Refusal :=
  .next (s.clocked (s.wakeRegion r.val))

end Sys2Proof.Machine
end

