-- ==== Sys2Proof/Machine/LinkOps.lean ====
section
/-!
DEFINITION. The commands of the Ozpel link ports: one meaning each.
-/

namespace Sys2Proof.Machine

/-- PORT_SLOT (R366). -/
def execPortSlot (q : Fin 7) (flits : List (BitVec 128 × List Byte)) (s : State) : Host.Outcome State Fault Refusal :=
  .next (s.clocked (s.portSlot q.val (flits.map fun f => ⟨f.1.toNat, f.2.map BitVec.toNat⟩)))

/-- OZL_ENABLE (R378). -/
def execOzlEnable (p : PortId) (s : State) : Host.Outcome State Fault Refusal :=
  .next (s.clocked (s.ozlEnable p.val))

/-- OZL_RETRAIN (R383). -/
def execOzlRetrain (p : PortId) (s : State) : Host.Outcome State Fault Refusal :=
  .next (s.clocked (s.ozlRetrain p.val))

/-- FULL_TRAINING_DONE (R380). -/
def execFullTrainingDone (p : PortId) (rxBad txBad inv : BitVec 16) (perm serial : BitVec 64) (peerPort : BitVec 3) (s
      : State) : Host.Outcome State Fault Refusal :=
  .next (s.clocked (s.trainingDone p.val rxBad.toNat txBad.toNat inv.toNat perm.toNat serial.toNat peerPort.toNat))

/-- OZL_ACCEPT (R372). -/
def execOzlAccept (p : PortId) (s : State) : Host.Outcome State Fault Refusal :=
  .next (s.clocked (s.ozlAccept p.val))

/-- WAKE_TX (R385). -/
def execWakeTx (p : PortId) (s : State) : Host.Outcome State Fault Refusal :=
  .next (s.clocked (s.wakeTx p.val))

/-- WAKE_TX_REPEAT (R385). -/
def execWakeTxRepeat (p : PortId) (peer : Bool) (s : State) : Host.Outcome State Fault Refusal :=
  .next (s.clocked (s.wakeRepeat p.val peer))

/-- LANE_LOSS_OF_LOCK (R382). -/
def execLaneLossOfLock (p : PortId) (lane : Option (Fin 16)) (s : State) : Host.Outcome State Fault Refusal :=
  .next (s.clocked (s.lockLost p.val (lane.map Fin.val)))

/-- SYMBOL_ERROR_WINDOW (R381). -/
def execSymbolErrorWindow (p : PortId) (errs : List (BitVec 32)) (s : State) : Host.Outcome State Fault Refusal :=
  .next (s.clocked (s.symbolWindow p.val (errs.map BitVec.toNat)))

/-- RETRAIN_DONE (R382). -/
def execRetrainDone (p : PortId) (txBad : BitVec 16) (s : State) : Host.Outcome State Fault Refusal :=
  .next (s.clocked (s.retrainDone p.val txBad.toNat))

/-- PORT_DOWN (R384). -/
def execPortDown (p : PortId) (s : State) : Host.Outcome State Fault Refusal :=
  .next (s.clocked (s.portDown p.val))

/-- FLIT_RECEIVE (R376). -/
def execFlitReceive (p : PortId) (hdr : BitVec 128) (payload : List Byte) (crc : BitVec 64) (errs : List (List (Fin 544))) (s : State) :
      Host.Outcome State Fault Refusal :=
  .next (s.clocked (s.flitReceive p.val (Flit.full ⟨hdr.toNat, payload.map BitVec.toNat⟩) crc.toNat (errs.map fun e => e.map Fin.val)))

/-- NAK_RECEIVE (R376). -/
def execNakReceive (p : PortId) (ack : BitVec 16) (s : State) : Host.Outcome State Fault Refusal :=
  .next (s.clocked (s.nakReceive p.val ack.toNat))

/-- PEER_RETRAIN (R382). -/
def execPeerRetrain (p : PortId) (s : State) : Host.Outcome State Fault Refusal :=
  .next (s.clocked (s.peerRetrain p.val))

end Sys2Proof.Machine
end

