-- ==== Sys2Proof/Machine/MmioOps.lean ====
section
/-!
DEFINITION. Writes of registers, and the debug features that the DBG_ block offers: one meaning each.
-/

namespace Sys2Proof.Machine

/-- REGISTER_WRITE (R8). -/
def execRegisterWrite (addr : BitVec 48) (lanes : Fin 4) (value : BitVec 64) (s : State) : Host.Outcome State Fault
      Refusal :=
  .next (s.clocked (s.registerWrite addr.toNat (2 ^ lanes.val) value.toNat))

/-- DBG_HALT (R575). -/
def execDbgHalt (mask periods : BitVec 32) (s : State) : Host.Outcome State Fault Refusal :=
  .next (s.clocked (s.dbgHalt mask.toNat periods.toNat))

/-- DBG_STEP (R575). -/
def execDbgStep (r : RegionId) (s : State) : Host.Outcome State Fault Refusal :=
  .next (s.clocked (s.dbgStep r.val))

/-- DBG_DATA_WRITE (R576). -/
def execDbgDataWrite (lo hi : BitVec 32) (s : State) : Host.Outcome State Fault Refusal :=
  .next (s.clocked (s.dbgDataWrite lo.toNat hi.toNat))

/-- DBG_INJ (R577). -/
def execDbgInj (target : BitVec 3) (two : Bool) (addr : BitVec 48) (s : State) : Host.Outcome State Fault Refusal :=
  .next (s.clocked (s.dbgInj target.toNat two addr.toNat))

end Sys2Proof.Machine
end

