-- ==== Sys2Proof/Machine/PowerOps.lean ====
section
/-!
DEFINITION. The commands of the module-wide power states and of wake sources: one meaning each.
-/

namespace Sys2Proof.Machine

/-- WAKE_PATTERN_DETECT (R385). -/
def execWakePatternDetect (p : PortId) (s : State) : Host.Outcome State Fault Refusal :=
  .next (s.ozlWake p.val true)

/-- LINK_ACTIVITY_DETECT (R385). -/
def execLinkActivityDetect (p : PortId) (s : State) : Host.Outcome State Fault Refusal :=
  .next (s.ozlWake p.val false)

/-- ENTER_COLD_FRAME (R513). -/
def execEnterColdFrame (core : CoreId) (s : State) : Host.Outcome State Fault Refusal :=
  .next (s.clocked (s.enter core.val 1))

/-- ENTER_SOIL_PROBE (R513). -/
def execEnterSoilProbe (core : CoreId) (s : State) : Host.Outcome State Fault Refusal :=
  .next (s.clocked (s.enter core.val 2))

/-- ENTER_OFF (R513). -/
def execEnterOff (core : CoreId) (s : State) : Host.Outcome State Fault Refusal :=
  .next (s.clocked (s.enter core.val 3))

/-- WAKE_SOURCE (R519). -/
def execWakeSource (source : Fin 26) (s : State) : Host.Outcome State Fault Refusal :=
  .next (s.wakeSource source.val)

/-- COLD_FRAME_EXIT (R515). -/
def execColdFrameExit (s : State) : Host.Outcome State Fault Refusal :=
  .next (s.frameExit)

/-- SOIL_PROBE (R516). -/
def execSoilProbe (values : Vector (BitVec 16) 8) (seen : BitVec 32) (s : State) : Host.Outcome State Fault Refusal :=
  .next (s.probeTick (values.toList.map BitVec.toNat) seen.toNat)

/-- WAKE_PIN_EDGE (R516). -/
def execWakePinEdge (pin : Fin 2) (s : State) : Host.Outcome State Fault Refusal :=
  .next (s.wakeEdge pin.val)

/-- ENTRY_DRAIN_TIMEOUT (R513). -/
def execEntryDrainTimeout (s : State) : Host.Outcome State Fault Refusal :=
  .next (s.clocked s.entryTimeout)

end Sys2Proof.Machine
end

