-- ==== Sys2Proof/Machine/RegionOps.lean ====
section
/-!
DEFINITION. The commands that name a region's operations (Tables 10.7 to 10.13, 8.1) and its events: one meaning each.
-/

namespace Sys2Proof.Machine

namespace State

/-- A Shears pass named by its effect (Table 8.1): SH.PASS of a record whose OP is `op`; a record with another OP names another
pass, and nothing issues. -/
def shearsOp (s : State) (r rcd op : Nat) : State :=
  if (shearsOf (s.seq r).param rcd).op = op then s.issueOp r { Bundle.nop with sh := .pass rcd } else s

/-- The slot of Table 10.5 whose unit raises completion code 0x40 + `k` (Table 16.8). -/
def faultSlot (k : Nat) : Nat :=
  if k ≤ 2 then 0 else if k ≤ 7 then 2 else if k ≤ 11 then 3 else if k = 12 then 0 else if k ≤ 14 then 1
  else if k ≤ 18 then 5 else 4

/-- The MU of the Sieve's earliest look-ups in progress in cluster `c` of region `r` (R207). -/
def lookMu (s : State) (r c : Nat) : Option Nat :=
  ((s.seq r).looks.find? fun l => l.cl == cix r c).map (·.mu)

/-- REGION_FAULT (R117): a unit of cluster `c` of a region that runs a launch raises completion code 0x40 + `k`; a Sieve or
Shears fault stands in the cluster's own register too (Tables 7.6, 8.7). An index entry is found uncorrectable only as it is looked up
(R190). -/
def unitFault (s : State) (r c k : Nat) : State :=
  if !s.active r || k == 7 && (s.lookMu r c).isNone then s
  else
    let t := (s.seq r).ic
    let x := if 3 ≤ k ∧ k ≤ 7 then (s.svFault r c (if k = 7 then (s.lookMu r c).getD 0 else 0) (k - 2) 2 t).1
      else if 8 ≤ k ∧ k ≤ 11 then (s.shFault r c (k - 7) 3 t).1 else s
    x.regionFault r t (Flt.of (0x40 + k) (faultSlot k) c)

/-- RESULT_IC (R300): one ic in which the region issues no operation of its own; what falls due acts. -/
def resultIc (s : State) (r : Nat) : State :=
  if s.issuing r then s.issue r (.ok Bundle.nop) else if s.draining r then s.finish r else s

end State

/-- LDA (R287). -/
def execLda (r : RegionId) (mu : Fin 4) (sa : Fin 2) (tr qen : Bool) (q : Fin 4) (rcd : Fin 256)
    (ixe ixr ixc : Fin 16) (s : State) :
    Host.Outcome State Fault Refusal :=
  .next (s.issueOp r.val { Bundle.nop with mu := .load false mu.val sa.val tr qen q.val rcd.val ixe.val ixr.val ixc.val })

/-- LDB (R287). -/
def execLdb (r : RegionId) (mu : Fin 4) (sb : Fin 2) (tr qen : Bool) (q : Fin 4) (rcd : Fin 256)
    (ixe ixr ixc : Fin 16) (s : State) :
    Host.Outcome State Fault Refusal :=
  .next (s.issueOp r.val { Bundle.nop with mu := .load true mu.val sb.val tr qen q.val rcd.val ixe.val ixr.val ixc.val })

/-- MMA (R138). -/
def execMma (r : RegionId) (mu tile : Fin 4) (sa sb : Fin 2) (acc : Bool) (s : State) :
    Host.Outcome State Fault Refusal :=
  .next (s.issueOp r.val { Bundle.nop with mu := .mma mu.val tile.val sa.val sb.val acc })

/-- SMMA (R191). -/
def execSmma (r : RegionId) (mu tile : Fin 4) (sa half : Fin 2) (acc : Bool) (rcd : Fin 256) (s : State) :
    Host.Outcome State Fault Refusal :=
  .next (s.issueOp r.val { Bundle.nop with mu := .smma mu.val tile.val sa.val half.val acc rcd.val })

/-- SGW (R244). -/
def execSgw (r : RegionId) (mu : Fin 4) (sa sb : Fin 2) (acc : Bool) (zmh : Fin 2) (rcd : Fin 256) (s : State) :
    Host.Outcome State Fault Refusal :=
  .next (s.issueOp r.val { Bundle.nop with mu := .sgw mu.val sa.val sb.val acc zmh.val rcd.val })

/-- RAKE (R140). -/
def execRake (r : RegionId) (mu tile tile2 : Fin 4) (s : State) :
    Host.Outcome State Fault Refusal :=
  .next (s.issueOp r.val { Bundle.nop with mu := .rake mu.val tile.val tile2.val })

/-- DRAIN (R153). -/
def execDrain (r : RegionId) (mu tile : Fin 4) (rcd : Fin 256) (den : Bool) (drec : Fin 128)
    (ixe ixr ixc : Fin 16) (s : State) :
    Host.Outcome State Fault Refusal :=
  .next (s.issueOp r.val { Bundle.nop with mu := .drain mu.val tile.val rcd.val den drec.val ixe.val ixr.val ixc.val })

/-- ACC_ZERO (R159). -/
def execAccZero (r : RegionId) (mu tile : Fin 4) (s : State) :
    Host.Outcome State Fault Refusal :=
  .next (s.issueOp r.val { Bundle.nop with mu := .accZero mu.val tile.val })

/-- SV_LOAD (R198). -/
def execSvLoad (r : RegionId) (mu : Fin 4) (half u : Fin 2) (rcd : Fin 256) (ixe ixr ixc : Fin 16) (s : State) :
    Host.Outcome State Fault Refusal :=
  .next (s.issueOp r.val { Bundle.nop with sv := .load mu.val half.val u.val rcd.val ixe.val ixr.val ixc.val })

/-- SV_ZMAP (R204). -/
def execSvZmap (r : RegionId) (mu : Fin 4) (u reg : Fin 2) (kind : Bool) (rcd : Fin 256)
    (ixe ixr ixc : Fin 16) (s : State) :
    Host.Outcome State Fault Refusal :=
  .next (s.issueOp r.val { Bundle.nop with sv := .zmap mu.val u.val reg.val kind rcd.val ixe.val ixr.val ixc.val })

/-- SV_TRANSPOSE (R288). -/
def execSvTranspose (r : RegionId) (rcd rcd2 : Fin 256) (ixe ixr ixc : Fin 16) (s : State) :
    Host.Outcome State Fault Refusal :=
  .next (s.issueOp r.val { Bundle.nop with sv := .transpose rcd.val rcd2.val ixe.val ixr.val ixc.val })

/-- PRUNE_THRESH (R226). -/
def execPruneThresh (r : RegionId) (rcd : Fin 256) (s : State) :
    Host.Outcome State Fault Refusal :=
  .next (s.shearsOp r.val rcd.val 0)

/-- PRUNE_TOPK (R227). -/
def execPruneTopk (r : RegionId) (rcd : Fin 256) (s : State) :
    Host.Outcome State Fault Refusal :=
  .next (s.shearsOp r.val rcd.val 1)

/-- GROW_GRAD (R231). -/
def execGrowGrad (r : RegionId) (rcd : Fin 256) (s : State) :
    Host.Outcome State Fault Refusal :=
  .next (s.shearsOp r.val rcd.val 2)

/-- GROW_RAND (R231). -/
def execGrowRand (r : RegionId) (rcd : Fin 256) (s : State) :
    Host.Outcome State Fault Refusal :=
  .next (s.shearsOp r.val rcd.val 3)

/-- REMASK_GRAD (R233). -/
def execRemaskGrad (r : RegionId) (rcd : Fin 256) (s : State) :
    Host.Outcome State Fault Refusal :=
  .next (s.shearsOp r.val rcd.val 4)

/-- REMASK_RAND (R233). -/
def execRemaskRand (r : RegionId) (rcd : Fin 256) (s : State) :
    Host.Outcome State Fault Refusal :=
  .next (s.shearsOp r.val rcd.val 5)

/-- RECODE (R215). -/
def execRecode (r : RegionId) (rcd : Fin 256) (s : State) :
    Host.Outcome State Fault Refusal :=
  .next (s.shearsOp r.val rcd.val 6)

/-- VLD (R291). -/
def execVld (r : RegionId) (vd : Fin 32) (w : Bool) (rcd : Fin 256) (ixe ixr ixc : Fin 16) (s : State) :
    Host.Outcome State Fault Refusal :=
  .next (s.issueOp r.val { Bundle.nop with vu := .vld vd.val w rcd.val ixe.val ixr.val ixc.val })

/-- VST (R291). -/
def execVst (r : RegionId) (va : Fin 32) (w : Bool) (rcd : Fin 256) (ixe ixr ixc : Fin 16) (s : State) :
    Host.Outcome State Fault Refusal :=
  .next (s.issueOp r.val { Bundle.nop with vu := .vst va.val w rcd.val ixe.val ixr.val ixc.val })

/-- VLDS (R290). -/
def execVlds (r : RegionId) (vd : Fin 32) (ref rcd : Fin 256) (ixe ixr ixc : Fin 16) (s : State) :
    Host.Outcome State Fault Refusal :=
  .next (s.issueOp r.val { Bundle.nop with vu := .vlds vd.val ref.val rcd.val ixe.val ixr.val ixc.val })

/-- VSTS (R290). -/
def execVsts (r : RegionId) (va : Fin 32) (ref : Fin 256) (last : Bool) (rcd : Fin 256)
    (ixe ixr ixc : Fin 16) (s : State) :
    Host.Outcome State Fault Refusal :=
  .next (s.issueOp r.val { Bundle.nop with vu := .vsts va.val ref.val last rcd.val ixe.val ixr.val ixc.val })

/-- VADD (R291). -/
def execVadd (r : RegionId) (vd va vb : Fin 32) (w : Bool) (s : State) :
    Host.Outcome State Fault Refusal :=
  .next (s.issueOp r.val { Bundle.nop with vu := .alu 5 vd.val va.val vb.val 0 w })

/-- VSUB (R291). -/
def execVsub (r : RegionId) (vd va vb : Fin 32) (w : Bool) (s : State) :
    Host.Outcome State Fault Refusal :=
  .next (s.issueOp r.val { Bundle.nop with vu := .alu 6 vd.val va.val vb.val 0 w })

/-- VMUL (R291). -/
def execVmul (r : RegionId) (vd va vb : Fin 32) (w : Bool) (s : State) :
    Host.Outcome State Fault Refusal :=
  .next (s.issueOp r.val { Bundle.nop with vu := .alu 7 vd.val va.val vb.val 0 w })

/-- VFMA (R291). -/
def execVfma (r : RegionId) (vd va vb vc : Fin 32) (w : Bool) (s : State) :
    Host.Outcome State Fault Refusal :=
  .next (s.issueOp r.val { Bundle.nop with vu := .alu 8 vd.val va.val vb.val vc.val w })

/-- VMAX (R291). -/
def execVmax (r : RegionId) (vd va vb : Fin 32) (w : Bool) (s : State) :
    Host.Outcome State Fault Refusal :=
  .next (s.issueOp r.val { Bundle.nop with vu := .alu 9 vd.val va.val vb.val 0 w })

/-- VMIN (R291). -/
def execVmin (r : RegionId) (vd va vb : Fin 32) (w : Bool) (s : State) :
    Host.Outcome State Fault Refusal :=
  .next (s.issueOp r.val { Bundle.nop with vu := .alu 10 vd.val va.val vb.val 0 w })

/-- VABS (R291). -/
def execVabs (r : RegionId) (vd va : Fin 32) (s : State) :
    Host.Outcome State Fault Refusal :=
  .next (s.issueOp r.val { Bundle.nop with vu := .alu 11 vd.val va.val 0 0 false })

/-- VNEG (R291). -/
def execVneg (r : RegionId) (vd va : Fin 32) (s : State) :
    Host.Outcome State Fault Refusal :=
  .next (s.issueOp r.val { Bundle.nop with vu := .alu 12 vd.val va.val 0 0 false })

/-- VSEL (R291). -/
def execVsel (r : RegionId) (vd va vb vc : Fin 32) (s : State) :
    Host.Outcome State Fault Refusal :=
  .next (s.issueOp r.val { Bundle.nop with vu := .alu 13 vd.val va.val vb.val vc.val false })

/-- VCMPLT (R291). -/
def execVcmplt (r : RegionId) (vd va vb : Fin 32) (s : State) :
    Host.Outcome State Fault Refusal :=
  .next (s.issueOp r.val { Bundle.nop with vu := .alu 14 vd.val va.val vb.val 0 false })

/-- VMOVI (R291). -/
def execVmovi (r : RegionId) (vd : Fin 32) (imm : BitVec 32) (s : State) :
    Host.Outcome State Fault Refusal :=
  .next (s.issueOp r.val { Bundle.nop with vu := .movi vd.val imm.toNat })

/-- VTR (R293). -/
def execVtr (r : RegionId) (vd va : Fin 32) (fn : Fin 32) (s : State) :
    Host.Outcome State Fault Refusal :=
  .next (s.issueOp r.val { Bundle.nop with vu := .vtr vd.val va.val fn.val })

/-- VRSUM (R292). -/
def execVrsum (r : RegionId) (vd va vc : Fin 32) (s : State) :
    Host.Outcome State Fault Refusal :=
  .next (s.issueOp r.val { Bundle.nop with vu := .vred false vd.val va.val vc.val })

/-- VRMAX (R292). -/
def execVrmax (r : RegionId) (vd va vc : Fin 32) (s : State) :
    Host.Outcome State Fault Refusal :=
  .next (s.issueOp r.val { Bundle.nop with vu := .vred true vd.val va.val vc.val })

/-- VIADD (R291). -/
def execViadd (r : RegionId) (vd va vb : Fin 32) (s : State) :
    Host.Outcome State Fault Refusal :=
  .next (s.issueOp r.val { Bundle.nop with vu := .alu 20 vd.val va.val vb.val 0 false })

/-- VISUB (R291). -/
def execVisub (r : RegionId) (vd va vb : Fin 32) (s : State) :
    Host.Outcome State Fault Refusal :=
  .next (s.issueOp r.val { Bundle.nop with vu := .alu 21 vd.val va.val vb.val 0 false })

/-- VIMUL (R291). -/
def execVimul (r : RegionId) (vd va vb : Fin 32) (s : State) :
    Host.Outcome State Fault Refusal :=
  .next (s.issueOp r.val { Bundle.nop with vu := .alu 22 vd.val va.val vb.val 0 false })

/-- VIMULHU (R291). -/
def execVimulhu (r : RegionId) (vd va vb : Fin 32) (s : State) :
    Host.Outcome State Fault Refusal :=
  .next (s.issueOp r.val { Bundle.nop with vu := .alu 23 vd.val va.val vb.val 0 false })

/-- VICARRY (R291). -/
def execVicarry (r : RegionId) (vd va vb : Fin 32) (s : State) :
    Host.Outcome State Fault Refusal :=
  .next (s.issueOp r.val { Bundle.nop with vu := .alu 24 vd.val va.val vb.val 0 false })

/-- VISHL (R291). -/
def execVishl (r : RegionId) (vd va vb : Fin 32) (s : State) :
    Host.Outcome State Fault Refusal :=
  .next (s.issueOp r.val { Bundle.nop with vu := .alu 25 vd.val va.val vb.val 0 false })

/-- VISHR (R291). -/
def execVishr (r : RegionId) (vd va vb : Fin 32) (s : State) :
    Host.Outcome State Fault Refusal :=
  .next (s.issueOp r.val { Bundle.nop with vu := .alu 26 vd.val va.val vb.val 0 false })

/-- VIAND (R291). -/
def execViand (r : RegionId) (vd va vb : Fin 32) (s : State) :
    Host.Outcome State Fault Refusal :=
  .next (s.issueOp r.val { Bundle.nop with vu := .alu 27 vd.val va.val vb.val 0 false })

/-- VIOR (R291). -/
def execVior (r : RegionId) (vd va vb : Fin 32) (s : State) :
    Host.Outcome State Fault Refusal :=
  .next (s.issueOp r.val { Bundle.nop with vu := .alu 28 vd.val va.val vb.val 0 false })

/-- VIXOR (R291). -/
def execVixor (r : RegionId) (vd va vb : Fin 32) (s : State) :
    Host.Outcome State Fault Refusal :=
  .next (s.issueOp r.val { Bundle.nop with vu := .alu 29 vd.val va.val vb.val 0 false })

/-- VICLZ (R291). -/
def execViclz (r : RegionId) (vd va : Fin 32) (s : State) :
    Host.Outcome State Fault Refusal :=
  .next (s.issueOp r.val { Bundle.nop with vu := .alu 30 vd.val va.val 0 0 false })

/-- DMA_GO (R295). -/
def execDmaGo (r : RegionId) (rcd : Fin 256) (ixe ixr ixc : Fin 16) (s : State) :
    Host.Outcome State Fault Refusal :=
  .next (s.issueOp r.val { Bundle.nop with mv := .dma rcd.val ixe.val ixr.val ixc.val })

/-- DMA_TRANSFER_DONE (R298). -/
def execDmaTransferDone (d : DieId) (ch : ChanId) (s : State) :
    Host.Outcome State Fault Refusal :=
  .next (s.dmaDone d.val ch.val)

/-- MOVE (R296). -/
def execMove (r : RegionId) (rcd : Fin 256) (ixe ixr ixc : Fin 16) (s : State) :
    Host.Outcome State Fault Refusal :=
  .next (s.issueOp r.val { Bundle.nop with mv := .move rcd.val ixe.val ixr.val ixc.val })

/-- HALT (R282). -/
def execHalt (r : RegionId) (s : State) :
    Host.Outcome State Fault Refusal :=
  .next (s.issueOp r.val { Bundle.nop with ct := .halt })

/-- JMP (R299). -/
def execJmp (r : RegionId) (imm : BitVec 27) (s : State) :
    Host.Outcome State Fault Refusal :=
  .next (s.issueOp r.val { Bundle.nop with ct := .jmp imm.toInt })

/-- BNZ (R299). -/
def execBnz (r : RegionId) (ixa : Fin 16) (imm : BitVec 27) (s : State) :
    Host.Outcome State Fault Refusal :=
  .next (s.issueOp r.val { Bundle.nop with ct := .bnz ixa.val imm.toInt })

/-- BZ (R299). -/
def execBz (r : RegionId) (ixa : Fin 16) (imm : BitVec 27) (s : State) :
    Host.Outcome State Fault Refusal :=
  .next (s.issueOp r.val { Bundle.nop with ct := .bz ixa.val imm.toInt })

/-- IXSET (R299). -/
def execIxset (r : RegionId) (ixd : Fin 16) (imm : BitVec 27) (s : State) :
    Host.Outcome State Fault Refusal :=
  .next (s.issueOp r.val { Bundle.nop with ct := .ixset ixd.val imm.toInt })

/-- IXADD (R299). -/
def execIxadd (r : RegionId) (ixd ixa : Fin 16) (imm : BitVec 27) (s : State) :
    Host.Outcome State Fault Refusal :=
  .next (s.issueOp r.val { Bundle.nop with ct := .ixadd ixd.val ixa.val imm.toInt })

/-- IXLDP (R299). -/
def execIxldp (r : RegionId) (ixd : Fin 16) (imm : BitVec 27) (s : State) :
    Host.Outcome State Fault Refusal :=
  .next (s.issueOp r.val { Bundle.nop with ct := .ixldp ixd.val imm.toInt })

/-- DECBNZ (R299). -/
def execDecbnz (r : RegionId) (ixd : Fin 16) (imm : BitVec 27) (s : State) :
    Host.Outcome State Fault Refusal :=
  .next (s.issueOp r.val { Bundle.nop with ct := .decbnz ixd.val imm.toInt })

/-- EVINC (R306). -/
def execEvinc (r : RegionId) (ctr : Fin 64) (dst : RegionId) (scope : Fin 8) (imm : BitVec 21) (s : State) :
    Host.Outcome State Fault Refusal :=
  .next (s.issueOp r.val { Bundle.nop with ct := .evinc ctr.val dst.val scope.val imm.toNat })

/-- EVSET (R299). -/
def execEvset (r : RegionId) (ctr : Fin 64) (dst : RegionId) (imm : BitVec 21) (s : State) :
    Host.Outcome State Fault Refusal :=
  .next (s.issueOp r.val { Bundle.nop with ct := .evset ctr.val dst.val imm.toNat })

/-- EVWAIT (R306). -/
def execEvwait (r : RegionId) (ctr : Fin 64) (dst : RegionId) (imm : BitVec 21) (s : State) :
    Host.Outcome State Fault Refusal :=
  .next (s.issueOp r.val { Bundle.nop with ct := .evwait ctr.val dst.val imm.toNat })

/-- FENCE (R305). -/
def execFence (r : RegionId) (scope : Fin 8) (s : State) :
    Host.Outcome State Fault Refusal :=
  .next (s.issueOp r.val { Bundle.nop with ct := .fence scope.val })

/-- HOLD_END (R302). -/
def execHoldEnd (r : RegionId) (periods : Nat) (s : State) :
    Host.Outcome State Fault Refusal :=
  .next (s.holdEnd r.val periods)

/-- SQ_WAIT_TIMEOUT (R302). -/
def execSqWaitTimeout (r : RegionId) (s : State) :
    Host.Outcome State Fault Refusal :=
  .next (s.waitTimeout r.val)

/-- EVENT_ARRIVAL (R306). -/
def execEventArrival (src : RegionId) (s : State) :
    Host.Outcome State Fault Refusal :=
  .next (s.eventArrival src.val)

/-- REMOTE_ACCESS (R130). -/
def execRemoteAccess (n wait : Nat) (s : State) :
    Host.Outcome State Fault Refusal :=
  .next (s.serveRemote n wait false)

/-- REMOTE_FORCED_SERVICE (R130). -/
def execRemoteForcedService (n : Nat) (s : State) :
    Host.Outcome State Fault Refusal :=
  .next (s.serveRemote n 64 true)

/-- STASH_ROW_WRITE_DONE (R267). -/
def execStashRowWriteDone (d : DieId) (region : Fin 8) (s : State) :
    Host.Outcome State Fault Refusal :=
  .next (s.stashDone d.val region.val)

/-- REGION_START (R280). -/
def execRegionStart (r : RegionId) (s : State) :
    Host.Outcome State Fault Refusal :=
  .next (s.regionStart r.val)

/-- REGION_COMPLETE (R282). -/
def execRegionComplete (r : RegionId) (s : State) :
    Host.Outcome State Fault Refusal :=
  .next (s.regionComplete r.val)

/-- REGION_FAULT (R117). -/
def execRegionFault (r : RegionId) (cluster : Fin 8) (kind : Fin 21) (s : State) :
    Host.Outcome State Fault Refusal :=
  .next (s.unitFault r.val cluster.val kind.val)

/-- SQ_ABORT (R307). -/
def execSqAbort (r : RegionId) (s : State) :
    Host.Outcome State Fault Refusal :=
  .next (s.sqAbort r.val)

/-- RESULT_IC (R300). -/
def execResultIc (r : RegionId) (s : State) :
    Host.Outcome State Fault Refusal :=
  .next (s.resultIc r.val)

end Sys2Proof.Machine
end

