-- ==== Sys2Proof/Machine/ResetOps.lean ====
section
/-!
DEFINITION. The commands of resets, watchdogs, boot and firmware update: one meaning each.
-/

namespace Sys2Proof.Machine

/-- FW_WRITE (R455). -/
def execFwWrite (flow : BitVec 8) (tag : BitVec 32) (first : Bool) (addr : BitVec 48) (length : BitVec 32) (s : State)
      : Host.Outcome State Fault Refusal :=
  .next (s.clocked (s.fwWrite flow.toNat tag.toNat (b2n first) addr.toNat length.toNat))

/-- FW_ACTIVATE (R455). -/
def execFwActivate (flow : BitVec 8) (tag : BitVec 32) (s : State) : Host.Outcome State Fault Refusal :=
  .next (s.clocked (s.fwActivate flow.toNat tag.toNat))

/-- FW_CONFIRM (R455). -/
def execFwConfirm (flow : BitVec 8) (tag : BitVec 32) (raiseSvn : Bool) (s : State) : Host.Outcome State Fault Refusal
      :=
  .next (s.clocked (s.fwConfirm flow.toNat tag.toNat raiseSvn))

/-- RESET (R455). -/
def execReset (flow : BitVec 8) (tag : BitVec 32) (s : State) : Host.Outcome State Fault Refusal :=
  .next (s.clocked (s.resetCmd flow.toNat tag.toNat))

/-- MOD_RESET_N (R448). -/
def execModResetN (s : State) : Host.Outcome State Fault Refusal :=
  .next (s.resetLow)

/-- COLD_RESET_RELEASE (R447). -/
def execColdResetRelease (slotId slotOpen : BitVec 6) (feedId feedOpen : BitVec 4) (mgrEn mgrOpen : Bool) (s : State) :
      Host.Outcome State Fault Refusal :=
  .next (s.resetHigh ⟨slotId.toNat, b2n mgrEn, feedId.toNat, slotOpen.toNat, b2n mgrOpen, feedOpen.toNat⟩)

/-- WARM_RESET (R447). -/
def execWarmReset (s : State) : Host.Outcome State Fault Refusal :=
  .next (s.clocked (s.warmRequested))

/-- MOD_RESET_CTL (R447). -/
def execModResetCtl (s : State) : Host.Outcome State Fault Refusal :=
  .next (s.clocked (s.resetCtl))

/-- WATCHDOG_EXPIRY (R446). -/
def execWatchdogExpiry (core : CoreId) (s : State) : Host.Outcome State Fault Refusal :=
  .next (s.clocked (s.wdtExpiry core.val))

/-- MOD_WDT_KICK (R446). -/
def execModWdtKick (core : CoreId) (key : BitVec 8) (s : State) : Host.Outcome State Fault Refusal :=
  .next (s.clocked (s.wdtKick core.val key.toNat))

/-- MOD_WDT_ARM (R446). -/
def execModWdtArm (core : CoreId) (period : BitVec 16) (s : State) : Host.Outcome State Fault Refusal :=
  .next (s.clocked (s.wdtArm core.val period.toNat))

/-- CORE_PARITY_ERROR (R442). -/
def execCoreParityError (core : CoreId) (s : State) : Host.Outcome State Fault Refusal :=
  .next (s.clocked (s.coreParity core.val))

/-- IOD_FAULT (R442). -/
def execIodFault (s : State) : Host.Outcome State Fault Refusal :=
  .next (s.clocked (s.iodFault))

/-- CSRAM_SCRUB (R440). -/
def execCsramScrub (s : State) : Host.Outcome State Fault Refusal :=
  .next (s.clocked (s.csramScrub))

/-- MOD_CC_RUN (R443). -/
def execModCcRun (mask : BitVec 8) (s : State) : Host.Outcome State Fault Refusal :=
  .next (s.clocked (s.ccRun mask.toNat))

/-- BOOT_STAGE (R452). -/
def execBootStage (records : List (List Byte)) (remaps : List (ClusterId × Fin 64 × Fin 256 × Fin 8192)) (flows : List
      (BitVec 8 × BitVec 16 × BitVec 16 × BitVec 128)) (passes : Vector (BitVec 3) 12) (failed : BitVec 32) (s : State)
      : Host.Outcome State Fault Refusal :=
  .next (s.clocked (s.bootStage ⟨records.map (·.map BitVec.toNat), remaps.map fun q => (q.1.val, q.2.1.val,
      q.2.2.1.val, q.2.2.2.val), flows.map fun q => ⟨q.1.toNat, q.2.1.toNat, q.2.2.1.toNat, q.2.2.2.toNat⟩,
      passes.toList.map BitVec.toNat, failed.toNat⟩))

/-- BOOT_LIMIT_EXPIRY (R452). -/
def execBootLimitExpiry (s : State) : Host.Outcome State Fault Refusal :=
  .next (s.clocked (s.bootLimit))

end Sys2Proof.Machine
end

