-- ==== Sys2Proof/Machine/SecOps.lean ====
section
/-!
DEFINITION. The commands of security, tenancy and metering: one meaning each.
-/

namespace Sys2Proof.Machine

/-- READY_REPORT (R456). -/
def execReadyReport (flow : BitVec 8) (tag : BitVec 32) (s : State) : Host.Outcome State Fault Refusal :=
  .next (s.clocked (s.readyReport flow.toNat tag.toNat))

/-- ATTEST (R464). -/
def execAttest (flow : BitVec 8) (tag : BitVec 32) (nonce : BitVec 512) (tenant : TenantId) (s : State) : Host.Outcome
      State Fault Refusal :=
  .next (s.clocked (s.mgmtCmd flow.toNat tag.toNat (s.attest flow.toNat tag.toNat nonce.toNat tenant.val)))

/-- CERT_GET (R461). -/
def execCertGet (flow : BitVec 8) (tag : BitVec 32) (s : State) : Host.Outcome State Fault Refusal :=
  .next (s.clocked (s.mgmtCmd flow.toNat tag.toNat (s.certGet flow.toNat tag.toNat)))

/-- DBG_CHALLENGE (R476). -/
def execDbgChallenge (flow : BitVec 8) (tag : BitVec 32) (s : State) : Host.Outcome State Fault Refusal :=
  .next (s.clocked (s.mgmtCmd flow.toNat tag.toNat (s.dbgChallenge flow.toNat tag.toNat)))

/-- DBG_UNLOCK_PWD (R476). -/
def execDbgUnlockPwd (flow : BitVec 8) (tag : BitVec 32) (password : List Byte) (s : State) : Host.Outcome State Fault
      Refusal :=
  .next (s.clocked (s.mgmtCmd flow.toNat tag.toNat (s.unlockPwd flow.toNat tag.toNat (password.map BitVec.toNat))))

/-- DBG_UNLOCK_KEY (R476). -/
def execDbgUnlockKey (flow : BitVec 8) (tag : BitVec 32) (key : BitVec 456) (sig : BitVec 912) (s : State) :
      Host.Outcome State Fault Refusal :=
  .next (s.clocked (s.mgmtCmd flow.toNat tag.toNat (s.unlockKey flow.toNat tag.toNat (toLe 57 key.toNat) (toLe 114
      sig.toNat))))

/-- DBG_LOCK (R478). -/
def execDbgLock (flow : BitVec 8) (tag : BitVec 32) (s : State) : Host.Outcome State Fault Refusal :=
  .next (s.clocked (s.mgmtCmd flow.toNat tag.toNat (s.dbgLock flow.toNat tag.toNat)))

/-- DBG_PWD_SET (R479). -/
def execDbgPwdSet (flow : BitVec 8) (tag : BitVec 32) (digest : BitVec 512) (s : State) : Host.Outcome State Fault
      Refusal :=
  .next (s.clocked (s.mgmtCmd flow.toNat tag.toNat (s.pwdSet flow.toNat tag.toNat digest.toNat)))

/-- DBG_KEY_SET (R476). -/
def execDbgKeySet (flow : BitVec 8) (tag : BitVec 32) (slot : Fin 3) (digest : BitVec 512) (s : State) : Host.Outcome
      State Fault Refusal :=
  .next (s.clocked (s.mgmtCmd flow.toNat tag.toNat (s.keySet flow.toNat tag.toNat (slot.val + 1) digest.toNat)))

/-- TEN_ASSIGN (R479). -/
def execTenAssign (flow : BitVec 8) (tag : BitVec 32) (kind : Fin 3) (index value : BitVec 32) (s : State) :
      Host.Outcome State Fault Refusal :=
  .next (s.clocked (s.mgmtCmd flow.toNat tag.toNat (s.tenAssign flow.toNat tag.toNat kind.val index.toNat value.toNat)))

/-- TEN_REGION_WRITE (R468). -/
def execTenRegionWrite (r : RegionId) (owner : BitVec 8) (s : State) : Host.Outcome State Fault Refusal :=
  .next (s.clocked (s.tenRegion r.val owner.toNat))

/-- TEN_STACK_WRITE (R469). -/
def execTenStackWrite (k : StackId) (owner : BitVec 8) (s : State) : Host.Outcome State Fault Refusal :=
  .next (s.clocked (s.tenStack k.val owner.toNat))

/-- REASSIGN_DONE (R468). -/
def execReassignDone (u : Fin 44) (s : State) : Host.Outcome State Fault Refusal :=
  .next (s.clocked (s.reassignDone u.val))

/-- TEN_SHARE_WRITE (R466). -/
def execTenShareWrite (t : Fin 254) (share : BitVec 8) (s : State) : Host.Outcome State Fault Refusal :=
  .next (s.clocked (s.wr (Reg.TEN_SHARE_SHARE t.val) share.toNat))

/-- SEC_MEAS_EXTEND (R462). -/
def execSecMeasExtend (m : Fin 8) (s : State) : Host.Outcome State Fault Refusal :=
  .next (s.clocked (s.measGo m.val))

/-- SEC_MEAS_LOCK (R462). -/
def execSecMeasLock (mask : BitVec 8) (s : State) : Host.Outcome State Fault Refusal :=
  .next (s.clocked (s.measLock mask.toNat))

/-- SIGN_REQUEST (R460). -/
def execSignRequest (s : State) : Host.Outcome State Fault Refusal :=
  .next (s.clocked (s.signNext))

/-- IDENTITY_DERIVATION (R459). -/
def execIdentityDerivation (s : State) : Host.Outcome State Fault Refusal :=
  .next (s.clocked (s.deriveId))

/-- METERING_INTERVAL_END (R471). -/
def execMeteringIntervalEnd (s : State) : Host.Outcome State Fault Refusal :=
  .next (s.intervalEnd)

/-- METER_TICK (R470). -/
def execMeterTick (regions stackSet : List (BitVec 32)) (wakes : List (RegionId × BitVec 32)) (links total : BitVec 32)
      (s : State) : Host.Outcome State Fault Refusal :=
  .next (s.meterTick (regions.map BitVec.toNat) (stackSet.map BitVec.toNat) (wakes.map fun q => (q.1.val, q.2.toNat))
      links.toNat total.toNat)

/-- METERING_RING_TAIL (R474). -/
def execMeteringRingTail (index : BitVec 16) (s : State) : Host.Outcome State Fault Refusal :=
  .next (s.clocked (s.meterTail index.toNat))

end Sys2Proof.Machine
end

