-- ==== Sys2Proof/Machine/SnapOps.lean ====
section
/-!
DEFINITION. The commands of snapshots and restores: one meaning each.
-/

namespace Sys2Proof.Machine

/-- SNAP_CONFIG (R484). -/
def execSnapConfig (flow : BitVec 8) (tag : BitVec 32) (j : Fin 8) (tenant : TenantId) (job : BitVec 32) (cursor loss :
      BitVec 48) (verify : Bool) (fmt : BitVec 4) (s : State) : Host.Outcome State Fault Refusal :=
  .next (s.clocked (s.mgmtCmd flow.toNat tag.toNat (s.snapConfig flow.toNat tag.toNat j.val tenant.val job.toNat
      cursor.toNat loss.toNat verify fmt.toNat)))

/-- SNAP_RATE (R486). -/
def execSnapRate (flow : BitVec 8) (tag : BitVec 32) (j : Fin 8) (m : BitVec 32) (s : State) : Host.Outcome State Fault
      Refusal :=
  .next (s.clocked (s.mgmtCmd flow.toNat tag.toNat (s.snapRate flow.toNat tag.toNat j.val m.toNat)))

/-- SNAP_ORDER (R488). -/
def execSnapOrder (flow : BitVec 8) (tag : BitVec 32) (j : Fin 8) (step : BitVec 32) (s : State) : Host.Outcome State
      Fault Refusal :=
  .next (s.clocked (s.mgmtCmd flow.toNat tag.toNat (s.snapOrder flow.toNat tag.toNat j.val step.toNat)))

/-- SNAP_REQUEST (R488). -/
def execSnapRequest (j : Fin 8) (step : BitVec 32) (s : State) : Host.Outcome State Fault Refusal :=
  .next (s.clocked (s.snapRequest j.val step.toNat))

/-- PARTNER_SET (R498). -/
def execPartnerSet (flow : BitVec 8) (tag : BitVec 32) (serial : BitVec 64) (feed : BitVec 4) (force standby : Bool) (s
      : State) : Host.Outcome State Fault Refusal :=
  .next (s.clocked (s.mgmtCmd flow.toNat tag.toNat (s.partnerSet flow.toNat tag.toNat serial.toNat feed.toNat force
      standby)))

/-- RESTORE (R501). -/
def execRestore (flow : BitVec 8) (tag : BitVec 32) (j : Fin 8) (src : Fin 3) (image : List (BitVec 44 × Byte)) (s :
      State) : Host.Outcome State Fault Refusal :=
  .next (s.clocked (s.mgmtCmd flow.toNat tag.toNat (s.restoreCmd flow.toNat tag.toNat j.val src.val (image.map fun q =>
      (q.1.toNat, q.2.toNat)))))

/-- SNAP_STATUS (R503). -/
def execSnapStatus (flow : BitVec 8) (tag : BitVec 32) (j : Fin 8) (s : State) : Host.Outcome State Fault Refusal :=
  .next (s.clocked (s.mgmtCmd flow.toNat tag.toNat (s.snapStatus flow.toNat tag.toNat j.val)))

/-- SNAPSHOT_TIMER (R487). -/
def execSnapshotTimer (j : Fin 8) (s : State) : Host.Outcome State Fault Refusal :=
  .next (s.clocked (s.snapTimer j.val))

/-- SNP_START (R490). -/
def execSnpStart (j : Fin 8) (s : State) : Host.Outcome State Fault Refusal :=
  .next (s.clocked (s.snpStart j.val))

/-- SNP_COMMIT (R494). -/
def execSnpCommit (j : Fin 8) (s : State) : Host.Outcome State Fault Refusal :=
  .next (s.clocked (s.snpCommit j.val))

/-- SNP_ABORT (R495). -/
def execSnpAbort (j : Fin 8) (s : State) : Host.Outcome State Fault Refusal :=
  .next (s.clocked (s.snpAbort j.val))

/-- SNP_RESTORE (R500). -/
def execSnpRestore (j : Fin 8) (src : Fin 3) (image : List (BitVec 44 × Byte)) (s : State) : Host.Outcome State Fault
      Refusal :=
  .next (s.clocked (s.snpRestore j.val src.val (image.map fun q => (q.1.toNat, q.2.toNat))))

/-- FLASH_WRITE_UNIT (R492). -/
def execFlashWriteUnit (ok : Bool) (s : State) : Host.Outcome State Fault Refusal :=
  .next (s.clocked (s.flashWrite ok))

/-- SNAPSHOT_RECORD_COMMIT (R494). -/
def execSnapshotRecordCommit (j : Fin 8) (s : State) : Host.Outcome State Fault Refusal :=
  .next (s.clocked (s.recordCommit j.val))

/-- PARTNER_COPY (R499). -/
def execPartnerCopy (j : Fin 8) (event : PartnerEvent) (s : State) : Host.Outcome State Fault Refusal :=
  .next (s.clocked (s.partnerCopy j.val event))

/-- REPLAY_COMPARE (R502). -/
def execReplayCompare (j : Fin 8) (s : State) : Host.Outcome State Fault Refusal :=
  .next (s.clocked (s.replayCompare j.val))

end Sys2Proof.Machine
end

