-- ==== Sys2Proof/Machine/TableOps.lean ====
section
/-!
DEFINITION. The commands that write the module's tables, clear counts, and move clocks, arbiters and slot tables: one meaning each.
-/

namespace Sys2Proof.Machine

/-- HANDLE_WRITE (R128). -/
def execHandleWrite (r : RegionId) (h : Fin 1024) (valid kind acc persist : Bool) (cluster tenant : BitVec 8) (offset
      extent : BitVec 27) (s : State) : Host.Outcome State Fault Refusal :=
  .next (s.clocked (s.handleWrite r.val h.val ⟨b2n valid, b2n kind, b2n acc, b2n persist, cluster.toNat, tenant.toNat,
      offset.toNat, extent.toNat⟩))

/-- STREAM_TABLE_WRITE (R59). -/
def execStreamTableWrite (n : Fin 4096) (key : BitVec 64) (ctr : BitVec 128) (owner : BitVec 8) (en : Bool) (s : State)
      : Host.Outcome State Fault Refusal :=
  .next (s.clocked (s.streamWrite n.val key.toNat ctr.toNat owner.toNat (b2n en)))

/-- SV_FAULT_EN_WRITE (R199). -/
def execSvFaultEnWrite (k : ClusterId) (idx tile : Bool) (s : State) : Host.Outcome State Fault Refusal :=
  .next (s.clocked (s.svFaultEn k.val (b2n idx) (b2n tile)))

/-- SH_FAULT_EN_WRITE (R240). -/
def execShFaultEnWrite (k : ClusterId) (tile comp cap : Bool) (s : State) : Host.Outcome State Fault Refusal :=
  .next (s.clocked (s.shFaultEn k.val (b2n tile) (b2n comp) (b2n cap)))

/-- STD_POOL_WRITE (R262). -/
def execStdPoolWrite (d : DieId) (pool : Fin 3) (lim : Bool) (addr : BitVec 48) (s : State) : Host.Outcome State Fault
      Refusal :=
  .next (s.clocked (s.poolWrite d.val pool.val lim addr.toNat))

/-- STD_OPEN (R265). -/
def execStdOpen (d : DieId) (e : Fin 1024) (stack : Fin 4) (maps : Bool) (lfmt : BitVec 4) (tenant : BitVec 8) (rows
      cols : BitVec 32) (s : State) : Host.Outcome State Fault Refusal :=
  .next (s.clocked (s.stdOpen d.val e.val stack.val (b2n maps) lfmt.toNat tenant.toNat rows.toNat cols.toNat))

/-- STD_CLOSE (R265). -/
def execStdClose (d : DieId) (e : Fin 1024) (s : State) : Host.Outcome State Fault Refusal :=
  .next (s.clocked (s.stdClose d.val e.val))

/-- STD_MARK (R265). -/
def execStdMark (d : DieId) (e : Fin 1024) (s : State) : Host.Outcome State Fault Refusal :=
  .next (s.clocked (s.stdMark d.val e.val))

/-- STD_FREE (R265). -/
def execStdFree (d : DieId) (e : Fin 1024) (s : State) : Host.Outcome State Fault Refusal :=
  .next (s.clocked (s.stdFree d.val e.val))

/-- SP_CNT_CLR (R133). -/
def execSpCntClr (k : ClusterId) (s : State) : Host.Outcome State Fault Refusal :=
  .next (s.clocked (s.spClear k.val))

/-- MU_CNT_CLR (R163). -/
def execMuCntClr (k : ClusterId) (s : State) : Host.Outcome State Fault Refusal :=
  .next (s.clocked (s.muClear k.val))

/-- SV_CNT_CLR (R213). -/
def execSvCntClr (k : ClusterId) (s : State) : Host.Outcome State Fault Refusal :=
  .next (s.clocked (s.svClear k.val))

/-- SH_CNT_CLR (R240). -/
def execShCntClr (k : ClusterId) (s : State) : Host.Outcome State Fault Refusal :=
  .next (s.clocked (s.shClear k.val))

/-- STD_CNT_CLR (R273). -/
def execStdCntClr (d : DieId) (s : State) : Host.Outcome State Fault Refusal :=
  .next (s.clocked (s.stdClear d.val))

/-- SQ_CNT_CLR (R311). -/
def execSqCntClr (r : RegionId) (s : State) : Host.Outcome State Fault Refusal :=
  .next (s.clocked (s.sqClear r.val))

/-- DMA_CNT_CLR (R586). -/
def execDmaCntClr (d : DieId) (s : State) : Host.Outcome State Fault Refusal :=
  .next (s.clocked (s.dmaClear d.val))

/-- HBM_CNT_CLR (R348). -/
def execHbmCntClr (k : StackId) (s : State) : Host.Outcome State Fault Refusal :=
  .next (s.clocked (s.hbmClear k.val))

/-- HC_CNT_CLR (R348). -/
def execHcCntClr (d : DieId) (s : State) : Host.Outcome State Fault Refusal :=
  .next (s.clocked (s.hcClear d.val))

/-- CLK_CNT_CLR (R370). -/
def execClkCntClr (s : State) : Host.Outcome State Fault Refusal :=
  .next (s.clocked (s.clkClear))

/-- ARB_CNT_CLR (R370). -/
def execArbCntClr (blk : Fin 5) (s : State) : Host.Outcome State Fault Refusal :=
  .next (s.clocked (if blk.val < 4 then s.arbDieClear blk.val else s.arbPortClear))

/-- OZL_CNT_CLR (R386). -/
def execOzlCntClr (p : PortId) (s : State) : Host.Outcome State Fault Refusal :=
  .next (s.clocked (s.ozlClear p.val))

/-- COL_CNT_CLR (R420). -/
def execColCntClr (s : State) : Host.Outcome State Fault Refusal :=
  .next (s.clocked (s.colCntClear))

/-- HTP_CNT_CLR (R439). -/
def execHtpCntClr (s : State) : Host.Outcome State Fault Refusal :=
  .next (s.clocked (s.htpClear))

/-- SNP_CNT_CLR (R504). -/
def execSnpCntClr (s : State) : Host.Outcome State Fault Refusal :=
  .next (s.clocked (s.snpClear))

/-- PWR_CNT_CLR (R523). -/
def execPwrCntClr (s : State) : Host.Outcome State Fault Refusal :=
  .next (s.clocked (s.pwrClear))

/-- HLT_CNT_CLR (R578). -/
def execHltCntClr (s : State) : Host.Outcome State Fault Refusal :=
  .next (s.clocked (s.hltClear))

/-- ISLAND_CLOCK_CHANGE (R350). -/
def execIslandClockChange (isl : RegionId) (s : State) : Host.Outcome State Fault Refusal :=
  .next (s.clocked (s.clockChange isl.val))

/-- CROSSING_STUCK (R357). -/
def execCrossingStuck (src dst : BitVec 6) (s : State) : Host.Outcome State Fault Refusal :=
  .next (s.clocked (s.crossingStuck src.toNat dst.toNat))

/-- ARBITRATION_CYCLE (R362). -/
def execArbitrationCycle (d : DieId) (res : Fin 228) (cycles : BitVec 32) (arrivals : List Transfer)
      (s : State) : Host.Outcome State Fault Refusal :=
  .next (s.clocked (s.arbitrate d.val res.val cycles.toNat (arrivals.map fun q =>
    (match q.die with | some e => e.val | none => 4, q.req.val, q.addr.toNat, q.prio.val, q.burst.val))))

/-- SLOT_TABLE_SWAP (R367). -/
def execSlotTableSwap (q : Fin 7) (s : State) : Host.Outcome State Fault Refusal :=
  .next (s.clocked (s.slotSwap q.val))

/-- ARB_SLOT_ARM (R367). -/
def execArbSlotArm (q : Fin 7) (s : State) : Host.Outcome State Fault Refusal :=
  .next (s.clocked (s.wr (Reg.ARB_SLOT_CTL_ARM q.val) 1))

end Sys2Proof.Machine
end

