-- ==== Sys2Proof/Machine/Tap.lean ====
section
/-!
DEFINITION. The test access port (R569 to R573): its instruction register, the boundary register, the identification register, and the
private instructions DBG_MEM and DBG_SCAN.
-/

namespace Sys2Proof.Machine

namespace In
/-- What the last Capture-DR loaded into the selected data register, up to 544 bits. -/
def tapOut : Fld := fld 46 0 544 0
end In

namespace State

/-- Bit `i` of `n` replaced by `b` from a state's own level. -/
def withBit (n i : Nat) (b : Bool) : Nat := putBits n i 1 (b2n b)

/-- The data and enable cells of an open-drain output from cell `i` up, driven low or released (R572). -/
def odCells (n i : Nat) (low : Bool) : Nat := withBit (withBit n i (!low)) (i + 1) low

/-- Whether VSER and VSERH are in regulation (R571): in ACTIVE, and not while the module is down. -/
def serdesOn (s : State) : Bool := decide (s.rd In.hold / 4 % 4 = 0) && decide (s.rd Reg.PWR_STAT_STATE < 2)

/-- What the boundary register captures (Table 22.4): the levels of `pins`, with those that the state gives in their cells, and 0
in lane and reference-clock cells without their rails (R571). -/
def bsCapture (s : State) (pins : Nat) : Nat :=
  let n0 := if s.serdesOn then pins % 2 ^ 242 else pins % 2 ^ 25
  let n1 := odCells (odCells (odCells n0 6 s.alertLow) 9 (s.rd In.pwrGood == 0)) 11 (s.on (In.alert 7))
  let n2 := putBits (withBit n1 8 (!(s.rd In.hold).testBit 0)) 13 11
    (s.rd Reg.MOD_STRAP_SLOT_ID + s.rd Reg.MOD_STRAP_MGR_EN * 2 ^ 6 + s.rd Reg.MOD_STRAP_FEED_ID * 2 ^ 7)
  withBit n2 24 (!s.on Reg.HLT_FEED_PRES)

/-- The hold of R570 ends: the module boots under R452 unless MOD_RESET_N is low. -/
def tapRelease (s : State) : State :=
  if (s.rd In.hold).testBit 1 then
    let s1 := s.wrs [(In.hold, s.rd In.hold - 2), (Reg.MOD_RESET_CAUSE_PIN, 1)]
    s1.wr In.causeBoot s1.causeWord
  else s

/-- The TAP instruction `ir` loaded and its data register captured as `out`. The TAP runs in every state except off (R569). -/
def tapLoad (s : State) (ir out : Nat) : State := s.wrs [(In.tapIr, ir), (In.tapOut, out)]

/-- An instruction that leaves the module its pins: it ends the hold of R570. -/
def tapPlain (s : State) (ir out : Nat) : State := if s.standby then (s.tapRelease).tapLoad ir out else s

/-- An instruction that holds the module in cold reset (R570). -/
def tapHold (s : State) (ir : Nat) (out : State → Nat) : State :=
  if s.standby then
    let s1 := s.coldReset
    (s1.tapLoad ir (out s1)).wr In.hold (s1.rd In.hold ||| 2)
  else s

/-- EXTEST, EXTEST_PULSE and EXTEST_TRAIN: the boundary register captures, and its update stage drives the pins. -/
def tapExtest (s : State) (ir pins cells : Nat) : State :=
  if s.standby then (s.tapHold ir fun t => t.bsCapture pins).wr In.tapCells cells else s

/-- SAMPLE/PRELOAD: the functional pins captured, the update stage loaded. -/
def tapSample (s : State) (pins cells : Nat) : State :=
  if s.standby then
    let s1 := s.tapRelease
    (s1.tapLoad 1 (s1.bsCapture pins)).wr In.tapCells cells
  else s

/-- The identification register (R569). -/
def idcode (s : State) : Nat := s.rd Reg.MOD_ID_STEP * 2 ^ 28 + 0x9A71 * 2 ^ 12 + 0x179 * 2 + 1

/-- TAP_RESET: the TAP is reset and IDCODE selected. -/
def tapReset (s : State) : State := s.tapPlain 2 s.idcode

/-- A write of DBG_MEM marks launches (R576): that of the region whose banks it reached, or every one of the owner of the stack. -/
def dbgMark (s : State) (a : Nat) : State :=
  match Machine.place a with
  | .sp c _ => s.touchRegion (c / 8)
  | .hbm k _ => s.touchDebug fun l => l.tenant == s.rd (Reg.TEN_STACK_OWNER k)
  | _ => s

/-- DBG_MEM (R573): with debug unlocked, one privileged 8-byte access; otherwise BYPASS. DONE tells that the access was made. -/
def dbgMem (s : State) (write : Bool) (a v : Nat) : State :=
  if !s.standby then s
  else
    let s1 := s.tapRelease
    if !(s1.unlocked && s1.awake) || a % 8 ≠ 0 then s1.tapLoad 0x80 0
    else if write then
      let x := s1.busStore 255 a 8 v
      if x.2 = 0 then ((x.1.dbgMark a).tapLoad 0x80 (v % 2 ^ 64 + 2 ^ 113)) else x.1.tapLoad 0x80 (v % 2 ^ 64)
    else
      let x := s1.busLoad a 8
      if x.2.1 = 0 then x.1.tapLoad 0x80 (x.2.2 % 2 ^ 64 + 2 ^ 113) else x.1.tapLoad 0x80 0

/-- DBG_SCAN (R573): with debug unlocked, the state of the region that DBG_CTL names, written back from `din` while it is halted;
otherwise BYPASS. -/
def dbgScan (s : State) (din : Nat) : State :=
  if !s.standby then s
  else
    let s1 := s.tapRelease
    if !(s1.unlocked && s1.awake) then s1.tapLoad 0x81 0
    else
      let r := s1.rd Reg.DBG_CTL_SCAN_REGION
      (s1.scanPut r din).tapLoad 0x81 (s1.scanWord r)

end State
end Sys2Proof.Machine
end

