-- ==== Sys2Proof/Machine/TapOps.lean ====
section
/-!
DEFINITION. The instructions of the test access port: one meaning each.
-/

namespace Sys2Proof.Machine

/-- TAP_RESET (R569). -/
def execTapReset (s : State) : Host.Outcome State Fault Refusal :=
  .next (s.tapReset)

/-- EXTEST (R570). -/
def execExtest (pins cells : BitVec 242) (s : State) : Host.Outcome State Fault Refusal :=
  .next (s.tapExtest 0 pins.toNat cells.toNat)

/-- SAMPLE_PRELOAD (R569). -/
def execSamplePreload (pins cells : BitVec 242) (s : State) : Host.Outcome State Fault Refusal :=
  .next (s.tapSample pins.toNat cells.toNat)

/-- IDCODE (R569). -/
def execIdcode (s : State) : Host.Outcome State Fault Refusal :=
  .next (s.tapPlain 2 s.idcode)

/-- CLAMP (R570). -/
def execClamp (s : State) : Host.Outcome State Fault Refusal :=
  .next (s.tapHold 3 (fun _ => 0))

/-- HIGHZ (R570). -/
def execHighz (s : State) : Host.Outcome State Fault Refusal :=
  .next (s.tapHold 4 (fun _ => 0))

/-- EXTEST_PULSE (R571). -/
def execExtestPulse (pins cells : BitVec 242) (s : State) : Host.Outcome State Fault Refusal :=
  .next (s.tapExtest 5 pins.toNat cells.toNat)

/-- EXTEST_TRAIN (R571). -/
def execExtestTrain (pins cells : BitVec 242) (s : State) : Host.Outcome State Fault Refusal :=
  .next (s.tapExtest 6 pins.toNat cells.toNat)

/-- DBG_MEM (R573). -/
def execDbgMem (write : Bool) (addr : BitVec 48) (data : BitVec 64) (s : State) : Host.Outcome State Fault Refusal :=
  .next (s.dbgMem write addr.toNat data.toNat)

/-- DBG_SCAN (R573). -/
def execDbgScan (din : BitVec 544) (s : State) : Host.Outcome State Fault Refusal :=
  .next (s.dbgScan din.toNat)

/-- BYPASS (R569). -/
def execBypass (s : State) : Host.Outcome State Fault Refusal :=
  .next (s.tapPlain 0xFF 0)

end Sys2Proof.Machine
end

