-- ==== Sys2Proof/Machine/TestOps.lean ====
section
/-!
DEFINITION. The commands of region self-test and of the risk score: one meaning each.
-/

namespace Sys2Proof.Machine

/-- REGION_SELF_TEST (R564). -/
def execRegionSelfTest (r : RegionId) (s : State) : Host.Outcome State Fault Refusal :=
  .next (s.clocked (s.testWork r.val))

/-- STEST_LOGIC (R565). -/
def execStestLogic (r : RegionId) (s : State) : Host.Outcome State Fault Refusal :=
  .next (s.clocked (s.testRequest r.val false))

/-- STEST_FULL (R565). -/
def execStestFull (r : RegionId) (s : State) : Host.Outcome State Fault Refusal :=
  .next (s.clocked (s.testRequest r.val true))

/-- STEST_ABORT (R566). -/
def execStestAbort (r : RegionId) (s : State) : Host.Outcome State Fault Refusal :=
  .next (s.clocked (s.testAbort r.val))

/-- STEST_DEFERRED_START (R565). -/
def execStestDeferredStart (r : RegionId) (s : State) : Host.Outcome State Fault Refusal :=
  .next (s.clocked (s.testDeferred r.val))

/-- SELF_TEST_DONE (R566). -/
def execSelfTestDone (r : RegionId) (unit : Fin 7) (cl : Fin 8) (rows : List (Fin 8 × Fin 64 × Fin 8192)) (periods :
      BitVec 48) (s : State) : Host.Outcome State Fault Refusal :=
  .next (s.clocked (s.testDone r.val unit.val cl.val (rows.map fun q => (q.1.val, q.2.1.val, q.2.2.val)) periods.toNat))

/-- RISK_SCORE_TICK (R560). -/
def execRiskScoreTick (s : State) : Host.Outcome State Fault Refusal :=
  .next (s.riskTick)

end Sys2Proof.Machine
end

