-- ==== Sys2Proof/Machine/Dispatch.lean ====
section
/-! DEFINITION. One arm per command: each calls that command's meaning. -/

namespace Sys2Proof.Machine

def exec (i : Instr) (s : State) : Host.Outcome State Fault Refusal :=
  match i with
  | .lda r mu sa tr qen q rcd ixe ixr ixc => Sys2Proof.Machine.execLda r mu sa tr qen q rcd ixe ixr ixc s
  | .ldb r mu sb tr qen q rcd ixe ixr ixc => Sys2Proof.Machine.execLdb r mu sb tr qen q rcd ixe ixr ixc s
  | .mma r mu tile sa sb acc => Sys2Proof.Machine.execMma r mu tile sa sb acc s
  | .smma r mu tile sa half acc rcd => Sys2Proof.Machine.execSmma r mu tile sa half acc rcd s
  | .sgw r mu sa sb acc zmh rcd => Sys2Proof.Machine.execSgw r mu sa sb acc zmh rcd s
  | .rake r mu tile tile2 => Sys2Proof.Machine.execRake r mu tile tile2 s
  | .drain r mu tile rcd den drec ixe ixr ixc => Sys2Proof.Machine.execDrain r mu tile rcd den drec ixe ixr ixc s
  | .accZero r mu tile => Sys2Proof.Machine.execAccZero r mu tile s
  | .svLoad r mu half u rcd ixe ixr ixc => Sys2Proof.Machine.execSvLoad r mu half u rcd ixe ixr ixc s
  | .svZmap r mu u reg kind rcd ixe ixr ixc => Sys2Proof.Machine.execSvZmap r mu u reg kind rcd ixe ixr ixc s
  | .svTranspose r rcd rcd2 ixe ixr ixc => Sys2Proof.Machine.execSvTranspose r rcd rcd2 ixe ixr ixc s
  | .pruneThresh r rcd => Sys2Proof.Machine.execPruneThresh r rcd s
  | .pruneTopk r rcd => Sys2Proof.Machine.execPruneTopk r rcd s
  | .growGrad r rcd => Sys2Proof.Machine.execGrowGrad r rcd s
  | .growRand r rcd => Sys2Proof.Machine.execGrowRand r rcd s
  | .remaskGrad r rcd => Sys2Proof.Machine.execRemaskGrad r rcd s
  | .remaskRand r rcd => Sys2Proof.Machine.execRemaskRand r rcd s
  | .recode r rcd => Sys2Proof.Machine.execRecode r rcd s
  | .vld r vd w rcd ixe ixr ixc => Sys2Proof.Machine.execVld r vd w rcd ixe ixr ixc s
  | .vst r va w rcd ixe ixr ixc => Sys2Proof.Machine.execVst r va w rcd ixe ixr ixc s
  | .vlds r vd ref rcd ixe ixr ixc => Sys2Proof.Machine.execVlds r vd ref rcd ixe ixr ixc s
  | .vsts r va ref last rcd ixe ixr ixc => Sys2Proof.Machine.execVsts r va ref last rcd ixe ixr ixc s
  | .vadd r vd va vb w => Sys2Proof.Machine.execVadd r vd va vb w s
  | .vsub r vd va vb w => Sys2Proof.Machine.execVsub r vd va vb w s
  | .vmul r vd va vb w => Sys2Proof.Machine.execVmul r vd va vb w s
  | .vfma r vd va vb vc w => Sys2Proof.Machine.execVfma r vd va vb vc w s
  | .vmax r vd va vb w => Sys2Proof.Machine.execVmax r vd va vb w s
  | .vmin r vd va vb w => Sys2Proof.Machine.execVmin r vd va vb w s
  | .vabs r vd va => Sys2Proof.Machine.execVabs r vd va s
  | .vneg r vd va => Sys2Proof.Machine.execVneg r vd va s
  | .vsel r vd va vb vc => Sys2Proof.Machine.execVsel r vd va vb vc s
  | .vcmplt r vd va vb => Sys2Proof.Machine.execVcmplt r vd va vb s
  | .vmovi r vd imm => Sys2Proof.Machine.execVmovi r vd imm s
  | .vtr r vd va fn => Sys2Proof.Machine.execVtr r vd va fn s
  | .vrsum r vd va vc => Sys2Proof.Machine.execVrsum r vd va vc s
  | .vrmax r vd va vc => Sys2Proof.Machine.execVrmax r vd va vc s
  | .viadd r vd va vb => Sys2Proof.Machine.execViadd r vd va vb s
  | .visub r vd va vb => Sys2Proof.Machine.execVisub r vd va vb s
  | .vimul r vd va vb => Sys2Proof.Machine.execVimul r vd va vb s
  | .vimulhu r vd va vb => Sys2Proof.Machine.execVimulhu r vd va vb s
  | .vicarry r vd va vb => Sys2Proof.Machine.execVicarry r vd va vb s
  | .vishl r vd va vb => Sys2Proof.Machine.execVishl r vd va vb s
  | .vishr r vd va vb => Sys2Proof.Machine.execVishr r vd va vb s
  | .viand r vd va vb => Sys2Proof.Machine.execViand r vd va vb s
  | .vior r vd va vb => Sys2Proof.Machine.execVior r vd va vb s
  | .vixor r vd va vb => Sys2Proof.Machine.execVixor r vd va vb s
  | .viclz r vd va => Sys2Proof.Machine.execViclz r vd va s
  | .dmaGo r rcd ixe ixr ixc => Sys2Proof.Machine.execDmaGo r rcd ixe ixr ixc s
  | .dmaTransferDone d ch => Sys2Proof.Machine.execDmaTransferDone d ch s
  | .move r rcd ixe ixr ixc => Sys2Proof.Machine.execMove r rcd ixe ixr ixc s
  | .halt r => Sys2Proof.Machine.execHalt r s
  | .jmp r imm => Sys2Proof.Machine.execJmp r imm s
  | .bnz r ixa imm => Sys2Proof.Machine.execBnz r ixa imm s
  | .bz r ixa imm => Sys2Proof.Machine.execBz r ixa imm s
  | .ixset r ixd imm => Sys2Proof.Machine.execIxset r ixd imm s
  | .ixadd r ixd ixa imm => Sys2Proof.Machine.execIxadd r ixd ixa imm s
  | .ixldp r ixd imm => Sys2Proof.Machine.execIxldp r ixd imm s
  | .decbnz r ixd imm => Sys2Proof.Machine.execDecbnz r ixd imm s
  | .evinc r ctr dst scope imm => Sys2Proof.Machine.execEvinc r ctr dst scope imm s
  | .evset r ctr dst imm => Sys2Proof.Machine.execEvset r ctr dst imm s
  | .evwait r ctr dst imm => Sys2Proof.Machine.execEvwait r ctr dst imm s
  | .fence r scope => Sys2Proof.Machine.execFence r scope s
  | .holdEnd r periods => Sys2Proof.Machine.execHoldEnd r periods s
  | .sqWaitTimeout r => Sys2Proof.Machine.execSqWaitTimeout r s
  | .eventArrival src => Sys2Proof.Machine.execEventArrival src s
  | .remoteAccess n wait => Sys2Proof.Machine.execRemoteAccess n wait s
  | .remoteForcedService n => Sys2Proof.Machine.execRemoteForcedService n s
  | .stashRowWriteDone d region => Sys2Proof.Machine.execStashRowWriteDone d region s
  | .launchSubmit core hi => Sys2Proof.Machine.execLaunchSubmit core hi s
  | .regionStart r => Sys2Proof.Machine.execRegionStart r s
  | .regionComplete r => Sys2Proof.Machine.execRegionComplete r s
  | .launchCommit launchId tenant => Sys2Proof.Machine.execLaunchCommit launchId tenant s
  | .regionFault r cluster kind => Sys2Proof.Machine.execRegionFault r cluster kind s
  | .sqAbort r => Sys2Proof.Machine.execSqAbort r s
  | .completionRingEntry => Sys2Proof.Machine.execCompletionRingEntry s
  | .add core d s1 s2 => Sys2Proof.Machine.execAdd core d s1 s2 s
  | .sub core d s1 s2 => Sys2Proof.Machine.execSub core d s1 s2 s
  | .andOp core d s1 s2 => Sys2Proof.Machine.execAndOp core d s1 s2 s
  | .orOp core d s1 s2 => Sys2Proof.Machine.execOrOp core d s1 s2 s
  | .xorOp core d s1 s2 => Sys2Proof.Machine.execXorOp core d s1 s2 s
  | .sll core d s1 s2 => Sys2Proof.Machine.execSll core d s1 s2 s
  | .srl core d s1 s2 => Sys2Proof.Machine.execSrl core d s1 s2 s
  | .sra core d s1 s2 => Sys2Proof.Machine.execSra core d s1 s2 s
  | .slt core d s1 s2 => Sys2Proof.Machine.execSlt core d s1 s2 s
  | .sltu core d s1 s2 => Sys2Proof.Machine.execSltu core d s1 s2 s
  | .mul core d s1 s2 => Sys2Proof.Machine.execMul core d s1 s2 s
  | .mulhu core d s1 s2 => Sys2Proof.Machine.execMulhu core d s1 s2 s
  | .divu core d s1 s2 => Sys2Proof.Machine.execDivu core d s1 s2 s
  | .remu core d s1 s2 => Sys2Proof.Machine.execRemu core d s1 s2 s
  | .addi core d s1 imm => Sys2Proof.Machine.execAddi core d s1 imm s
  | .andi core d s1 imm => Sys2Proof.Machine.execAndi core d s1 imm s
  | .ori core d s1 imm => Sys2Proof.Machine.execOri core d s1 imm s
  | .xori core d s1 imm => Sys2Proof.Machine.execXori core d s1 imm s
  | .slti core d s1 imm => Sys2Proof.Machine.execSlti core d s1 imm s
  | .shifti core d s1 imm => Sys2Proof.Machine.execShifti core d s1 imm s
  | .lui core d imm => Sys2Proof.Machine.execLui core d imm s
  | .lb core d s1 imm => Sys2Proof.Machine.execLb core d s1 imm s
  | .lh core d s1 imm => Sys2Proof.Machine.execLh core d s1 imm s
  | .lw core d s1 imm => Sys2Proof.Machine.execLw core d s1 imm s
  | .ld core d s1 imm => Sys2Proof.Machine.execLd core d s1 imm s
  | .lbu core d s1 imm => Sys2Proof.Machine.execLbu core d s1 imm s
  | .lhu core d s1 imm => Sys2Proof.Machine.execLhu core d s1 imm s
  | .lwu core d s1 imm => Sys2Proof.Machine.execLwu core d s1 imm s
  | .sb core s2 s1 imm => Sys2Proof.Machine.execSb core s2 s1 imm s
  | .sh core s2 s1 imm => Sys2Proof.Machine.execSh core s2 s1 imm s
  | .sw core s2 s1 imm => Sys2Proof.Machine.execSw core s2 s1 imm s
  | .sd core s2 s1 imm => Sys2Proof.Machine.execSd core s2 s1 imm s
  | .beq core a b imm => Sys2Proof.Machine.execBeq core a b imm s
  | .bne core a b imm => Sys2Proof.Machine.execBne core a b imm s
  | .blt core a b imm => Sys2Proof.Machine.execBlt core a b imm s
  | .bge core a b imm => Sys2Proof.Machine.execBge core a b imm s
  | .bltu core a b imm => Sys2Proof.Machine.execBltu core a b imm s
  | .bgeu core a b imm => Sys2Proof.Machine.execBgeu core a b imm s
  | .jal core d imm => Sys2Proof.Machine.execJal core d imm s
  | .jalr core d s1 imm => Sys2Proof.Machine.execJalr core d s1 imm s
  | .syscall core unused => Sys2Proof.Machine.execSyscall core unused s
  | .pret core unused => Sys2Proof.Machine.execPret core unused s
  | .wait core unused now => Sys2Proof.Machine.execWait core unused now s
  | .waitWake core now => Sys2Proof.Machine.execWaitWake core now s
  | .ccFence core scope d s1 mid top => Sys2Proof.Machine.execCcFence core scope d s1 mid top s
  | .csrr core d csr s1 mid now => Sys2Proof.Machine.execCsrr core d csr s1 mid now s
  | .csrw core csr s1 d mid => Sys2Proof.Machine.execCsrw core csr s1 d mid s
  | .brk core unused => Sys2Proof.Machine.execBrk core unused s
  | .fadd32 core => Sys2Proof.Machine.execFadd32 core s
  | .fadd16 core => Sys2Proof.Machine.execFadd16 core s
  | .iadd32 core => Sys2Proof.Machine.execIadd32 core s
  | .iadd64 core => Sys2Proof.Machine.execIadd64 core s
  | .umin32 core => Sys2Proof.Machine.execUmin32 core s
  | .umax32 core => Sys2Proof.Machine.execUmax32 core s
  | .smin32 core => Sys2Proof.Machine.execSmin32 core s
  | .smax32 core => Sys2Proof.Machine.execSmax32 core s
  | .fmin32 core => Sys2Proof.Machine.execFmin32 core s
  | .fmax32 core => Sys2Proof.Machine.execFmax32 core s
  | .cas32 core => Sys2Proof.Machine.execCas32 core s
  | .cas64 core => Sys2Proof.Machine.execCas64 core s
  | .hcFlush d stackSet => Sys2Proof.Machine.execHcFlush d stackSet s
  | .hcWpProtect d stack first count => Sys2Proof.Machine.execHcWpProtect d stack first count s
  | .hcWpRelease d stack first count => Sys2Proof.Machine.execHcWpRelease d stack first count s
  | .protectedPageWrite addr bytes => Sys2Proof.Machine.execProtectedPageWrite addr bytes s
  | .firstTouchCopyDone k ns => Sys2Proof.Machine.execFirstTouchCopyDone k ns s
  | .hbmZero k => Sys2Proof.Machine.execHbmZero k s
  | .hbmZeroDone k => Sys2Proof.Machine.execHbmZeroDone k s
  | .hbmRefresh k => Sys2Proof.Machine.execHbmRefresh k s
  | .channelCalibration k retrain => Sys2Proof.Machine.execChannelCalibration k retrain s
  | .stackTraining k passes => Sys2Proof.Machine.execStackTraining k passes s
  | .stackLost k => Sys2Proof.Machine.execStackLost k s
  | .spZero r => Sys2Proof.Machine.execSpZero r s
  | .zeroisationDone r => Sys2Proof.Machine.execZeroisationDone r s
  | .spMapout k row bank => Sys2Proof.Machine.execSpMapout k row bank s
  | .mapoutExecute k => Sys2Proof.Machine.execMapoutExecute k s
  | .spRemapWrite k bank e lrow valid => Sys2Proof.Machine.execSpRemapWrite k bank e lrow valid s
  | .handleWrite r h valid kind acc persist cluster tenant offset extent => Sys2Proof.Machine.execHandleWrite r h valid kind acc persist cluster tenant offset extent s
  | .streamTableWrite n key ctr owner en => Sys2Proof.Machine.execStreamTableWrite n key ctr owner en s
  | .svFaultEnWrite k idx tile => Sys2Proof.Machine.execSvFaultEnWrite k idx tile s
  | .shFaultEnWrite k tile comp cap => Sys2Proof.Machine.execShFaultEnWrite k tile comp cap s
  | .stdPoolWrite d pool lim addr => Sys2Proof.Machine.execStdPoolWrite d pool lim addr s
  | .stdOpen d e stack maps lfmt tenant rows cols => Sys2Proof.Machine.execStdOpen d e stack maps lfmt tenant rows cols s
  | .stdClose d e => Sys2Proof.Machine.execStdClose d e s
  | .stdMark d e => Sys2Proof.Machine.execStdMark d e s
  | .stdFree d e => Sys2Proof.Machine.execStdFree d e s
  | .spCntClr k => Sys2Proof.Machine.execSpCntClr k s
  | .muCntClr k => Sys2Proof.Machine.execMuCntClr k s
  | .svCntClr k => Sys2Proof.Machine.execSvCntClr k s
  | .shCntClr k => Sys2Proof.Machine.execShCntClr k s
  | .stdCntClr d => Sys2Proof.Machine.execStdCntClr d s
  | .sqCntClr r => Sys2Proof.Machine.execSqCntClr r s
  | .dmaCntClr d => Sys2Proof.Machine.execDmaCntClr d s
  | .hbmCntClr k => Sys2Proof.Machine.execHbmCntClr k s
  | .hcCntClr d => Sys2Proof.Machine.execHcCntClr d s
  | .clkCntClr => Sys2Proof.Machine.execClkCntClr s
  | .arbCntClr blk => Sys2Proof.Machine.execArbCntClr blk s
  | .ozlCntClr p => Sys2Proof.Machine.execOzlCntClr p s
  | .colCntClr => Sys2Proof.Machine.execColCntClr s
  | .htpCntClr => Sys2Proof.Machine.execHtpCntClr s
  | .snpCntClr => Sys2Proof.Machine.execSnpCntClr s
  | .pwrCntClr => Sys2Proof.Machine.execPwrCntClr s
  | .hltCntClr => Sys2Proof.Machine.execHltCntClr s
  | .registerWrite addr lanes value => Sys2Proof.Machine.execRegisterWrite addr lanes value s
  | .islandClockChange isl => Sys2Proof.Machine.execIslandClockChange isl s
  | .crossingStuck src dst => Sys2Proof.Machine.execCrossingStuck src dst s
  | .arbitrationCycle d res cycles arrivals => Sys2Proof.Machine.execArbitrationCycle d res cycles arrivals s
  | .slotTableSwap q => Sys2Proof.Machine.execSlotTableSwap q s
  | .arbSlotArm q => Sys2Proof.Machine.execArbSlotArm q s
  | .portSlot q flits => Sys2Proof.Machine.execPortSlot q flits s
  | .ozlEnable p => Sys2Proof.Machine.execOzlEnable p s
  | .ozlRetrain p => Sys2Proof.Machine.execOzlRetrain p s
  | .fullTrainingDone p rxBad txBad inv perm serial peerPort => Sys2Proof.Machine.execFullTrainingDone p rxBad txBad inv perm serial peerPort s
  | .ozlAccept p => Sys2Proof.Machine.execOzlAccept p s
  | .wakeTx p => Sys2Proof.Machine.execWakeTx p s
  | .wakeTxRepeat p peer => Sys2Proof.Machine.execWakeTxRepeat p peer s
  | .laneLossOfLock p lane => Sys2Proof.Machine.execLaneLossOfLock p lane s
  | .symbolErrorWindow p errs => Sys2Proof.Machine.execSymbolErrorWindow p errs s
  | .retrainDone p txBad => Sys2Proof.Machine.execRetrainDone p txBad s
  | .portDown p => Sys2Proof.Machine.execPortDown p s
  | .flitReceive p hdr payload crc errs => Sys2Proof.Machine.execFlitReceive p hdr payload crc errs s
  | .nakReceive p ack => Sys2Proof.Machine.execNakReceive p ack s
  | .wakePatternDetect p => Sys2Proof.Machine.execWakePatternDetect p s
  | .linkActivityDetect p => Sys2Proof.Machine.execLinkActivityDetect p s
  | .chainReduce submit group opid parts results tags => Sys2Proof.Machine.execChainReduce submit group opid parts results tags s
  | .reduceScatter submit group opid parts results tags => Sys2Proof.Machine.execReduceScatter submit group opid parts results tags s
  | .allGather submit group opid shards tags => Sys2Proof.Machine.execAllGather submit group opid shards tags s
  | .dispatch submit group opid counts plans rows => Sys2Proof.Machine.execDispatch submit group opid counts plans rows s
  | .combine submit group opid rows => Sys2Proof.Machine.execCombine submit group opid rows s
  | .permute submit group opid pieces => Sys2Proof.Machine.execPermute submit group opid pieces s
  | .gnorm submit group opid part result => Sys2Proof.Machine.execGnorm submit group opid part result s
  | .send submit group opid => Sys2Proof.Machine.execSend submit group opid s
  | .recv submit group opid elems => Sys2Proof.Machine.execRecv submit group opid elems s
  | .readyFlit group opid rank op gen bytes elems slot => Sys2Proof.Machine.execReadyFlit group opid rank op gen bytes elems slot s
  | .readyRepeat group opid rank => Sys2Proof.Machine.execReadyRepeat group opid rank s
  | .colOpComplete group opid => Sys2Proof.Machine.execColOpComplete group opid s
  | .colTimeout group opid => Sys2Proof.Machine.execColTimeout group opid s
  | .colLinkFault p group opid => Sys2Proof.Machine.execColLinkFault p group opid s
  | .managerAbort group opid => Sys2Proof.Machine.execManagerAbort group opid s
  | .routeSwap => Sys2Proof.Machine.execRouteSwap s
  | .groupWrite group member valid tenant sizeM1 rank gen => Sys2Proof.Machine.execGroupWrite group member valid tenant sizeM1 rank gen s
  | .heartbeatSend => Sys2Proof.Machine.execHeartbeatSend s
  | .heartbeatReceive epoch => Sys2Proof.Machine.execHeartbeatReceive epoch s
  | .heartbeatTimeout => Sys2Proof.Machine.execHeartbeatTimeout s
  | .heldOpStart group opid => Sys2Proof.Machine.execHeldOpStart group opid s
  | .xoridSwitch tenant => Sys2Proof.Machine.execXoridSwitch tenant s
  | .xoridGo tenant generation => Sys2Proof.Machine.execXoridGo tenant generation s
  | .hostLinkDown => Sys2Proof.Machine.execHostLinkDown s
  | .hostLinkUp => Sys2Proof.Machine.execHostLinkUp s
  | .frameReceive frame fec us => Sys2Proof.Machine.execFrameReceive frame fec us s
  | .neighborSolicitation src target => Sys2Proof.Machine.execNeighborSolicitation src target s
  | .echoRequest src dst rest => Sys2Proof.Machine.execEchoRequest src dst rest s
  | .dataPacket flow first last seq ack sack win us payload => Sys2Proof.Machine.execDataPacket flow first last seq ack sack win us payload s
  | .ackPacket flow ack sack win us => Sys2Proof.Machine.execAckPacket flow ack sack win us s
  | .keepalive flow ack sack win us => Sys2Proof.Machine.execKeepalive flow ack sack win us s
  | .retransmitTimeout flow => Sys2Proof.Machine.execRetransmitTimeout flow s
  | .htpFlowWrite flow valid mgmt prio tenant port window host => Sys2Proof.Machine.execHtpFlowWrite flow valid mgmt prio tenant port window host s
  | .cmd flow => Sys2Proof.Machine.execCmd flow s
  | .cmdDepositResume flow => Sys2Proof.Machine.execCmdDepositResume flow s
  | .put flow => Sys2Proof.Machine.execPut flow s
  | .get flow => Sys2Proof.Machine.execGet flow s
  | .atomic flow => Sys2Proof.Machine.execAtomic flow s
  | .reducePut flow => Sys2Proof.Machine.execReducePut flow s
  | .cmdNack flow => Sys2Proof.Machine.execCmdNack flow s
  | .htpTxqGo flow => Sys2Proof.Machine.execHtpTxqGo flow s
  | .job flow tag job schedule step => Sys2Proof.Machine.execJob flow tag job schedule step s
  | .launch core flow rcd shape => Sys2Proof.Machine.execLaunch core flow rcd shape s
  | .abort flow tag launchId => Sys2Proof.Machine.execAbort flow tag launchId s
  | .coll flow addr => Sys2Proof.Machine.execColl flow addr s
  | .htpAbort launchId => Sys2Proof.Machine.execHtpAbort launchId s
  | .fwWrite flow tag first addr length => Sys2Proof.Machine.execFwWrite flow tag first addr length s
  | .fwActivate flow tag => Sys2Proof.Machine.execFwActivate flow tag s
  | .fwConfirm flow tag raiseSvn => Sys2Proof.Machine.execFwConfirm flow tag raiseSvn s
  | .reset flow tag => Sys2Proof.Machine.execReset flow tag s
  | .readyReport flow tag => Sys2Proof.Machine.execReadyReport flow tag s
  | .attest flow tag nonce tenant => Sys2Proof.Machine.execAttest flow tag nonce tenant s
  | .certGet flow tag => Sys2Proof.Machine.execCertGet flow tag s
  | .dbgChallenge flow tag => Sys2Proof.Machine.execDbgChallenge flow tag s
  | .dbgUnlockPwd flow tag password => Sys2Proof.Machine.execDbgUnlockPwd flow tag password s
  | .dbgUnlockKey flow tag key sig => Sys2Proof.Machine.execDbgUnlockKey flow tag key sig s
  | .dbgLock flow tag => Sys2Proof.Machine.execDbgLock flow tag s
  | .dbgPwdSet flow tag digest => Sys2Proof.Machine.execDbgPwdSet flow tag digest s
  | .dbgKeySet flow tag slot digest => Sys2Proof.Machine.execDbgKeySet flow tag slot digest s
  | .tenAssign flow tag kind index value => Sys2Proof.Machine.execTenAssign flow tag kind index value s
  | .tenRegionWrite r owner => Sys2Proof.Machine.execTenRegionWrite r owner s
  | .tenStackWrite k owner => Sys2Proof.Machine.execTenStackWrite k owner s
  | .reassignDone u => Sys2Proof.Machine.execReassignDone u s
  | .tenShareWrite t share => Sys2Proof.Machine.execTenShareWrite t share s
  | .secMeasExtend m => Sys2Proof.Machine.execSecMeasExtend m s
  | .secMeasLock mask => Sys2Proof.Machine.execSecMeasLock mask s
  | .signRequest => Sys2Proof.Machine.execSignRequest s
  | .identityDerivation => Sys2Proof.Machine.execIdentityDerivation s
  | .meteringIntervalEnd => Sys2Proof.Machine.execMeteringIntervalEnd s
  | .meterTick regions stackSet wakes links total => Sys2Proof.Machine.execMeterTick regions stackSet wakes links total s
  | .snapConfig flow tag j tenant job cursor loss verify fmt => Sys2Proof.Machine.execSnapConfig flow tag j tenant job cursor loss verify fmt s
  | .snapRate flow tag j m => Sys2Proof.Machine.execSnapRate flow tag j m s
  | .snapOrder flow tag j step => Sys2Proof.Machine.execSnapOrder flow tag j step s
  | .snapRequest j step => Sys2Proof.Machine.execSnapRequest j step s
  | .partnerSet flow tag serial feed force standby => Sys2Proof.Machine.execPartnerSet flow tag serial feed force standby s
  | .restore flow tag j src image => Sys2Proof.Machine.execRestore flow tag j src image s
  | .snapStatus flow tag j => Sys2Proof.Machine.execSnapStatus flow tag j s
  | .snapshotTimer j => Sys2Proof.Machine.execSnapshotTimer j s
  | .snpStart j => Sys2Proof.Machine.execSnpStart j s
  | .snpCommit j => Sys2Proof.Machine.execSnpCommit j s
  | .snpAbort j => Sys2Proof.Machine.execSnpAbort j s
  | .snpRestore j src image => Sys2Proof.Machine.execSnpRestore j src image s
  | .flashWriteUnit ok => Sys2Proof.Machine.execFlashWriteUnit ok s
  | .heldLaunchStart launchId tenant => Sys2Proof.Machine.execHeldLaunchStart launchId tenant s
  | .snapshotRecordCommit j => Sys2Proof.Machine.execSnapshotRecordCommit j s
  | .partnerCopy j event => Sys2Proof.Machine.execPartnerCopy j event s
  | .replayCompare j => Sys2Proof.Machine.execReplayCompare j s
  | .pwrRgate mask => Sys2Proof.Machine.execPwrRgate mask s
  | .gatingDeferredStart r => Sys2Proof.Machine.execGatingDeferredStart r s
  | .gatingDone r => Sys2Proof.Machine.execGatingDone r s
  | .gatingDrainTimeout r => Sys2Proof.Machine.execGatingDrainTimeout r s
  | .pwrRwake mask => Sys2Proof.Machine.execPwrRwake mask s
  | .regionWake r => Sys2Proof.Machine.execRegionWake r s
  | .enterColdFrame core => Sys2Proof.Machine.execEnterColdFrame core s
  | .enterSoilProbe core => Sys2Proof.Machine.execEnterSoilProbe core s
  | .enterOff core => Sys2Proof.Machine.execEnterOff core s
  | .wakeSource source => Sys2Proof.Machine.execWakeSource source s
  | .coldFrameExit => Sys2Proof.Machine.execColdFrameExit s
  | .soilProbe values seen => Sys2Proof.Machine.execSoilProbe values seen s
  | .modResetN => Sys2Proof.Machine.execModResetN s
  | .coldResetRelease slotId slotOpen feedId feedOpen mgrEn mgrOpen => Sys2Proof.Machine.execColdResetRelease slotId slotOpen feedId feedOpen mgrEn mgrOpen s
  | .warmReset => Sys2Proof.Machine.execWarmReset s
  | .modResetCtl => Sys2Proof.Machine.execModResetCtl s
  | .watchdogExpiry core => Sys2Proof.Machine.execWatchdogExpiry core s
  | .modWdtKick core key => Sys2Proof.Machine.execModWdtKick core key s
  | .modWdtArm core period => Sys2Proof.Machine.execModWdtArm core period s
  | .coreParityError core => Sys2Proof.Machine.execCoreParityError core s
  | .iodFault => Sys2Proof.Machine.execIodFault s
  | .csramScrub => Sys2Proof.Machine.execCsramScrub s
  | .modCcRun mask => Sys2Proof.Machine.execModCcRun mask s
  | .bootStage records remaps flows passes failed => Sys2Proof.Machine.execBootStage records remaps flows passes failed s
  | .bootLimitExpiry => Sys2Proof.Machine.execBootLimitExpiry s
  | .regionSelfTest r => Sys2Proof.Machine.execRegionSelfTest r s
  | .stestLogic r => Sys2Proof.Machine.execStestLogic r s
  | .stestFull r => Sys2Proof.Machine.execStestFull r s
  | .stestAbort r => Sys2Proof.Machine.execStestAbort r s
  | .stestDeferredStart r => Sys2Proof.Machine.execStestDeferredStart r s
  | .selfTestDone r unit cl rows periods => Sys2Proof.Machine.execSelfTestDone r unit cl rows periods s
  | .riskScoreTick => Sys2Proof.Machine.execRiskScoreTick s
  | .feedReversed feed => Sys2Proof.Machine.execFeedReversed feed s
  | .feedAbsent feed => Sys2Proof.Machine.execFeedAbsent feed s
  | .feedOutOfRange feed => Sys2Proof.Machine.execFeedOutOfRange feed s
  | .feedOvervoltage feed => Sys2Proof.Machine.execFeedOvervoltage feed s
  | .feedOvercurrent feed => Sys2Proof.Machine.execFeedOvercurrent feed s
  | .feedRejoin feed => Sys2Proof.Machine.execFeedRejoin feed s
  | .emergencyShutdown presHigh => Sys2Proof.Machine.execEmergencyShutdown presHigh s
  | .presNAssert => Sys2Proof.Machine.execPresNAssert s
  | .powerUp slotId slotOpen feedId feedOpen mgrEn mgrOpen => Sys2Proof.Machine.execPowerUp slotId slotOpen feedId feedOpen mgrEn mgrOpen s
  | .railFault rail beyond => Sys2Proof.Machine.execRailFault rail beyond s
  | .powerSample va vb watts => Sys2Proof.Machine.execPowerSample va vb watts s
  | .powerSlowLoop mean => Sys2Proof.Machine.execPowerSlowLoop mean s
  | .thermalControlTick dies iod stackSet => Sys2Proof.Machine.execThermalControlTick dies iod stackSet s
  | .dieTrip d sensor reading => Sys2Proof.Machine.execDieTrip d sensor reading s
  | .moduleTrip reading => Sys2Proof.Machine.execModuleTrip reading s
  | .pinReadbackTick low high => Sys2Proof.Machine.execPinReadbackTick low high s
  | .smbusStuck scl => Sys2Proof.Machine.execSmbusStuck scl s
  | .smbusRead code => Sys2Proof.Machine.execSmbusRead code s
  | .refclkAbsent eth => Sys2Proof.Machine.execRefclkAbsent eth s
  | .refclkPresent eth => Sys2Proof.Machine.execRefclkPresent eth s
  | .tapReset => Sys2Proof.Machine.execTapReset s
  | .extest pins cells => Sys2Proof.Machine.execExtest pins cells s
  | .samplePreload pins cells => Sys2Proof.Machine.execSamplePreload pins cells s
  | .idcode => Sys2Proof.Machine.execIdcode s
  | .clamp => Sys2Proof.Machine.execClamp s
  | .highz => Sys2Proof.Machine.execHighz s
  | .extestPulse pins cells => Sys2Proof.Machine.execExtestPulse pins cells s
  | .extestTrain pins cells => Sys2Proof.Machine.execExtestTrain pins cells s
  | .dbgMem write addr data => Sys2Proof.Machine.execDbgMem write addr data s
  | .dbgScan din => Sys2Proof.Machine.execDbgScan din s
  | .bypass => Sys2Proof.Machine.execBypass s
  | .dbgHalt mask periods => Sys2Proof.Machine.execDbgHalt mask periods s
  | .dbgStep r => Sys2Proof.Machine.execDbgStep r s
  | .dbgDataWrite lo hi => Sys2Proof.Machine.execDbgDataWrite lo hi s
  | .dbgInj target two addr => Sys2Proof.Machine.execDbgInj target two addr s
  | .resultIc r => Sys2Proof.Machine.execResultIc r s
  | .peerRetrain p => Sys2Proof.Machine.execPeerRetrain p s
  | .wakePinEdge pin => Sys2Proof.Machine.execWakePinEdge pin s
  | .entryDrainTimeout => Sys2Proof.Machine.execEntryDrainTimeout s
  | .meteringRingTail index => Sys2Proof.Machine.execMeteringRingTail index s

end Sys2Proof.Machine
end

