-- ==== Sys2Proof/Safety.lean ====
section
/-! DEFINITION. What counts as a safe run, and the words that the statements use for what a command changes. -/

namespace Sys2Proof

/-- Whether `k` steps from `s` all answer a next state. -/
def Safe : Nat → Machine.State → Prop
  | 0, _ => True
  | k + 1, s => ∃ t, Machine.step s = .next t ∧ Safe k t

namespace Machine

/-- The command answers a next state of which `P` holds. -/
def Yields (i : Instr) (s : State) (P : State → Prop) : Prop := ∃ t, exec i s = .next t ∧ P t

/-- Nothing but register fields differs. -/
def OnlyRegs (s t : State) : Prop := t = { s with regs := t.regs }

/-- Every register field other than those of `fs` reads as before. -/
def Untouched (fs : List Fld) (s t : State) : Prop := ∀ f : Fld, (∀ g ∈ fs, f.bit ≠ g.bit) → t.rd f = s.rd f

/-- The fields of `l` read the values given, and everything else of the state is as before. -/
def Wrote (l : List (Fld × Nat)) (s t : State) : Prop :=
  OnlyRegs s t ∧ (∀ p ∈ l, t.rd p.1 = p.2) ∧ Untouched (l.map Prod.fst) s t

/-- The fields of `l` read 0, and everything else of the state is as before. -/
def Cleared (l : List Fld) (s t : State) : Prop :=
  OnlyRegs s t ∧ (∀ f ∈ l, t.rd f = 0) ∧ Untouched l s t

/-- Core `c` executes and its fetch takes no exception; `u` is the state after the fetch. -/
def Fetched (s : State) (c : CoreId) (w : Nat) (u : State) : Prop := s.awake = true ∧ s.runs c.val = true ∧ s.ccFetch c.val = (u, 0, w)

/-- The general register `d` of core `c` reads `v` (nothing is written when it is G0), its program counter reads `a`, and everything
else of the state is as before. -/
def CoreWrote (c : CoreId) (d : Fin 32) (v a : Word64) (u t : State) : Prop :=
  OnlyRegs u t ∧ t.pcOf c.val = a ∧ (d.val ≠ 0 → t.gpr c.val d.val = v) ∧
    Untouched (if d.val = 0 then [In.pc c.val] else [In.gpr c.val d.val, In.pc c.val]) u t

/-- Core `c` took an exception (R309): its PC, the cause and the value are saved, the mode goes to PREV, the core is privileged and
continues at MOD_CC_TVEC; everything else of the state is as before. -/
def Trapped (c : CoreId) (cause : Nat) (tval : Word64) (u t : State) : Prop :=
  Wrote [(Reg.MOD_CC_EPC c.val, (u.pcOf c.val).toNat), (Reg.MOD_CC_CAUSE c.val, cause), (Reg.MOD_CC_TVAL c.val, tval.toNat),
    (Reg.MOD_CC_MODE_PREV c.val, u.rd (Reg.MOD_CC_MODE_CUR c.val)), (Reg.MOD_CC_MODE_CUR c.val, 1),
    (In.pc c.val, u.rd (Reg.MOD_CC_TVEC c.val))] u t

/-- Region `r` issues a bundle in this ic, has no work left over from earlier ones, no look-up whose budget still runs, and no bank access
noted for this ic. -/
def Quiet (s : State) (r : RegionId) : Prop :=
  let q := s.seq r.val
  s.issuing r.val = true ∧ q.pend = [] ∧ q.asks = [] ∧ q.looks = [] ∧ ∀ w ∈ q.waves, w.ic < q.ic

/-- The fields that count an ic of region `r` and charge its period. -/
def icFields (s : State) (r : Nat) : List Fld :=
  [Reg.SQ_IC_LO_COUNT r, Reg.SQ_IC_HI_COUNT r, Reg.CLK_PER_LO_COUNT r, Reg.CLK_PER_HI_COUNT r,
    In.meter 0 (if s.regionUser r = 0xFF then 0xFE else s.regionUser r)]

/-- The counts of a region's vector units. -/
def vuCounts (r : Nat) : List Fld :=
  (List.range 8).flatMap fun c => [Reg.SQ_VU_SAT_COUNT r c, Reg.SQ_VU_UFLOW_COUNT r c, Reg.SQ_VU_INFCLAMP_COUNT r c, Reg.SQ_VU_NANBLK_COUNT r c]

/-- Region `r` went on by one ic of one period and its sequencer is now `q`. Nothing else changed but the register fields of `fs` and
those that count the ic. -/
def Passed (r : RegionId) (q : Seq) (fs : List Fld) (s t : State) : Prop :=
  t = { s with regs := t.regs, seqs := t.seqs } ∧ t.seq r.val = q ∧ (∀ k, k ≠ r.val → t.seq k = s.seq k) ∧
    t.rd (Reg.SQ_IC_LO_COUNT r.val) = ((s.seq r.val).ic + 1) % 2 ^ 32 ∧
    t.rd (Reg.CLK_PER_LO_COUNT r.val) + t.rd (Reg.CLK_PER_HI_COUNT r.val) * 2 ^ 32 =
      min (s.rd (Reg.CLK_PER_LO_COUNT r.val) + s.rd (Reg.CLK_PER_HI_COUNT r.val) * 2 ^ 32 + 1) (2 ^ 48 - 1) ∧
    Untouched (fs ++ icFields s r.val) s t

/-- An operation of the vector units of region `r`: every cluster's words `ws` are due in register `vd` after `lat` ic. -/
def VectorDue (r : RegionId) (vd : Fin 32) (lat : Nat) (ws : ClusterId → List Nat) (s t : State) : Prop :=
  let q := s.seq r.val
  Passed r { q with
    cur := q.next, next := q.next + 1, ic := q.ic + 1, waves := [], last := max q.last (q.ic + lat),
    pend := (List.finRange 8).map fun c => ⟨q.ic + lat, 0, c.val, .vreg vd.val (ws (Fin.ofNat 256 (8 * r.val + c.val)))⟩ } (vuCounts r.val) s t

/-- The counts of corrected bits of the scratchpad banks. -/
def bankCounts : List Fld := (List.range 256).flatMap fun c => (List.range 64).map fun b => Reg.SP_SBE_CNT_COUNT c b

/-- In the ic that region `r` issues, nothing stands in the way of its accesses to the units `us` of each cluster: no scratchpad word is in
error, no accumulator tile that the units lie in is in use, and no accumulator port still serves an earlier access. -/
def Open (s : State) (r : RegionId) (us : ClusterId → List Nat) : Prop :=
  s.spErr = [] ∧ s.spPoison = [] ∧ ∀ k : ClusterId, k.val / 8 = r.val →
    s.windowBusy r.val (s.seq r.val).ic ((us k).map (64 * ·)) = none ∧ ∀ m < 4, ∀ p ∈ (s.muOf k.val m).port, p.2 ≤ (s.seq r.val).ic

/-- Every unit of `us` lies in the banks of cluster `k`. -/
def InBanks (k : Nat) (us : List Nat) : Prop := ∀ u ∈ us, ∃ o, place (64 * u) = .sp k o

/-- The spans of the accumulator port of matrix unit `m` of cluster `k` after an operation of ic `t` has taken it from ic `a` on for the
window rows among the units `us` (R147). -/
def portAfter (k m t a : Nat) (us : List Nat) (l : List (Nat × Nat)) : List (Nat × Nat) :=
  if State.portRows k m us = [] then l else (a, a + (State.portRows k m us).length) :: l.filter fun p => t < p.2

/-- Of a cluster only the accumulator ports differ, as `portAfter` says of the units `us` used from ic `a` on. -/
def PortsTaken (k : ClusterId) (t a : Nat) (us : List Nat) (x x' : Clu) : Prop :=
  x' = { x with mus := x'.mus } ∧
    ∀ m, Tbl.get Mu.empty x'.mus m = { Tbl.get Mu.empty x.mus m with port := portAfter k.val m t a us (Tbl.get Mu.empty x.mus m).port }

/-- The operation that command `i` names acts in the clusters of region `r` without a fault, and then the ic ends: `P` holds of each
cluster of the region, `Q` of its sequencer but for the bank accesses noted there, no register field but those of `fs` differs, and
nothing else does. -/
def Issues (i : Instr) (r : RegionId) (fs : List Fld) (P : ClusterId → Clu → Prop) (Q : Seq → Prop) (s : State) : Prop :=
  ∃ u : State, exec i s = .next (u.finish r.val) ∧ u = { s with regs := u.regs, seqs := u.seqs, clus := u.clus } ∧
    (∀ w, Q { u.seq r.val with waves := w }) ∧ (∀ k, k ≠ r.val → u.seq k = s.seq k) ∧ Untouched fs s u ∧
    ∀ k : ClusterId, if k.val / 8 = r.val then P k (u.clu k.val) else u.clu k.val = s.clu k.val

/-- As `Issues`, of an operation that may also send remote accesses: `P` is told the state in which the operation has acted, and what was on
its way before still is. -/
def Sends (i : Instr) (r : RegionId) (fs : List Fld) (P : State → ClusterId → Clu → Prop) (Q : Seq → Prop) (s : State) : Prop :=
  ∃ u : State, exec i s = .next (u.finish r.val) ∧
    u = { s with regs := u.regs, seqs := u.seqs, clus := u.clus, remotes := u.remotes, wid := u.wid } ∧ s.remotes <+: u.remotes ∧
    (∀ w, Q { u.seq r.val with waves := w }) ∧ (∀ k, k ≠ r.val → u.seq k = s.seq k) ∧ Untouched fs s u ∧
    ∀ k : ClusterId, if k.val / 8 = r.val then P u k (u.clu k.val) else u.clu k.val = s.clu k.val

/-- Fetch `fid` of cluster `k` was started between states `s` and `u` (R110, R130): unit by unit, wave `j` of `waves` is captured by the unit
of slot `slot` in ic t + j where the cluster reaches it itself, and is asked for by a remote read otherwise; the act `a` follows in ic
`due`, or waits for the remote reads. -/
def Fetches (s u : State) (r : RegionId) (k : ClusterId) (slot fid : Nat) (waves : List (List Nat)) (due : Nat) (a : Act) : Prop :=
  let far := waves.flatten.filter (State.farUnit k.val)
  s.wid ≤ fid ∧ fid < u.wid ∧
    (∀ j us, waves[j]? = some us → ∀ x ∈ us, State.farUnit k.val x = false →
      ∃ l, x ∈ l ∧ ⟨(s.seq r.val).ic + j, 0, k.val % 8, .capture slot fid l⟩ ∈ (u.seq r.val).pend) ∧
    (∀ x ∈ far, ∃ n, ⟨n, r.val, k.val, State.destOf (64 * x), x, some fid, none, []⟩ ∈ u.remotes) ∧
    if far = [] then ⟨due, 0, k.val % 8, a⟩ ∈ (u.seq r.val).pend else Tbl.get [] (u.seq r.val).asks fid = [⟨due, 0, k.val % 8, a⟩]

/-- `x` is an act by which the writes `ws` of cluster `k` leave in ic `due` (R301): its own part at once, the rest unit by unit, an ic each. -/
def Leaves (k : ClusterId) (due rank : Nat) (acc : Option Nat) (ws : List (Nat × Nat)) (x : Pend) : Prop :=
  let act := fun l => match acc with
    | none => Act.bytes l
    | some f => .accum f l
  let own := ws.filter fun p => !State.farUnit k.val (p.1 / 64)
  (own ≠ [] ∧ x = ⟨due, rank, k.val % 8, act own⟩) ∨
    ∃ j l, (State.pieces (ws.filter fun p => State.farUnit k.val (p.1 / 64)))[j]? = some l ∧ x = ⟨due + j, rank, k.val % 8, act l⟩

/-- The byte at `a` after the writes `ws`, the last of which to one address remains; `b` where none reaches it. -/
def overlay (ws : List (Nat × Nat)) (a b : Nat) : Nat :=
  match ws.reverse.find? fun p => p.1 == a with
  | some p => p.2 % 256
  | none => b

/-- The sequencer after the issue of a bundle: its operations end no later than ic `t`, and `l` are the acts still to come. -/
def Issued (q : Seq) (t : Nat) (l : List Pend) (q' : Seq) : Prop :=
  q' = { q with cur := q.next, next := q.next + 1, last := max q.last t, pend := l, waves := q'.waves }

/-- Of a cluster only matrix unit `mu` differs, and it is `m`. -/
def OnlyMu (mu : Nat) (m : Mu) (x x' : Clu) : Prop :=
  x' = { x with mus := x'.mus } ∧ Tbl.get Mu.empty x'.mus mu = m ∧ ∀ j, j ≠ mu → Tbl.get Mu.empty x'.mus j = Tbl.get Mu.empty x.mus j

/-- Of a matrix unit's accumulator tiles only `tile` differs, and it is `a`. -/
def OnlyTile (tile : Nat) (a : AccTile) (x x' : Tbl AccTile) : Prop :=
  Tbl.get AccTile.zero x' tile = a ∧ ∀ j, j ≠ tile → Tbl.get AccTile.zero x' j = Tbl.get AccTile.zero x j

/-- The bytes of a message went out on flow `f` of state `u`: they follow what the flow has not had acknowledged yet. Nothing else
changed but the flow's sending side and the host egress queue; a flow that is BROKEN or not valid sends nothing. -/
def Sent (f : Nat) (bytes : List Nat) (u t : State) : Prop :=
  if (u.flow f).broken = true ∨ u.rd (Reg.HTP_FLOW_VALID f) = 0 then t = u
  else t = { u with flows := t.flows, links := t.links } ∧ (∀ k, k ≠ f → t.flow k = u.flow k) ∧ (∀ p, p ≠ 6 → t.link p = u.link p) ∧
    ((t.flow f).unacked ++ (t.flow f).unsent).flatMap Pkt.pay = ((u.flow f).unacked ++ (u.flow f).unsent).flatMap Pkt.pay ++ bytes ∧
    (t.flow f).msgs = (u.flow f).msgs ∧ (t.flow f).rx = (u.flow f).rx

/-- A message of the module was sent on flow `f`: its header, then its body. -/
def Answered (f mtype status tag : Nat) (body : List Nat) (u t : State) : Prop :=
  Sent f (packMsg mtype status tag body.length ++ body) u t

/-- Firmware takes management commands from flow `f`: it is a management flow, and the module is not in recovery (R454). -/
def Managed (s : State) (f : Nat) : Prop := s.rd (Reg.HTP_FLOW_MGMT f) = 1 ∧ s.rd Reg.MOD_BOOT_STAGE ≠ 8

/-- The completion record `n` was decided in state `u`: every core's WAIT condition 1 holds, and the record entered the ring, or waits
behind the records that wait for room. -/
def Recorded (n : Nat) (u t : State) : Prop :=
  (∀ c < 8, t.rd (In.ccDone c) = 1) ∧
    if u.pendRecs = [] ∧ u.ringFull = false then t.pendRecs = [] ∧ t.rd Reg.HTP_CQ_HEAD_INDEX = (u.rd Reg.HTP_CQ_HEAD_INDEX + 1) % u.rd Reg.HTP_CQ_SIZE_ENTRIES
    else t.pendRecs = u.pendRecs ++ [n] ∧ t.rd Reg.HTP_CQ_HEAD_INDEX = u.rd Reg.HTP_CQ_HEAD_INDEX ∧ t.mem = u.mem

end Machine
end Sys2Proof
end

