-- ==== Sys2Proof/Certificates/Slice0/Obligations.lean ====
section
/-! DEFINITION. The statements for the provers. -/

open Sys2Proof Sys2Proof.Machine

/-- A step takes the command at the front of the queue: it is that command's effect on the state with the queue's rest. On an empty
queue a step answers a next state with the queue still empty, in which, where no region has work, each island whose clock runs has
counted one period and no other island has (the model's choice, log 3). -/
def Obligations.StepRunsTheFrontCommand : Prop :=
  (∀ (c : Instr) (l : List Instr) (s : State), step { s with pending := c :: l } = exec c { s with pending := l }) ∧
  ∀ s : State, s.pending = [] → ∃ t, step s = .next t ∧ t.pending = [] ∧
    (s.seqs = [] → s.awake = true → OnlyRegs s t ∧ ∀ r : RegionId,
      let per := fun u : State => u.rd (Reg.CLK_PER_LO_COUNT r.val) + 2 ^ 32 * u.rd (Reg.CLK_PER_HI_COUNT r.val)
      per t = if s.rd (Reg.CLK_ISL_STATE r.val) = 0 then min (per s + 1) (2 ^ 48 - 1) else per s)

/-- Every command answers a next state from every state: no command faults or is refused, since each fault of the spec is an effect on
the state. -/
def Obligations.EveryCommandAnswersNext : Prop :=
  ∀ (c : Instr) (s : State), ∃ t, exec c s = .next t

/-- Every step keeps memory in its canonical form: addresses strictly rising, and no byte listed that an unlisted address would read. -/
def Obligations.StepKeepsMemoryCanonical : Prop :=
  ∀ s t : State, Memory.wf s.mem = true → step s = .next t → Memory.wf t.mem = true

/-- Memory is in its canonical form at reset, with no command waiting. -/
def Obligations.MemoryCanonicalAtReset : Prop :=
  Memory.wf State.reset.mem = true ∧ State.reset.pending = []

/-- Bundles: encoding a bundle of legal operations and decoding the 256 bits gives the bundle back, and a word that decodes is the
encoding of a bundle of legal operations, so no bit of a bundle is dropped and no two bundles share a word. -/
def Obligations.BundleRoundTrip : Prop :=
  let sh := fun o : ShOp => match o with | .nop => True | .pass rcd => rcd < 256
  let mv := fun o : MvOp => match o with
    | .nop => True
    | .dma rcd e r c => rcd < 256 ∧ e < 16 ∧ r < 16 ∧ c < 16
    | .move rcd e r c => rcd < 256 ∧ e < 16 ∧ r < 16 ∧ c < 16
  let legal := fun b : Bundle => b.mu.ok = true ∧ b.vu.ok = true ∧ b.sv.ok = true ∧ sh b.sh ∧ mv b.mv ∧ b.ct.ok = true
  (∀ b : Bundle, legal b → encodeBundle b < 2 ^ 256 ∧ decodeBundle (encodeBundle b) = .ok b) ∧
  ∀ (n : Nat) (b : Bundle), n < 2 ^ 256 → decodeBundle n = .ok b → encodeBundle b = n ∧ legal b

/-- What reset leaves, by the reset columns of the register tables: no owner of regions and management as the owner of stacks, the risk
threshold and hysteresis with the response armed, the measurement registers at 0 with register 3 alone locked, the watchdog period and
no launch, flow or operation. -/
def Obligations.ResetLeaves : Prop :=
  let s := State.reset
  (∀ r : RegionId, s.rd (Reg.TEN_REGION_OWNER r.val) = 0xFF ∧ s.rd (Reg.TEN_REGION_PEND r.val) = 0 ∧ (s.seq r.val).launch = none) ∧
  (∀ k : StackId, s.rd (Reg.TEN_STACK_OWNER k.val) = 0xFE) ∧
  s.rd Reg.SNP_RISK_THRESH = 192 ∧ s.rd Reg.SNP_RISK_HYST = 16 ∧ s.rd Reg.SNP_RISK_ARMED = 1 ∧
  (∀ m : Fin 8, ∀ w : Fin 16, s.rd (Reg.SEC_MEAS m.val w.val) = 0) ∧ s.rd Reg.SEC_MEAS_LOCK_LOCK = 8 ∧ s.rd Reg.SEC_DBG_STAT_STATE = 0 ∧
  (∀ c : CoreId, s.rd (Reg.MOD_WDT_PERIOD c.val) = 1000) ∧ s.rd Reg.MOD_CC_RUN_RUN = 1 ∧
  (∀ c : CoreId, s.rd (Reg.MOD_CC_MODE_CUR c.val) = 1) ∧ (∀ n : Fin 4096, s.rd (Reg.STREAM_OWNER n.val) = 0xFF ∧ s.rd (Reg.STREAM_EN n.val) = 0) ∧
  s.launches = [] ∧ s.flows = [] ∧ s.cols = [] ∧ s.colQueue = []

/-- The register instructions of a control core write the value of Table 10.17 to D, go on to the next instruction and change nothing
else; SHIFTI of kind 3 is an illegal instruction. -/
def Obligations.RegisterArithmetic : Prop :=
  ∀ (s u : State) (c : CoreId) (d a b : Fin 32) (i : BitVec 16) (j : BitVec 21) (w : Nat), Fetched s c w u →
    let alu := fun (fn : Nat) (op : Instr) (P : State → Prop) => w = aluWord fn d.val a.val b.val → Yields op s P
    let imm := fun (m : Nat) (op : Instr) (P : State → Prop) => w = immWord m d.val a.val i → Yields op s P
    let x := u.gpr c.val a.val
    let y := u.gpr c.val b.val
    let k : Word64 := i.signExtend 64
    let n := s.pcOf c.val + 4
    alu 0 (.add c d a b) (CoreWrote c d (x + y) n u) ∧
    alu 1 (.sub c d a b) (CoreWrote c d (x - y) n u) ∧
    alu 2 (.andOp c d a b) (CoreWrote c d (x &&& y) n u) ∧
    alu 3 (.orOp c d a b) (CoreWrote c d (x ||| y) n u) ∧
    alu 4 (.xorOp c d a b) (CoreWrote c d (x ^^^ y) n u) ∧
    (y.toNat < 64 → alu 5 (.sll c d a b) (CoreWrote c d (x <<< y.toNat) n u)) ∧
    (y.toNat < 64 → alu 6 (.srl c d a b) (CoreWrote c d (x >>> y.toNat) n u)) ∧
    (y.toNat < 64 → alu 7 (.sra c d a b) (CoreWrote c d (x.sshiftRight y.toNat) n u)) ∧
    (64 ≤ y.toNat → ∀ p ∈ [(5, Instr.sll), (6, Instr.srl), (7, Instr.sra)], alu p.1 (p.2 c d a b) fun t => ∃ v, CoreWrote c d v n u t) ∧
    alu 8 (.slt c d a b) (CoreWrote c d (if x.toInt < y.toInt then 1 else 0) n u) ∧
    alu 9 (.sltu c d a b) (CoreWrote c d (if x.toNat < y.toNat then 1 else 0) n u) ∧
    alu 10 (.mul c d a b) (CoreWrote c d (x * y) n u) ∧
    alu 11 (.mulhu c d a b) (CoreWrote c d (BitVec.ofNat 64 (x.toNat * y.toNat / 2 ^ 64)) n u) ∧
    alu 12 (.divu c d a b) (CoreWrote c d (if y = 0 then -1 else x / y) n u) ∧
    alu 13 (.remu c d a b) (CoreWrote c d (x % y) n u) ∧
    imm 2 (.addi c d a i) (CoreWrote c d (x + k) n u) ∧
    imm 3 (.andi c d a i) (CoreWrote c d (x &&& k) n u) ∧
    imm 4 (.ori c d a i) (CoreWrote c d (x ||| k) n u) ∧
    imm 5 (.xori c d a i) (CoreWrote c d (x ^^^ k) n u) ∧
    imm 6 (.slti c d a i) (CoreWrote c d (if x.toInt < k.toInt then 1 else 0) n u) ∧
    (i.toNat / 64 % 4 = 0 → imm 7 (.shifti c d a i) (CoreWrote c d (x <<< (i.toNat % 64)) n u)) ∧
    (i.toNat / 64 % 4 = 1 → imm 7 (.shifti c d a i) (CoreWrote c d (x >>> (i.toNat % 64)) n u)) ∧
    (i.toNat / 64 % 4 = 2 → imm 7 (.shifti c d a i) (CoreWrote c d (x.sshiftRight (i.toNat % 64)) n u)) ∧
    (i.toNat / 64 % 4 = 3 → imm 7 (.shifti c d a i) (Trapped c 1 (BitVec.ofNat 64 (7 + d.val * 2 ^ 6 + a.val * 2 ^ 11 + i.toNat * 2 ^ 16)) u)) ∧
    (w = longWord 8 d.val j → Yields (.lui c d j) s (CoreWrote c d ((j.signExtend 64 : Word64) * 65536#64) n u))

/-- Loads of a control core: a misaligned address is cause 3, an access that the mode forbids cause 4, an access that fails its own
cause; a load behind a held write of the core waits; any other load writes the bytes read, extended as its name says. What a load reads:
the bytes of control-complex SRAM and boot ROM, little-endian, and an access fault where nothing is mapped; no load and no fetch changes
a byte of memory, a general register, a program counter or an exception register of any core. -/
def Obligations.LoadsOfControlCores : Prop :=
  (∀ (s u : State) (c : CoreId) (d a : Fin 32) (i : BitVec 16) (m : Nat), Fetched s c (immWord m d.val a.val i) u →
    let e : Word64 := u.gpr c.val a.val + i.signExtend 64
    ∀ p ∈ [(Instr.lb c d a i, 1, 9, fun v : Nat => (BitVec.ofNat 8 v).signExtend 64),
        (Instr.lh c d a i, 2, 10, fun v : Nat => (BitVec.ofNat 16 v).signExtend 64),
        (Instr.lw c d a i, 4, 11, fun v : Nat => (BitVec.ofNat 32 v).signExtend 64),
        (Instr.ld c d a i, 8, 12, fun v : Nat => BitVec.ofNat 64 v),
        (Instr.lbu c d a i, 1, 13, fun v : Nat => (BitVec.ofNat 8 v).setWidth 64),
        (Instr.lhu c d a i, 2, 14, fun v : Nat => (BitVec.ofNat 16 v).setWidth 64),
        (Instr.lwu c d a i, 4, 15, fun v : Nat => (BitVec.ofNat 32 v).setWidth 64)],
      m = p.2.2.1 →
      (e.toNat % p.2.1 ≠ 0 → Yields p.1 s (Trapped c 3 e u)) ∧
      (e.toNat % p.2.1 = 0 → u.mayAccess c.val e p.2.1 = false → Yields p.1 s (Trapped c 4 e u)) ∧
      (e.toNat % p.2.1 = 0 → u.mayAccess c.val e p.2.1 = true → u.ownHeld c.val e.toNat p.2.1 = true → exec p.1 s = .next s) ∧
      (e.toNat % p.2.1 = 0 → u.mayAccess c.val e p.2.1 = true → u.ownHeld c.val e.toNat p.2.1 = false →
        ∀ (t : State) (cause v : Nat), u.busLoad e.toNat p.2.1 = (t, cause, v) →
          (cause = 0 → Yields p.1 s (CoreWrote c d (p.2.2.2 v) (s.pcOf c.val + 4) t)) ∧
          (cause ≠ 0 → cause < 16 → Yields p.1 s (Trapped c cause e t)))) ∧
  ((∀ (s : State) (a n : Nat), n ∈ [1, 2, 4, 8] → a % n = 0 →
    (∀ o, place a = .csram o → Tbl.get 0 s.csErr (a / 8 * 8) = 0 → s.busLoad a n = (s, 0, ofLe ((List.range n).map fun i => s.memGet (a + i)))) ∧
    (∀ o, place a = .rom o → s.busLoad a n = (s, 0, ofLe ((List.range n).map fun i => s.memGet (a + i)))) ∧
    (∀ o, place a = .csram o → 1 < Tbl.get 0 s.csErr (a / 8 * 8) → (s.busLoad a n).2.1 = 7) ∧
    (place a = .unmapped → s.busLoad a n = (s, 4, 0)) ∧
    (∀ k, place a = .hole k → (s.busLoad a n).2.1 = 4) ∧
    (∀ k o, place a = .hbm k o → s.rd (Reg.HBM_STAT_STATE k) = 5 → (s.busLoad a n).2.1 = 4)) ∧
  (∀ (s : State) (a n : Nat) (c : CoreId) (m : Fin 32), ∀ t ∈ [(s.busLoad a n).1, (s.ccFetch c.val).1],
    t.mem = s.mem ∧ t.gpr c.val m.val = s.gpr c.val m.val ∧ t.pcOf c.val = s.pcOf c.val ∧
    ∀ f ∈ [Reg.MOD_CC_MODE_CUR c.val, Reg.MOD_CC_MODE_PREV c.val, Reg.MOD_CC_EPC c.val, Reg.MOD_CC_CAUSE c.val, Reg.MOD_CC_TVAL c.val,
      Reg.MOD_CC_TVEC c.val], t.rd f = s.rd f))

/-- Stores of a control core: a misaligned address is cause 3, an access that the mode forbids or that reaches nothing cause 4; in
control-complex SRAM, and in HBM that is ready and unprotected, exactly the bytes of S2 from the address up change. -/
def Obligations.StoresOfControlCores : Prop :=
  ∀ (s u : State) (c : CoreId) (b a : Fin 32) (i : BitVec 16) (m : Nat), Fetched s c (immWord m b.val a.val i) u →
    let e : Word64 := u.gpr c.val a.val + i.signExtend 64
    ∀ p ∈ [(Instr.sb c b a i, 1, 16), (Instr.sh c b a i, 2, 17), (Instr.sw c b a i, 4, 18), (Instr.sd c b a i, 8, 19)],
      m = p.2.2 →
      (e.toNat % p.2.1 ≠ 0 → Yields p.1 s (Trapped c 3 e u)) ∧
      (e.toNat % p.2.1 = 0 → u.mayAccess c.val e p.2.1 = false → Yields p.1 s (Trapped c 4 e u)) ∧
      (e.toNat % p.2.1 = 0 → u.mayAccess c.val e p.2.1 = true → place e.toNat = .unmapped → Yields p.1 s (Trapped c 4 e u)) ∧
      (e.toNat % p.2.1 = 0 → u.mayAccess c.val e p.2.1 = true →
        (∃ o, place e.toNat = .csram o) ∨ (∃ k o, place e.toNat = .hbm k o ∧ u.stackStatus k = 0 ∧
          u.protectedPage (State.pageOf e.toNat) = false) →
        Yields p.1 s fun t => t.pcOf c.val = s.pcOf c.val + 4 ∧
          ∀ k, t.memGet k =
            if e.toNat ≤ k ∧ k < e.toNat + p.2.1 then (u.gpr c.val b.val).toNat / 256 ^ (k - e.toNat) % 256 else u.memGet k)

/-- Branches compare two registers and go to PC + 4·IMM16 when true; JAL and JALR link and jump; a target that is no multiple of 4 is
cause 3 and links nothing. -/
def Obligations.BranchesAndJumps : Prop :=
  ∀ (s u : State) (c : CoreId) (d a b : Fin 32) (i : BitVec 16) (j : BitVec 21) (w : Nat), Fetched s c w u →
    let x := u.gpr c.val a.val
    let y := u.gpr c.val b.val
    let pc := u.pcOf c.val
    let next := s.pcOf c.val + 4
    let goes := fun (op : Instr) (v target : Word64) (d : Fin 32) =>
      (target.toNat % 4 = 0 → Yields op s (CoreWrote c d v target u)) ∧ (target.toNat % 4 ≠ 0 → Yields op s (Trapped c 3 target u))
    (∀ p ∈ [(Instr.beq c a b i, 20, decide (x = y)), (Instr.bne c a b i, 21, decide (x ≠ y)), (Instr.blt c a b i, 22, decide (x.toInt < y.toInt)),
        (Instr.bge c a b i, 23, decide (y.toInt ≤ x.toInt)), (Instr.bltu c a b i, 24, decide (x.toNat < y.toNat)),
        (Instr.bgeu c a b i, 25, decide (y.toNat ≤ x.toNat))],
      w = immWord p.2.1 a.val b.val i →
      (p.2.2 = false → Yields p.1 s (CoreWrote c 0 0 next u)) ∧ (p.2.2 = true → goes p.1 0 (pc + 4#64 * i.signExtend 64) 0)) ∧
    (w = longWord 26 d.val j → goes (.jal c d j) (pc + 4) (pc + 4#64 * j.signExtend 64) d) ∧
    (w = immWord 27 d.val a.val i → goes (.jalr c d a i) (pc + 4) (x + i.signExtend 64) d)

/-- SYSCALL and BREAK take exceptions 5 and 6, PRET returns from one, a privileged function in unprivileged mode is cause 2, a set bit
where a SYS function has none is cause 1, and so is a word of no instruction. -/
def Obligations.ControlCoreExceptions : Prop :=
  ∀ (s u : State) (c : CoreId) (now : Word64) (w : Nat), Fetched s c w u →
    (w = 28 → Yields (.syscall c 0) s (Trapped c 5 28 u)) ∧
    (w = 393244 → Yields (.brk c 0) s (Trapped c 6 393244 u)) ∧
    (w = 65564 → u.rd (Reg.MOD_CC_MODE_CUR c.val) ≠ 0 → u.rd (Reg.MOD_CC_EPC c.val) % 4 = 0 →
      Yields (.pret c 0) s (Wrote [(Reg.MOD_CC_MODE_CUR c.val, u.rd (Reg.MOD_CC_MODE_PREV c.val)),
        (In.pc c.val, u.rd (Reg.MOD_CC_EPC c.val))] u)) ∧
    (w = 65564 → u.rd (Reg.MOD_CC_MODE_CUR c.val) ≠ 0 → u.rd (Reg.MOD_CC_EPC c.val) % 4 ≠ 0 →
      Yields (.pret c 0) s (Trapped c 3 (BitVec.ofNat 64 (u.rd (Reg.MOD_CC_EPC c.val))) u)) ∧
    (u.rd (Reg.MOD_CC_MODE_CUR c.val) = 0 →
      (w = 65564 → Yields (.pret c 0) s (Trapped c 2 65564 u)) ∧ (w = 131100 → Yields (.wait c 0 now) s (Trapped c 2 131100 u)) ∧
      (∀ (n : BitVec 11) (a : Fin 32), w = 28 + a.val * 2 ^ 11 + 5 * 2 ^ 16 + n.toNat * 2 ^ 21 → Yields (.csrw c n a 0 0) s
        (Trapped c 2 (BitVec.ofNat 64 w) u)) ∧
      (∀ (n : BitVec 11) (d : Fin 32), n ≠ 0 → n ≠ 8 → w = 28 + d.val * 2 ^ 6 + 4 * 2 ^ 16 + n.toNat * 2 ^ 21 →
        Yields (.csrr c d n 0 0 now) s (Trapped c 2 (BitVec.ofNat 64 w) u))) ∧
    (∀ z : BitVec 23, z ≠ 0 → ∀ p ∈ [(Instr.syscall c z, 0), (Instr.pret c z, 1), (Instr.wait c z now, 2), (Instr.brk c z, 6)],
      w = 28 + z.toNat % 2 ^ 10 * 2 ^ 6 + p.2 * 2 ^ 16 + z.toNat / 2 ^ 10 * 2 ^ 19 → Yields p.1 s (Trapped c 1 (BitVec.ofNat 64 w) u)) ∧
    (w % 64 = 0 ∨ 29 ≤ w % 64 ∨ w % 64 = 1 ∧ 14 ≤ w / 2 ^ 21 ∨ w % 64 = 28 ∧ w / 2 ^ 16 % 8 = 7 → w < 2 ^ 32 →
      ∀ d a b : Fin 32, Yields (.add c d a b) s (Trapped c 1 (BitVec.ofNat 64 w) u))

/-- WAIT goes on at once with the conditions that hold, or suspends the core; WAIT_WAKE ends the suspension; the control-core FENCE
waits from scope 3 up for the core's own held writes. The conditions of WAIT are the enabled ones among: a receive ring not empty, a
completion record since the last read of WAITCAUSE, the timer, the watched event counter, and a message of the power manager or a broken
flow. -/
def Obligations.WaitingControlCores : Prop :=
  ((∀ (s u : State) (c : CoreId) (now : Word64), Fetched s c 131100 u → u.rd (Reg.MOD_CC_MODE_CUR c.val) ≠ 0 →
    let w := u.seeCycle now.toNat
    (w.rd Reg.PWR_MODE_REQ ≠ 0 →
      Yields (.wait c 0 now) s (Wrote [(In.ccWait c.val, 2), (In.pc c.val, (s.pcOf c.val + 4).toNat)] w)) ∧
    (w.rd Reg.PWR_MODE_REQ = 0 → w.waitHeld c.val ≠ 0 →
      Yields (.wait c 0 now) s (Wrote [(Reg.MOD_CC_WAITCAUSE c.val, w.waitHeld c.val), (In.pc c.val, (s.pcOf c.val + 4).toNat)] w)) ∧
    (w.rd Reg.PWR_MODE_REQ = 0 → w.waitHeld c.val = 0 →
      Yields (.wait c 0 now) s (Wrote [(In.ccWait c.val, 1), (In.pc c.val, (s.pcOf c.val + 4).toNat)] w))) ∧
  (∀ (s : State) (c : CoreId) (now : Word64), s.awake = true →
    let w := s.seeCycle now.toNat
    (w.rd (In.ccWait c.val) = 1 → w.waitHeld c.val ≠ 0 → w.released c.val = true → w.rd (In.ccStop c.val) = 0 →
      Yields (.waitWake c now) s (Wrote [(In.ccWait c.val, 0), (Reg.MOD_CC_WAITCAUSE c.val, w.waitHeld c.val)] w)) ∧
    (w.rd (In.ccWait c.val) ≠ 1 ∨ w.waitHeld c.val = 0 → exec (.waitWake c now) s = .next w)) ∧
  (∀ (s u : State) (c : CoreId) (n : BitVec 3), Fetched s c (28 + 3 * 2 ^ 16 + n.toNat * 2 ^ 21) u →
    (n.toNat < 3 ∨ n.toNat < 6 ∧ (∀ h ∈ u.heldw, h.src ≠ c.val) →
      Yields (.ccFence c n 0 0 0 0) s (CoreWrote c 0 0 (s.pcOf c.val + 4) u)) ∧
    (3 ≤ n.toNat → n.toNat < 6 → (∃ h ∈ u.heldw, h.src = c.val) → exec (.ccFence c n 0 0 0 0) s = .next s) ∧
    (6 ≤ n.toNat → Yields (.ccFence c n 0 0 0 0) s (Trapped c 1 (BitVec.ofNat 64 (28 + 3 * 2 ^ 16 + n.toNat * 2 ^ 21)) u)))) ∧
  (∀ (s : State) (c : CoreId) (n : Nat), (s.waitHeld c.val).testBit n =
    ((s.rd (Reg.MOD_CC_WAITMASK c.val)).testBit n && match n with
    | 0 => decide (∃ q : Fin 2, s.rd (Reg.HTP_RING_HEAD_INDEX q.val) ≠ s.rd (Reg.HTP_RING_TAIL_INDEX q.val))
    | 1 => decide (s.rd (In.ccDone c.val) ≠ 0)
    | 2 => decide (s.rd (Reg.MOD_CC_TIMER c.val) ≤ s.rd (Reg.MOD_CC_CYCLE c.val))
    | 3 => decide (s.rd (Reg.MOD_CC_EVWATCH_THRESH c.val) ≤
        s.rd (Reg.SQ_EVT_VALUE (s.rd (Reg.MOD_CC_EVWATCH_CTR c.val) / 64) (s.rd (Reg.MOD_CC_EVWATCH_CTR c.val) % 64)))
    | 4 => decide (s.rd Reg.PWR_MSG_PEND ≠ 0 ∨ ∃ w : Fin 8, s.rd (Reg.HTP_BROKEN w.val) ≠ 0)
    | _ => false))

/-- CSRR reads each CSR of Table 10.18 and CSRW writes the fields that have write access; a number outside the table is an illegal
instruction. -/
def Obligations.ControlCoreRegisters : Prop :=
  ∀ (s u : State) (c : CoreId) (d a : Fin 32) (now : Word64) (m : Nat), Fetched s c m u → u.rd (Reg.MOD_CC_MODE_CUR c.val) ≠ 0 →
    let w := u.seeCycle now.toNat
    let r := fun f : Nat → Fld => w.rd (f c.val)
    let x := (u.gpr c.val a.val).toNat
    let next := s.pcOf c.val + 4
    let reads := fun n => m = 28 + d.val * 2 ^ 6 + 4 * 2 ^ 16 + n * 2 ^ 21
    let writes := fun n => m = 28 + a.val * 2 ^ 11 + 5 * 2 ^ 16 + n * 2 ^ 21
    (∀ p ∈ [(0, r Reg.MOD_CC_ID), (1, r Reg.MOD_CC_MODE_CUR + r Reg.MOD_CC_MODE_PREV * 2), (2, r Reg.MOD_CC_EPC), (3, r Reg.MOD_CC_CAUSE),
        (4, r Reg.MOD_CC_TVAL), (5, r Reg.MOD_CC_TVEC), (6, r Reg.MOD_CC_WAITMASK), (8, r Reg.MOD_CC_CYCLE), (9, r Reg.MOD_CC_TIMER),
        (10, r Reg.MOD_CC_EVWATCH_CTR + r Reg.MOD_CC_EVWATCH_THRESH * 2 ^ 32), (11, r Reg.MOD_CC_UBASE), (12, r Reg.MOD_CC_ULIM)],
      reads p.1 → Yields (.csrr c d (BitVec.ofNat 11 p.1) 0 0 now) s (CoreWrote c d (BitVec.ofNat 64 p.2) next w)) ∧
    (reads 7 → Yields (.csrr c d 7 0 0 now) s (CoreWrote c d (BitVec.ofNat 64 (r Reg.MOD_CC_WAITCAUSE)) next (w.wr (In.ccDone c.val) 0))) ∧
    (∀ n : BitVec 11, 13 ≤ n.toNat → reads n.toNat → Yields (.csrr c d n 0 0 now) s (Trapped c 1 (BitVec.ofNat 64 m) u)) ∧
    (∀ p ∈ [(0, []), (1, [(Reg.MOD_CC_MODE_PREV c.val, x / 2 % 2)]), (2, [(Reg.MOD_CC_EPC c.val, x)]), (3, []), (4, []),
        (5, [(Reg.MOD_CC_TVEC c.val, x / 4 * 4)]), (6, [(Reg.MOD_CC_WAITMASK c.val, x % 32)]), (7, []), (8, []),
        (9, [(Reg.MOD_CC_TIMER c.val, x)]),
        (10, [(Reg.MOD_CC_EVWATCH_CTR c.val, x % 2 ^ 11), (Reg.MOD_CC_EVWATCH_THRESH c.val, x / 2 ^ 32)]),
        (11, [(Reg.MOD_CC_UBASE c.val, x)]), (12, [(Reg.MOD_CC_ULIM c.val, x)])],
      writes p.1 → Yields (.csrw c (BitVec.ofNat 11 p.1) a 0 0) s (Wrote (p.2 ++ [(In.pc c.val, next.toNat)]) u)) ∧
    (∀ n : BitVec 11, 13 ≤ n.toNat → writes n.toNat → Yields (.csrw c n a 0 0) s (Trapped c 1 (BitVec.ofNat 64 m) u))

/-- The registers of reset and of the control cores' watchdogs, release and parity. What a cold reset leaves: no unit holds anything,
memory but the Root cellar reads 0, and every register field outside `fs` keeps its value where the Root cellar, a fuse, a strap or a
pin holds it, and is at its reset value otherwise. What a warm reset leaves, for each of its causes: the cause is recorded and ALERT_N
asserted, domain 39 and the Root cellar keep their state, every other register field is at its reset value, and no unit holds anything.
The contents of HBM and of the scratchpad are open. -/
def Obligations.CoreControlAndResets : Prop :=
  (∀ s : State, s.awake = true →
    Yields .modResetCtl s (Wrote [(Reg.MOD_RESET_CTL_WARM, 1)] s) ∧
    Yields .csramScrub s (fun t => t.csErr = s.csErr.filter (fun p => p.2 != 1) ∧ t.rd Reg.MOD_CSRAM_CE_COUNT =
      min (s.rd Reg.MOD_CSRAM_CE_COUNT + (s.csErr.filter fun p => p.2 == 1).length) (2 ^ 32 - 1) ∧
      Untouched [Reg.MOD_CSRAM_CE_COUNT] s t ∧ t = { s with regs := t.regs, csErr := t.csErr }) ∧
    (∀ (c : CoreId) (key : BitVec 8) (period : BitVec 16),
      (key = 0x5A → Yields (.modWdtKick c key) s (Wrote [(Reg.MOD_WDT_LEFT_MS c.val, max 1 (s.rd (Reg.MOD_WDT_PERIOD c.val)))] s)) ∧
      (key ≠ 0x5A → exec (.modWdtKick c key) s = .next s) ∧
      (s.rd (Reg.MOD_WDT_EN c.val) = 1 → Yields (.modWdtArm c period) s (Wrote [(Reg.MOD_WDT_PERIOD c.val, period.toNat)] s)) ∧
      (s.rd (Reg.MOD_WDT_EN c.val) = 0 → Yields (.modWdtArm c period) s (Wrote [(Reg.MOD_WDT_PERIOD c.val, period.toNat),
        (Reg.MOD_WDT_EN c.val, 1), (Reg.MOD_WDT_LEFT_MS c.val, max 1 period.toNat)] s))) ∧
    ∀ mask : BitVec 8, Yields (.modCcRun mask) s fun t => OnlyRegs s t ∧ t.rd Reg.MOD_CC_RUN_RUN = mask.toNat ∧
      ∀ c : CoreId,
        (mask.toNat.testBit c.val = true → t.pcOf c.val = s.pcOf c.val ∧ (∀ n < 32, t.gpr c.val n = s.gpr c.val n) ∧
          t.rd (Reg.MOD_CC_MODE_CUR c.val) = s.rd (Reg.MOD_CC_MODE_CUR c.val)) ∧
        (mask.toNat.testBit c.val = false → t.pcOf c.val = BitVec.ofNat 64 romB ∧ (∀ n < 32, t.gpr c.val n = 0) ∧
          t.rd (Reg.MOD_CC_MODE_CUR c.val) = 1 ∧ t.rd (In.ccWait c.val) = 0)) ∧
  (∀ s : State, (∀ d < 4, s.rd (In.dieOff d) = 0) →
    let cold := fun (fs : List Fld) (t : State) =>
      (∀ a, t.memGet a = if flashB ≤ a then s.memGet a else 0) ∧
      t = { State.reset with pending := s.pending, regs := t.regs, mem := t.mem, wid := s.wid, free := s.free } ∧
      ∀ f : Fld, (∀ g ∈ fs, f.bit ≠ g.bit) → t.rd f = if keepCold f.bit then s.rd f else f.rst % 2 ^ f.w
    let h := s.rd In.hold
    Yields .modResetN s (fun t => cold [In.hold, Reg.TEN_MSEQ_LO, Reg.TEN_MSEQ_HI, In.stuck, In.pwrGood] t ∧ t.mseq = s.rd In.mark ∧ t.rd In.hold = 1 + h / 2 % 4 * 2 ∧ t.rd In.stuck = 0 ∧
      t.rd In.pwrGood = if h / 8 % 2 = 1 then 1 else s.rd In.pwrGood) ∧
    ∀ (slotId slotOpen : BitVec 6) (feedId feedOpen : BitVec 4) (mgrEn mgrOpen : Bool),
      let i := Instr.coldResetRelease slotId slotOpen feedId feedOpen mgrEn mgrOpen
      (h % 2 = 0 → exec i s = .next s) ∧
      (h % 2 = 1 → Yields i s fun t =>
        cold [In.hold, Reg.TEN_MSEQ_LO, Reg.TEN_MSEQ_HI, Reg.MOD_RESET_CAUSE_PIN, In.causeBoot, In.alert 4, Reg.MOD_STRAP_SLOT_ID, Reg.MOD_STRAP_MGR_EN, Reg.MOD_STRAP_FEED_ID,
          Reg.COL_ROLE_MGR_EN, Reg.HLT_PIN_FAULT_SLOT_OPEN, Reg.HLT_PIN_FAULT_MGR_OPEN, Reg.HLT_PIN_FAULT_FEED_OPEN] t ∧
        t.rd In.hold = h / 2 % 4 * 2 ∧ t.mseq = s.rd In.mark ∧ t.rd Reg.MOD_RESET_CAUSE_PIN = 1 ∧
        t.rd Reg.MOD_STRAP_SLOT_ID = slotId.toNat ||| slotOpen.toNat ∧ t.rd Reg.MOD_STRAP_FEED_ID = feedId.toNat ||| feedOpen.toNat ∧
        t.rd Reg.MOD_STRAP_MGR_EN = b2n (mgrEn && !mgrOpen) ∧ t.rd Reg.COL_ROLE_MGR_EN = b2n (mgrEn && !mgrOpen) ∧
        t.rd Reg.HLT_PIN_FAULT_SLOT_OPEN = slotOpen.toNat ∧ t.rd Reg.HLT_PIN_FAULT_FEED_OPEN = feedOpen.toNat ∧
        t.rd Reg.HLT_PIN_FAULT_MGR_OPEN = b2n mgrOpen)) ∧
  (∀ s : State, s.awake = true → (∀ d < 4, s.rd (In.dieOff d) = 0) → s.rd Reg.SEC_DBG_STAT_STATE = 0 →
    let warm := fun (cause : Fld) (fs : List Fld) (t : State) =>
      t.rd cause = 1 ∧ t.rd (In.alert 0) = 1 ∧ t.rd (In.alert 7) = 0 ∧ t.launches = [] ∧ t.seqs = [] ∧ t.flows = [] ∧ t.links = [] ∧
      t.cols = [] ∧ t.snaps = [] ∧ t.remotes = [] ∧ t.dmaq = [] ∧ t.stashq = [] ∧ t.heldw = [] ∧ t.cache = [] ∧ t.poison = [] ∧ t.spErr = [] ∧
      t.buckets = s.buckets ∧ t.meterq = s.meterq ∧
      (∀ a, flashB ≤ a → t.memGet a = s.memGet a) ∧ (∀ a, csramB ≤ a → a < csramB + 0x800000 → t.memGet a = 0) ∧
      ∀ f : Fld, (∀ g ∈ cause :: In.alert 0 :: In.alert 7 :: Reg.PWR_MODE_REQ :: Reg.PWR_RGATE_REQ :: In.causeBoot :: fs, f.bit ≠ g.bit) →
        (∀ r < 32, f.bit ≠ (Reg.CLK_ISL_STATE r).bit) → (∀ d < 4, f.bit ≠ (In.dieOff d).bit) →
          t.rd f = if keepWarm f.bit then s.rd f else f.rst % 2 ^ f.w
    (s.rd Reg.MOD_RESET_CTL_WARM = 1 ∨ s.rd In.softDue = 1 ∧ s.egressIdle = true → Yields .warmReset s (warm Reg.MOD_RESET_CAUSE_SOFT [])) ∧
    (s.rd Reg.MOD_RESET_CTL_WARM = 0 → s.rd In.softDue = 0 → exec .warmReset s = .next s) ∧
    (s.rd Reg.MOD_RESET_CTL_WARM = 0 → s.egressIdle = false → exec .warmReset s = .next s) ∧
    Yields .iodFault s (warm Reg.MOD_RESET_CAUSE_IOD []) ∧
    (s.rd In.reported = 0 → s.rd In.exitBoot = 0 → Yields .bootLimitExpiry s (warm Reg.MOD_RESET_CAUSE_BOOT [])) ∧
    (s.rd In.reported = 1 ∨ s.rd In.exitBoot = 1 → exec .bootLimitExpiry s = .next s) ∧
    ∀ c : CoreId,
      Yields (.coreParityError c) s (fun t => warm Reg.MOD_RESET_CAUSE_PARITY [Reg.MOD_RESET_CAUSE_CORE, Reg.MOD_CC_PARITY_COUNT] t ∧
        t.rd Reg.MOD_RESET_CAUSE_CORE = c.val ∧
        t.rd Reg.MOD_CC_PARITY_COUNT = min (s.rd Reg.MOD_CC_PARITY_COUNT + 1) (2 ^ 32 - 1)) ∧
      (s.rd (Reg.MOD_WDT_EN c.val) = 1 → (s.rd Reg.MOD_CC_RUN_RUN).testBit c.val = true → Yields (.watchdogExpiry c) s fun t =>
        warm Reg.MOD_RESET_CAUSE_WDT [Reg.MOD_RESET_CAUSE_CORE] t ∧ t.rd Reg.MOD_RESET_CAUSE_CORE = c.val) ∧
      (s.rd (Reg.MOD_WDT_EN c.val) = 0 ∨ (s.rd Reg.MOD_CC_RUN_RUN).testBit c.val = false → exec (.watchdogExpiry c) s = .next s))

/-- The boot chain: the ROM arms the watchdog of CC0 and takes BS0, or BS1, or halts with ALERT_N asserted; the first stage takes the
slot on trial for three tries, then the active one again, and the other where the chosen one is not valid, or ends in recovery; the
later stages follow each other; the last reports ready. Firmware images: the commands of any flow that is not a management flow are
refused; a write goes to the inactive slot, or to both first-stage places, and is answered with the outcome of its checks; activation
arms a trial of a valid image; confirmation makes the running slot the active one and may raise the minimum version; a reset is answered
and then falls due. -/
def Obligations.BootAndFirmware : Prop :=
  (∀ (s : State) (records : List (List Byte)) (remaps : List (ClusterId × Fin 64 × Fin 256 × Fin 8192))
    (flows : List (BitVec 8 × BitVec 16 × BitVec 16 × BitVec 128)) (passes : Vector (BitVec 3) 12) (failed : BitVec 32), s.awake = true →
    let i := Instr.bootStage records remaps flows passes failed
    let stage := s.rd Reg.MOD_BOOT_STAGE
    (stage = 0 → Yields i s fun t => t.rd (Reg.MOD_WDT_PERIOD 0) = 1000 ∧ t.rd (Reg.MOD_WDT_EN 0) = 1 ∧ t.rd (Reg.MOD_WDT_LEFT_MS 0) = 1000 ∧
      (s.imgValid 0 = false → s.imgValid 1 = false → t.rd Reg.MOD_BOOT_STAGE = 15 ∧ t.alertLow = true ∧ t.awake = false) ∧
      (s.imgValid 0 = true → t.rd Reg.MOD_BOOT_STAGE = 1 ∧ t.rd (In.pc 0) = s.imgField 0 20 8 % 2 ^ 64) ∧
      (s.imgValid 0 = false → s.imgValid 1 = true → t.rd Reg.MOD_BOOT_STAGE = 1 ∧ t.rd (In.pc 0) = s.imgField 1 20 8 % 2 ^ 64)) ∧
    (stage = 1 → s.imgValid 2 = false → s.imgValid 3 = false → Yields i s fun t => t.rd Reg.MOD_BOOT_STAGE = 8 ∧ t.rd Reg.MOD_READY_STATUS = 3) ∧
    (∀ k < 2, stage = 1 → s.imgValid (2 + k) = true →
      let trial := s.rd In.bsTrial = 1 ∧ s.rd In.bsTries < 3
      let chosen := if trial then 1 - s.rd In.bsActive else s.rd In.bsActive
      k = chosen ∨ s.imgValid (2 + chosen) = false → Yields i s fun t => t.rd Reg.MOD_BOOT_STAGE = 2 ∧
        t.rd Reg.MOD_BOOT_SLOT = k ∧ t.rd Reg.MOD_BOOT_TRIAL = (if trial ∧ k ≠ s.rd In.bsActive then 1 else 0) ∧
        t.rd In.bsTries = (if trial then s.rd In.bsTries + 1 else s.rd In.bsTries) ∧
        (s.rd In.bsTrial = 1 → ¬ trial → t.rd In.bsTrial = 0 ∧ t.rd Reg.MOD_BOOT_ROLLED_BACK = 1) ∧
        t.rd (In.pc 0) = s.imgField (2 + k) 20 8 % 2 ^ 64) ∧
    (2 ≤ stage → stage ≤ 5 → Yields i s fun t => t.rd Reg.MOD_BOOT_STAGE = stage + 1) ∧
    (stage = 2 → Yields i s fun t => t.rd Reg.MOD_CC_RUN_RUN = 0xFF) ∧
    (stage = 6 → s.rd In.reported = 0 → s.rd In.exitBoot = 0 → Yields i s fun t => t.rd Reg.PWR_STAT_STATE = 0 ∧
      (∀ r < 32, (t.rd Reg.MOD_READY_REGIONS_MASK).testBit r = true ↔ s.rd (In.testBad r) = 0) ∧
      (∀ k < 12, (t.rd Reg.MOD_READY_STACKS_MASK).testBit k = true ↔ s.rd (Reg.HBM_STAT_STATE k) = 2) ∧
      (t.rd Reg.MOD_READY_STATUS = 1 ∨ t.rd Reg.MOD_READY_STATUS = 2)) ∧
    (7 ≤ stage → exec i s = .next s)) ∧
  (∀ (s : State) (flow : BitVec 8) (tag : BitVec 32) (first raise : Bool) (addr : BitVec 48) (len : BitVec 32), s.awake = true →
    let f := flow.toNat
    let replies := fun (status : Nat) (u t : State) => Answered f 0x92 status tag.toNat [] u t
    let i := if first then 1 else s.inactive
    let y := s.hbmRead addr.toNat len.toNat true
    let w := y.1.imgCopy i addr.toNat len.toNat
    let trial := s.rd In.bsTrial = 1
    let waits := first = false ∧ trial
    let write := Instr.fwWrite flow tag first addr len
    let slot := s.rd Reg.MOD_BOOT_SLOT
    let svn := s.imgField (2 + slot) 12 1
    (s.rd (Reg.HTP_FLOW_MGMT f) = 0 → ∀ c ∈ [write, .fwActivate flow tag, .fwConfirm flow tag raise, .readyReport flow tag, .reset flow tag],
      Yields c s (replies 1 s)) ∧
    (s.rd (Reg.HTP_FLOW_MGMT f) = 1 →
      (waits → Yields write s (replies 0x12 s)) ∧
      (¬ waits → imageRoom i < len.toNat → Yields write s (replies 0x10 s)) ∧
      (¬ waits → len.toNat ≤ imageRoom i →
        (y.2.1 ≠ 0 → Yields write s (replies 0x11 y.1)) ∧
        (y.2.1 = 0 → w.imgValid i = false → Yields write s (replies 0x11 w)) ∧
        (y.2.1 = 0 → w.imgValid i = true → Yields write s (replies 0 (if first then w.imgCopy 0 addr.toNat len.toNat else w)))) ∧
      (trial → Yields (.fwActivate flow tag) s (replies 0x12 s)) ∧
      (¬ trial → s.imgValid s.inactive = false → Yields (.fwActivate flow tag) s (replies 0x11 s)) ∧
      (¬ trial → s.imgValid s.inactive = true → Yields (.fwActivate flow tag) s fun t =>
        ∃ u, Wrote [(In.bsTrial, 1), (In.bsTries, 0), (Reg.MOD_BOOT_TRIES, 0)] s u ∧ replies 0 u t) ∧
      (¬ trial → Yields (.fwConfirm flow tag raise) s (replies 0 s)) ∧
      (trial → svn < 128 → Yields (.fwConfirm flow tag raise) s fun t =>
        ∃ u, Wrote ([(In.bsActive, slot), (In.bsTrial, 0), (In.bsTries, 0), (Reg.MOD_BOOT_TRIAL, 0), (Reg.MOD_BOOT_TRIES, 0)] ++
          if raise then [(Reg.MOD_SVN_MIN, max (s.rd Reg.MOD_SVN_MIN) svn)] else []) s u ∧ replies 0 u t) ∧
      Yields (.reset flow tag) s (fun t => ∃ u, Wrote [(In.softDue, 1)] s u ∧ replies 0 u t) ∧
      Yields (.readyReport flow tag) s fun t => ∃ b, Answered f 0x92 0 tag.toNat b s t ∧ b.length = 64 ∧
        bitsOf (ofLe b) 1 0 = s.rd Reg.MOD_READY_STATUS ∧ bitsOf (ofLe b) 63 32 = s.rd Reg.MOD_FW_VER_VERSION ∧
        bitsOf (ofLe b) 159 128 = s.rd Reg.MOD_READY_REGIONS_MASK ∧ bitsOf (ofLe b) 171 160 = s.rd Reg.MOD_READY_STACKS_MASK ∧
        bitsOf (ofLe b) 319 256 = s.serial))

/-- The control slot: jumps are relative to the bundle that issues and stay inside the kernel, index registers count modulo 2^32, and
IX0 reads 0 and ignores writes. HALT ends the kernel; an operation of no slot passes one ic. Events and fences: EVINC sends an increment
to a region of the launch's tenant only, EVSET and EVWAIT name the region's own counters, a wait whose threshold is not reached, and a
fence with writes or remote reads outstanding, hold the island in the same ic. -/
def Obligations.SequencerControlSlot : Prop :=
  (∀ (s : State) (r : RegionId) (a d : Fin 16) (imm : BitVec 27), Quiet s r →
    let q := s.seq r.val
    let q0 := { q with cur := q.next, next := q.next + 1, ic := q.ic + 1, waves := [] }
    let x := fun k : Fin 16 => if k.val = 0 then 0 else nth q.ix k.val
    let set := fun v : Nat => if d.val = 0 then q.ix else q.ix.set d.val v
    let n : Int := q.next + imm.toInt
    let inside := 0 ≤ n ∧ n < q.kern.length
    let passes := fun q' t => Passed r q' [] s t
    let illegal := fun t : State => t.rd (Reg.SQ_FAULT_CODE r.val) = 1 ∧ t.rd (Reg.SQ_FAULT_SLOT r.val) = 5
    let dec := (x d + (2 ^ 32 - 1)) % 2 ^ 32
    Yields (.halt r) s (fun t => t.rd (Reg.SQ_STAT_STATE r.val) = 3 ∧ Passed r { q0 with halted := true } [Reg.SQ_STAT_STATE r.val] s t) ∧
    (inside → Yields (.jmp r imm) s (passes { q0 with next := n.toNat })) ∧
    (¬ inside → Yields (.jmp r imm) s illegal) ∧
    (x a ≠ 0 → inside → Yields (.bnz r a imm) s (passes { q0 with next := n.toNat })) ∧
    (x a ≠ 0 → ¬ inside → Yields (.bnz r a imm) s illegal) ∧
    (x a = 0 → Yields (.bnz r a imm) s (passes q0)) ∧
    (x a = 0 → inside → Yields (.bz r a imm) s (passes { q0 with next := n.toNat })) ∧
    (x a = 0 → ¬ inside → Yields (.bz r a imm) s illegal) ∧
    (x a ≠ 0 → Yields (.bz r a imm) s (passes q0)) ∧
    Yields (.ixset r d imm) s (passes { q0 with ix := set (imm.toInt % 2 ^ 32).toNat }) ∧
    Yields (.ixadd r d a imm) s (passes { q0 with ix := set (((x a : Int) + imm.toInt) % 2 ^ 32).toNat }) ∧
    (0 ≤ imm.toInt → 4 * imm.toInt + 4 ≤ q.param.length →
      Yields (.ixldp r d imm) s (passes { q0 with ix := set (blk q.param (4 * imm.toInt.toNat) 4 % 2 ^ 32) })) ∧
    (imm.toInt < 0 ∨ (q.param.length : Int) < 4 * imm.toInt + 4 → Yields (.ixldp r d imm) s illegal) ∧
    (dec ≠ 0 → inside → Yields (.decbnz r d imm) s (passes { q0 with ix := set dec, next := n.toNat })) ∧
    (dec ≠ 0 → ¬ inside → Yields (.decbnz r d imm) s illegal) ∧
    (dec = 0 → Yields (.decbnz r d imm) s (passes { q0 with ix := set dec })) ∧
    Yields (.resultIc r) s (passes q0)) ∧
  (∀ (s : State) (r dst : RegionId) (ctr : Fin 64) (scope : Fin 8) (imm : BitVec 21) (l : Nat), Quiet s r →
    (s.seq r.val).launch = some l →
    let q := s.seq r.val
    let q1 := { q with cur := q.next, next := q.next + 1 }
    let q0 := { q1 with ic := q.ic + 1, waves := [] }
    let fault := fun (n : Nat) (t : State) => t.rd (Reg.SQ_FAULT_CODE r.val) = n ∧ t.rd (Reg.SQ_FAULT_SLOT r.val) = 5
    let holds := fun (h : Hold) (t : State) => t = { s with seqs := t.seqs } ∧ t.seq r.val = { q1 with holds := [h] } ∧
      ∀ k, k ≠ r.val → t.seq k = s.seq k
    (scope.val < 6 → s.rd (Reg.TEN_REGION_OWNER dst.val) = (s.launch l).tenant → Yields (.evinc r ctr dst scope imm) s fun t =>
      t.events = s.events ++ [⟨r.val, scope.val, s.wid, dst.val, ctr.val, imm.toNat⟩] ∧
      Passed r { q0 with last := max q.last q.ic } [] s { t with events := s.events }) ∧
    (scope.val < 6 → s.rd (Reg.TEN_REGION_OWNER dst.val) ≠ (s.launch l).tenant → Yields (.evinc r ctr dst scope imm) s (fault 4)) ∧
    (6 ≤ scope.val → Yields (.evinc r ctr dst scope imm) s (fault 1)) ∧
    (dst = r → Yields (.evset r ctr dst imm) s fun t =>
      t.rd (Reg.SQ_EVT_VALUE r.val ctr.val) = imm.toNat ∧ Passed r q0 [Reg.SQ_EVT_VALUE r.val ctr.val] s t) ∧
    (dst ≠ r → Yields (.evset r ctr dst imm) s (fault 1) ∧ Yields (.evwait r ctr dst imm) s (fault 1)) ∧
    (dst = r → imm.toNat ≤ s.rd (Reg.SQ_EVT_VALUE r.val ctr.val) → Yields (.evwait r ctr dst imm) s (Passed r q0 [] s)) ∧
    (dst = r → s.rd (Reg.SQ_EVT_VALUE r.val ctr.val) < imm.toNat → Yields (.evwait r ctr dst imm) s (holds (.event ctr.val imm.toNat))) ∧
    (scope.val < 6 → s.fenced r.val scope.val s.wid = false → Yields (.fence r scope) s (Passed r q0 [] s)) ∧
    (scope.val < 6 → s.fenced r.val scope.val s.wid = true → Yields (.fence r scope) s (holds (.fence scope.val (s.wid + 1)))) ∧
    (6 ≤ scope.val → Yields (.fence r scope) s (fault 1)))

/-- LDA and LDB put an operand tile, or a quarter of one, into its slot in every cluster, complete after 8 ic (R135, Table 5.2): at once
where the cluster reaches it itself, and else when it has come by remote reads (log 21). A half that does not exist is illegal. -/
def Obligations.OperandLoads : Prop :=
  ∀ (s : State) (r : RegionId) (mu : Fin 4) (sl : Fin 2) (trans qen : Bool) (qd : Fin 4) (rcd : Fin 256) (e rt ct : Fin 16) (isB : Bool),
    Quiet s r →
    let q := s.seq r.val
    let ix := fun k : Fin 16 => if k.val = 0 then 0 else nth q.ix k.val
    let d := descOf q.param rcd.val
    let rows := if qen then 32 else 64
    let contr := if qen then 1 else if isB = trans then 0 else 1
    let view := fun k : ClusterId => s.view r.val (k.val % 8) rcd.val (ix e)
    let load := fun k : ClusterId => loadTile s (view k) (some contr) (rows * ix rt) (64 * ix ct) rows 64
    let void := fun k : ClusterId => (List.range (view k).d.rank).any fun j => j ≠ contr ∧ (view k).d.ext j = 0
    let slot := if isB then 2 + sl.val else sl.val
    let place := 4 * slot + if qen then qd.val else if qd.val = 2 then 1 else 0
    let load? := if isB then Instr.ldb r mu sl trans qen qd rcd e rt ct else .lda r mu sl trans qen qd rcd e rt ct
    (qen = false → qd.val = 3 → Yields load? s fun t => t.rd (Reg.SQ_FAULT_CODE r.val) = 1 ∧ t.rd (Reg.SQ_FAULT_SLOT r.val) = 0) ∧
    (s.descOk r.val rcd.val (ix e) = true → d.layout ≠ 1 → d.fmt ≠ 14 → d.fmt ≠ 15 → (qen = true ∨ qd.val = 0 ∨ qd.val ≠ 3 ∧ d.fmt ≠ 0) →
      Open s r (fun k => (load k).2) → (∀ k : ClusterId, k.val / 8 = r.val → Tbl.get 0 (s.muOf k.val mu.val).slotBusy slot ≤ q.ic) →
      Sends load? r bankCounts
        (fun u k x => ∃ slots, x = { s.clu k.val with mus := x.mus } ∧
          (∀ m, let y := { s.muOf k.val m with port := portAfter k.val m q.ic q.ic (load k).2 (s.muOf k.val m).port }
            Tbl.get Mu.empty x.mus m = if m = mu.val then { y with slots := slots } else y) ∧
          if ∃ n ∈ (load k).2, State.farUnit k.val n = true then
            Tbl.get SlotPart.empty slots place = { Tbl.get SlotPart.empty (s.muOf k.val mu.val).slots place with ready := q.ic + 8 } ∧
            (∀ j, j ≠ place → Tbl.get SlotPart.empty slots j = Tbl.get SlotPart.empty (s.muOf k.val mu.val).slots j) ∧
            ∃ fid, Fetches s u r k 0 fid [(load k).2] q.ic (.takeMu fid q.ic (.load isB mu.val sl.val trans qen qd.val rcd.val (ix e) (ix rt) (ix ct)))
          else
            Tbl.get SlotPart.empty slots place = ⟨(view k).d.fmt, rows, trans, (load k).1, q.ic + 8, void k⟩ ∧
            ∀ j, j ≠ place → Tbl.get SlotPart.empty slots j =
              if qen = false ∧ qd.val = 0 ∧ j ∈ [4 * slot + 1, 4 * slot + 2, 4 * slot + 3] then SlotPart.empty
              else Tbl.get SlotPart.empty (s.muOf k.val mu.val).slots j)
        (fun z => z = { q with cur := q.next, next := q.next + 1, pend := z.pend, asks := z.asks, waves := z.waves, last := max q.last (q.ic + 8) } ∧
          ((∀ k : ClusterId, k.val / 8 = r.val → ∀ n ∈ (load k).2, State.farUnit k.val n = false) → z.pend = [] ∧ z.asks = [])) s)

/-- MMA: element (i, j) of the tile becomes the chain over k of A(i, k)·B(k, j), from the element's value or from +0, in three passes
where an operand is FP32 (log 171), and stays as it is where an extent of an operand other than the contraction's is zero; the array and
both slots are busy for the occupancy of Table 5.1, and the tile is complete 6 ic later. Part 0 of each slot is read (log 172). ACC.ZERO
leaves a tile of +0 with a chain count of 0, complete in the next ic; RAKE copies a tile to the next matrix unit, complete after 72 ic,
and keeps the source and both links for 64; RAKE from the last matrix unit is illegal. -/
def Obligations.DenseProductsAndTiles : Prop :=
  (∀ (s : State) (r : RegionId) (mu tile : Fin 4) (sa sb : Fin 2) (acc : Bool), Quiet s r →
    let q := s.seq r.val
    let a := fun k : ClusterId => State.part (s.muOf k.val mu.val) sa.val 0
    let b := fun k : ClusterId => State.part (s.muOf k.val mu.val) (2 + sb.val) 0
    let occ := fun k : ClusterId => mmaOcc (a k).fmt (b k).fmt
    let void := fun k : ClusterId => (a k).void = true ∨ (b k).void = true
    (∀ k : ClusterId, k.val / 8 = r.val → (s.muOf k.val mu.val).array ≤ q.ic ∧ s.tileOpen k.val mu.val tile.val q.ic acc = true ∧
      (a k).ready ≤ q.ic ∧ (b k).ready ≤ q.ic) →
    Issues (.mma r mu tile sa sb acc) r ((List.range 8).flatMap fun c => [Reg.MU_CHAIN_STAT_LONG (8 * r.val + c) mu.val,
        Reg.MU_CHAIN_STAT_LONG_CNT (8 * r.val + c) mu.val, Reg.MU_FTZ_CNT_COUNT (8 * r.val + c) mu.val, Reg.MU_OVF_CNT_COUNT (8 * r.val + c) mu.val,
        Reg.MU_BUSY_LO_COUNT (8 * r.val + c) mu.val, Reg.MU_BUSY_HI_COUNT (8 * r.val + c) mu.val])
      (fun k x => ∃ (m : Mu) (t : AccTile), let old := s.tile k.val mu.val tile.val
        let terms := if occ k = 192 then 192 else 64
        OnlyMu mu.val m (s.clu k.val) x ∧ OnlyTile tile.val t (s.muOf k.val mu.val).tiles m.tiles ∧
        m = { s.muOf k.val mu.val with tiles := m.tiles, array := q.ic + occ k, slotBusy := m.slotBusy } ∧
        (∀ j, Tbl.get 0 m.slotBusy j = if j = sa.val ∨ j = 2 + sb.val then q.ic + occ k else Tbl.get 0 (s.muOf k.val mu.val).slotBusy j) ∧
        (void k → t = { old with doneAt := q.ic + occ k + 6, accAt := q.ic + occ k }) ∧
        (¬ void k → t = ⟨t.vals, if acc then old.cnt + terms else terms, q.ic + occ k + 6, q.ic + occ k, old.freeAt, none⟩ ∧
          ∀ i j : Fin 64, Tbl.get 0 t.vals (64 * i.val + j.val) = (chain (if acc then Tbl.get 0 old.vals (64 * i.val + j.val) else 0, 0, 0) (occ k == 192)
            (((a k).mat.getD i.val []).zip ((transposeMat (b k).mat).getD j.val []))).1))
      (Issued q ((List.range 8).foldl (fun n c => max n (q.ic + occ (Fin.ofNat 256 (8 * r.val + c)) + 6)) 0) []) s) ∧
  (∀ (s : State) (r : RegionId) (mu tile tile2 : Fin 4), Quiet s r →
    let q := s.seq r.val
    ((∀ k : ClusterId, k.val / 8 = r.val → s.tileInUse k.val mu.val tile.val q.ic = false) →
      Issues (.accZero r mu tile) r [] (fun k x => ∃ m : Mu, OnlyMu mu.val m (s.clu k.val) x ∧
          m = { s.muOf k.val mu.val with tiles := m.tiles } ∧
          OnlyTile tile.val ⟨[], 0, q.ic + 1, q.ic + 1, 0, none⟩ (s.muOf k.val mu.val).tiles m.tiles) (Issued q (q.ic + 1) []) s) ∧
    (mu.val = 3 → Yields (.rake r mu tile tile2) s fun t => t.rd (Reg.SQ_FAULT_CODE r.val) = 1 ∧ t.rd (Reg.SQ_FAULT_SLOT r.val) = 0) ∧
    (mu.val ≤ 2 → (∀ k : ClusterId, k.val / 8 = r.val → s.tileInUse k.val mu.val tile.val q.ic = false ∧
        s.tileInUse k.val (mu.val + 1) tile2.val q.ic = false ∧ (s.muOf k.val mu.val).rake ≤ q.ic ∧ (s.muOf k.val (mu.val + 1)).rake ≤ q.ic) →
      Issues (.rake r mu tile tile2) r ((List.range 8).flatMap fun c => [Reg.MU_CHAIN_STAT_LONG (8 * r.val + c) (mu.val + 1),
          Reg.MU_CHAIN_STAT_LONG_CNT (8 * r.val + c) (mu.val + 1)])
        (fun k x => let src := s.tile k.val mu.val tile.val
          x = { s.clu k.val with mus := x.mus } ∧
          (∀ j, j ≠ mu.val → j ≠ mu.val + 1 → Tbl.get Mu.empty x.mus j = s.muOf k.val j) ∧
          (∃ m : Mu, m = Tbl.get Mu.empty x.mus mu.val ∧ m = { s.muOf k.val mu.val with tiles := m.tiles, rake := q.ic + 64 } ∧
            OnlyTile tile.val { src with freeAt := q.ic + 64 } (s.muOf k.val mu.val).tiles m.tiles) ∧
          ∃ m : Mu, m = Tbl.get Mu.empty x.mus (mu.val + 1) ∧ m = { s.muOf k.val (mu.val + 1) with tiles := m.tiles, rake := q.ic + 64 } ∧
            OnlyTile tile2.val { src with doneAt := q.ic + 72, accAt := q.ic + 72, freeAt := q.ic + 72 } (s.muOf k.val (mu.val + 1)).tiles m.tiles)
        (Issued q (q.ic + 72) []) s))

/-- SMMA: element (i, j) of the tile becomes the chain over the pairs that the Sieve delivers to column j, tile by tile in ascending k,
without the dead columns of the zero map; ZM_MODE 2 takes a marked activation as zero. It runs at once in a cluster whose pages and maps
are ready, where its look-ups then stand against the budget, and waits for the end of the hold in the others. With CEN_EN its numbers go
to the census of the record, or are lost past its handle. -/
def Obligations.SparseProducts : Prop :=
  ∀ (s : State) (r : RegionId) (mu tile : Fin 4) (sa half : Fin 2) (acc : Bool) (rcd : Fin 256), Quiet s r →
    let q := s.seq r.val
    let sr := sieveOf q.param rcd.val
    let b := sr.budget
    let x := fun k : ClusterId => s.muOf k.val mu.val
    let page := fun (k : ClusterId) (u : Nat) => Tbl.get Page.empty (x k).pages (2 * half.val + u)
    let zmap := fun (k : ClusterId) (u : Nat) => Tbl.get ZMap.empty (x k).zmaps (2 * sa.val + u)
    let part := fun (k : ClusterId) (u : Nat) => State.part (x k) sa.val u
    let bits := fun (k : ClusterId) (u : Nat) => (zmap k u).bits.getD 0
    let rate := fun k : ClusterId => pairRate (part k 0).fmt (page k 0).fmt
    let pairs := fun (k : ClusterId) (j : Nat) => (List.range sr.tn).flatMap fun u =>
      (State.pagePairs (page k u) (fun n => sr.zmMode ≠ 0 ∧ deadCol (bits k u) n) j).map fun p => (u, p.1, p.2)
    let stored := fun (k : ClusterId) (j : Nat) => ((List.range sr.tn).map fun u => ((page k u).entries.filter fun n => n.j == j).length).foldl (· + ·) 0
    let act := fun (k : ClusterId) (u i n : Nat) => if sr.zmMode = 2 ∧ (bits k u).testBit (64 * i + n) then FVal.zero
      else (((part k u).mat).getD i []).getD n .zero
    let occ := fun (k : ClusterId) => smmaOcc ((List.range 64).map fun j => (pairs k j).length) sr.tn (rate k)
    let occW := fun (k : ClusterId) => smmaOcc ((List.range 64).map (stored k)) sr.tn (rate k)
    let ready := fun k : ClusterId => ∀ u < sr.tn, (page k u).ready ≤ q.ic ∧ (sr.zmMode ≠ 0 → (zmap k u).ready ≤ q.ic)
    let void := fun k : ClusterId => ∃ u < sr.tn, (part k u).void = true
    let here := fun c : Nat => (Fin.ofNat 256 (8 * r.val + c) : ClusterId)
    let nth := fun k : ClusterId => Tbl.get 0 q.cens (256 * (k.val % 8) + rcd.val)
    let off := fun k : ClusterId => sr.cenOff + 4 * nth k
    let room := fun k : ClusterId => off k + 4 ≤ s.rd (Reg.SP_HT_EXTENT r.val sr.cenH)
    hasRec q.param 2 rcd.val = true →
    (∀ k : ClusterId, k.val / 8 = r.val → (x k).array ≤ q.ic ∧ s.tileOpen k.val mu.val tile.val q.ic acc = true ∧
      ∀ u < sr.tn, (part k u).ready ≤ q.ic ∧ (page k u).built = true ∧ (sr.zmMode ≠ 0 → (zmap k u).bits.isSome = true)) →
    Issues (.smma r mu tile sa half acc rcd) r ((List.range 8).flatMap fun c => let k := 8 * r.val + c;
        [Reg.MU_CHAIN_STAT_LONG k mu.val, Reg.MU_CHAIN_STAT_LONG_CNT k mu.val, Reg.MU_FTZ_CNT_COUNT k mu.val, Reg.MU_OVF_CNT_COUNT k mu.val,
          Reg.MU_BUSY_LO_COUNT k mu.val, Reg.MU_BUSY_HI_COUNT k mu.val, Reg.SV_PAIRS_LO_COUNT k, Reg.SV_PAIRS_HI_COUNT k, Reg.SV_ZSKIP_COUNT k,
          Reg.SV_STAT_CEN_LOST k])
      (fun k y => ∃ (m : Mu) (t : AccTile), let old := s.tile k.val mu.val tile.val
        let terms := (if rate k = 0 then 192 else 64) * sr.tn
        OnlyMu mu.val m (s.clu k.val) y ∧ OnlyTile tile.val t (x k).tiles m.tiles ∧
        m = { x k with tiles := m.tiles, array := q.ic + b, slotBusy := m.slotBusy, halfBusy := m.halfBusy, zmaps := m.zmaps } ∧
        (∀ j, Tbl.get 0 m.slotBusy j = if j = sa.val then q.ic + b else Tbl.get 0 (x k).slotBusy j) ∧
        (∀ j, Tbl.get 0 m.halfBusy j = if j = half.val then q.ic + b else Tbl.get 0 (x k).halfBusy j) ∧
        (∀ j, Tbl.get ZMap.empty m.zmaps j = if sr.zmMode ≠ 0 ∧ j / 2 = sa.val then { Tbl.get ZMap.empty (x k).zmaps j with busy := q.ic + b }
          else Tbl.get ZMap.empty (x k).zmaps j) ∧
        (¬ ready k ∨ void k → t = { old with doneAt := q.ic + b + 9, accAt := q.ic + b }) ∧
        (ready k → ¬ void k → t = ⟨t.vals, if acc then old.cnt + terms else terms, q.ic + b + 9, q.ic + b, old.freeAt, none⟩ ∧
          ∀ i j : Fin 64, Tbl.get 0 t.vals (64 * i.val + j.val) = (chain (if acc then Tbl.get 0 old.vals (64 * i.val + j.val) else 0, 0, 0)
            (rate k == 0) ((pairs k j.val).map fun p => (act k p.1 i.val p.2.1, p.2.2))).1))
      (fun z => z = { q with cur := q.next, next := q.next + 1, last := z.last, pend := z.pend, waves := z.waves, looks := z.looks, cens := z.cens } ∧
        max q.last (q.ic + b + 9) ≤ z.last ∧ (sr.cenEn = false → z.last = max q.last (q.ic + b + 9)) ∧
        (∀ n, (∀ c < 8, n ≠ 256 * c + rcd.val) → Tbl.get 0 z.cens n = Tbl.get 0 q.cens n) ∧
        (∀ l, l ∈ z.looks ↔ ∃ k : ClusterId, k.val / 8 = r.val ∧ ready k ∧ l = ⟨q.ic + b, k.val, mu.val, occ k - b, b < occ k⟩) ∧
        (∀ c < 8, Tbl.get 0 z.cens (256 * c + rcd.val) = if sr.cenEn = true ∧ ready (here c) then nth (here c) + 1 else nth (here c)) ∧
        ∀ p, p ∈ z.pend ↔ ∃ k : ClusterId, k.val / 8 = r.val ∧
          (¬ ready k ∧ p = ⟨q.ic, 10, k.val % 8, .product (.smma mu.val tile.val sa.val half.val acc rcd.val) 0⟩ ∨
            ready k ∧ sr.cenEn = true ∧ room k ∧ Leaves k (q.ic + b + 9) 6 none
              (at' (s.handleBase r.val (k.val % 8) sr.cenH + off k) (toLe 4 (min (occ k) 0xFFFF + min (occW k) 0xFFFF * 2 ^ 16))) p)) s

/-- SGW: in every tile position of the record, the word at each of the page's value slots becomes the chain over the 32 tokens of
activation times gradient at the entry's position, from the slot's word or from +0 (R243 to R246). It runs at once in a cluster whose
pages and map are ready, and waits for the end of the hold in the others. -/
def Obligations.SampledProducts : Prop :=
  ∀ (s : State) (r : RegionId) (mu : Fin 4) (sa sb : Fin 2) (acc : Bool) (zmh : Fin 2) (rcd : Fin 256), Quiet s r →
    let q := s.seq r.val
    let g := sgwOf q.param rcd.val
    let b := g.budget
    let x := fun k : ClusterId => s.muOf k.val mu.val
    let page := fun (k : ClusterId) (p : Nat) => Tbl.get Page.empty (x k).pages p
    let zmap := fun k : ClusterId => Tbl.get ZMap.empty (x k).zmaps (2 * sb.val)
    let rows := fun pt : SlotPart => chunks 64 (pt.vals.map fun v => decodeFmt pt.fmt v.1 v.2) 32
    let dz := fun k : ClusterId => (rows (State.part (x k) (2 + sb.val) 0)).zipIdx.map fun row => row.1.zipIdx.map fun v =>
      if g.zmMode = 2 ∧ ((zmap k).bits.getD 0).testBit (64 * (32 * zmh.val + row.2) + v.2) then FVal.zero else v.1
    let ready := fun k : ClusterId => (∀ p ∈ setBits g.pos 4, (page k p).ready ≤ q.ic) ∧ (g.zmMode = 2 → (zmap k).ready ≤ q.ic)
    hasRec q.param 4 rcd.val = true →
    (∀ k : ClusterId, k.val / 8 = r.val → (x k).array ≤ q.ic ∧ (State.part (x k) (2 + sb.val) 0).ready ≤ q.ic ∧
      (g.zmMode = 2 → (zmap k).bits.isSome = true) ∧
      ∀ p ∈ setBits g.pos 4, s.tileOpen k.val mu.val p q.ic acc = true ∧ (State.part (x k) sa.val p).ready ≤ q.ic ∧ (page k p).built = true ∧
        (((page k p).entries.filter fun e => e.slot < 4096).map (·.slot)).Nodup) →
    Issues (.sgw r mu sa sb acc zmh rcd) r ((List.range 8).flatMap fun c => let k := 8 * r.val + c;
        [Reg.MU_CHAIN_STAT_LONG k mu.val, Reg.MU_CHAIN_STAT_LONG_CNT k mu.val, Reg.MU_FTZ_CNT_COUNT k mu.val, Reg.MU_OVF_CNT_COUNT k mu.val,
          Reg.MU_BUSY_LO_COUNT k mu.val, Reg.MU_BUSY_HI_COUNT k mu.val])
      (fun k y => ∃ m : Mu, OnlyMu mu.val m (s.clu k.val) y ∧
        m = { x k with tiles := m.tiles, array := q.ic + b, slotBusy := m.slotBusy, halfBusy := m.halfBusy, zmaps := m.zmaps } ∧
        (∀ j, Tbl.get 0 m.slotBusy j = if j = sa.val ∨ j = 2 + sb.val then q.ic + b else Tbl.get 0 (x k).slotBusy j) ∧
        (∀ j, Tbl.get 0 m.halfBusy j = if ∃ p ∈ setBits g.pos 4, p / 2 = j then q.ic + b else Tbl.get 0 (x k).halfBusy j) ∧
        (∀ j, Tbl.get ZMap.empty m.zmaps j = if g.zmMode = 2 ∧ j / 2 = sb.val then { Tbl.get ZMap.empty (x k).zmaps j with busy := q.ic + b }
          else Tbl.get ZMap.empty (x k).zmaps j) ∧
        (∀ p, p ∉ setBits g.pos 4 → Tbl.get AccTile.zero m.tiles p = s.tile k.val mu.val p) ∧
        ∀ p ∈ setBits g.pos 4, ∃ t : AccTile, Tbl.get AccTile.zero m.tiles p = t ∧ t.doneAt = q.ic + b + 9 ∧ t.accAt = q.ic + b ∧
          t.freeAt = (s.tile k.val mu.val p).freeAt ∧
          (¬ ready k → t.vals = (s.tile k.val mu.val p).vals ∧ t.cnt = (s.tile k.val mu.val p).cnt ∧ t.sgw = (s.tile k.val mu.val p).sgw) ∧
          (ready k → t.cnt = (if acc then (s.tile k.val mu.val p).cnt + 32 else 32) ∧ t.sgw = some (page k p).tag ∧
            (∀ e ∈ (page k p).entries, e.slot < 4096 → Tbl.get 0 t.vals e.slot = (chainRun (if acc then Tbl.get 0 (s.tile k.val mu.val p).vals e.slot else 0, 0, 0)
              (((rows (State.part (x k) sa.val p)).zip (dz k)).map fun v => (v.1.getD e.row .zero, v.2.getD e.col .zero))).1) ∧
            ∀ n, (∀ e ∈ (page k p).entries, e.slot < 4096 → e.slot ≠ n) → Tbl.get 0 t.vals n =
              if acc then Tbl.get 0 (s.tile k.val mu.val p).vals n else 0))
      (fun z => z = { q with cur := q.next, next := q.next + 1, last := max q.last (q.ic + b + 9), pend := z.pend, waves := z.waves, looks := z.looks } ∧
        (∀ k : ClusterId, k.val / 8 = r.val → ready k → ∃ l ∈ z.looks, l.ends = q.ic + b ∧ l.cl = k.val ∧ l.mu = mu.val) ∧
        (∀ l ∈ z.looks, ∃ k : ClusterId, k.val / 8 = r.val ∧ ready k ∧ l.cl = k.val) ∧
        ∀ p, p ∈ z.pend ↔ ∃ k : ClusterId, k.val / 8 = r.val ∧ ¬ ready k ∧
          p = ⟨q.ic, 10, k.val % 8, .product (.sgw mu.val sa.val sb.val acc zmh.val rcd.val) 0⟩) s

/-- DRAIN, and the entry-mode drain of a tile that an SGW wrote where R248 and R249 allow it: the drain reads row `row` in ic t +
row·occ/64 (log 173), so that the tile and the drain are free when the occupancy has passed; its bias is read at issue, or asked for by
remote reads; a drain with ZMAP writes its map when its last row leaves (Table 5.2). A tile outside the output takes its time and
nothing else. -/
def Obligations.DrainIssue : Prop :=
  ∀ (s : State) (r : RegionId) (mu tile : Fin 4) (rcd : Fin 256) (den : Bool) (drec : Fin 128) (e rt ct : Fin 16), Quiet s r →
    let q := s.seq r.val
    let ix := fun k : Fin 16 => if k.val = 0 then 0 else nth q.ix k.val
    let dr := drainOf q.param rcd.val
    let v := fun k : ClusterId => s.view r.val (k.val % 8) dr.outDesc (ix e)
    let idle := fun k : ClusterId => (v k).d.isZeroExt = true ∨ s.outside (v k) (ix rt) (ix ct) = true
    let occ := fun k : ClusterId => if idle k then 64 else s.outOcc r.val (k.val % 8) (v k).base 64 (v k) (ix rt) (ix ct)
    let old := fun k : ClusterId => s.tile k.val mu.val tile.val
    let dv := fun k : ClusterId => if (old k).sgw = none ∧ den then some drec.val else none
    let late := fun k : ClusterId => if (dv k).isSome then 14 else 8
    let bias := fun k : ClusterId => if idle k ∨ dr.bias = false then [] else
      State.distinct ((State.bodyCols (v k).d (ix ct)).map fun j => s.biasPlace r.val (k.val % 8) dr (ix ct) j / 64)
    let rowsOf := fun w : View => (List.range 64).flatMap fun n => State.windowRow w (64 * ix rt + n) (64 * ix ct) 64
    let outs := fun k : ClusterId => if idle k then [] else rowsOf (v k)
    let others := fun k : ClusterId => bias k ++ (if idle k then [] else match dv k with
      | some j => rowsOf (s.view r.val (k.val % 8) (derivOf q.param j).sdesc (ix e))
      | none => []) ++ if idle k ∨ dr.zmap = false then [] else unitsOf (s.mapPlace r.val (k.val % 8) dr (v k).d (ix e) (ix rt) (ix ct)) 512
    let row := fun (k : ClusterId) (num n : Nat) =>
      (⟨q.ic + n * occ k / 64, 0, k.val % 8, .drainRow num mu.val tile.val rcd.val (dv k) (ix e) (ix rt) (ix ct) n⟩ : Pend)
    let map := fun (k : ClusterId) (num : Nat) =>
      (⟨q.ic + occ k + late k, 1 + mu.val, k.val % 8, .drainMap num mu.val tile.val rcd.val (ix e) (ix rt) (ix ct) (2 ^ 4096 - 1)⟩ : Pend)
    hasRec q.param 1 rcd.val = true → (den = true → hasRec q.param 5 drec.val = true ∧ s.descOk r.val (derivOf q.param drec.val).sdesc (ix e) = true) →
    s.descOk r.val dr.outDesc (ix e) = true →
    (∀ k : ClusterId, k.val / 8 = r.val → (s.muOf k.val mu.val).drain ≤ q.ic ∧ s.tileInUse k.val mu.val tile.val q.ic = false ∧
      State.windowTiles r.val ((others k).map (64 * ·)) = [] ∧
      ∀ tag, (old k).sgw = some tag → den = false ∧ State.entryMode dr (v k).d = true ∧
        ((v k).d.layout = 1 → ∀ x, bodyTile s (v k) (ix rt) (ix ct) = some x → x.tag = tag ∧ x.bad = false)) →
    Open s r outs →
    Sends (.drain r mu tile rcd den drec e rt ct) r bankCounts
      (fun u k x => (∃ m : Mu, x = { s.clu k.val with mus := x.mus } ∧ Tbl.get Mu.empty x.mus mu.val = m ∧
          m = { s.muOf k.val mu.val with tiles := m.tiles, drain := q.ic + occ k, port := portAfter k.val mu.val q.ic (q.ic + late k) (outs k) (s.muOf k.val mu.val).port } ∧
          OnlyTile tile.val { old k with freeAt := q.ic + occ k } (s.muOf k.val mu.val).tiles m.tiles ∧
          ∀ j, j ≠ mu.val → Tbl.get Mu.empty x.mus j =
            { s.muOf k.val j with port := portAfter k.val j q.ic (q.ic + late k) (outs k) (s.muOf k.val j).port }) ∧
        ∃ num, s.wid ≤ num ∧ num < u.wid ∧ (¬ idle k → (∀ n < 64, row k num n ∈ (u.seq r.val).pend) ∧ (dr.zmap = true → map k num ∈ (u.seq r.val).pend)) ∧
          (bias k ≠ [] → if ∃ n ∈ bias k, State.farUnit k.val n = true then
              Fetches s u r k 0 num [bias k] q.ic (.takeBias num rcd.val (ix e) 0 (ix ct))
            else Tbl.get [] (u.seq r.val).biases num = (List.range 64).map fun j => if j ∈ State.bodyCols (v k).d (ix ct) then
              s.peekN (s.biasPlace r.val (k.val % 8) dr (ix ct) j) 4 else 0))
      (fun z => z = { q with cur := q.next, next := q.next + 1, last := z.last, pend := z.pend, asks := z.asks, biases := z.biases, waves := z.waves } ∧
        (∀ k : ClusterId, k.val / 8 = r.val → q.ic + occ k + 7 + late k + b2n dr.zmap ≤ z.last) ∧
        (dr.bias = false → ∀ p ∈ z.pend, ∃ k : ClusterId, k.val / 8 = r.val ∧ ¬ idle k ∧ ∃ num,
          (∃ n < 64, p = row k num n) ∨ dr.zmap = true ∧ p = map k num)) s

/-- The Sieve's operations: SV.LOAD reads the record of a body tile in waves of one granule a bank and gives its page position the ic at
which its entries are inserted; SV.ZMAP loads a zero map, complete after 10 ic (of a zero extent, ones: log 174); SV.TRANSPOSE writes
the exchanged mask from 9 ic after its read on, unless an extent is zero, and holds the mask path (log 35). -/
def Obligations.SieveLoads : Prop :=
  ∀ (s : State) (r : RegionId) (mu : Fin 4) (half u reg : Fin 2) (kind : Bool) (rcd rcd2 : Fin 256) (e a b : Fin 16), Quiet s r →
    let q := s.seq r.val
    let p := q.param
    let ix := fun k : Fin 16 => if k.val = 0 then 0 else nth q.ix k.val
    let x := fun k : ClusterId => s.muOf k.val mu.val
    let sr := sieveOf p rcd.val
    let view := fun (k : ClusterId) (i : Nat) => s.view r.val (k.val % 8) i (ix e)
    let port := fun (k : ClusterId) (m : Nat) (us : List Nat) => { s.muOf k.val m with port := portAfter k.val m q.ic q.ic us (s.muOf k.val m).port }
    let tile := fun k : ClusterId => bodyTile s (view k sr.wdesc) (ix a) (ix b)
    let units := fun k : ClusterId => match tile k with | some t => t.units | none => []
    let dir := fun k : ClusterId => match tile k with | some _ => [s.dirUnit (view k sr.wdesc) (ix a) (ix b)] | none => []
    let grans := fun k : ClusterId => State.distinct ((State.bankUnits k.val (units k)).map (· / 4))
    let waves := fun k : ClusterId => (splitWaves (grans k)).map fun l => (units k).filter fun n => l.contains (n % (spWin / 64) / 4)
    let near := fun k : ClusterId => dir k ++ (units k).filter fun n => (State.bankUnits k.val [n]).isEmpty
    let all := fun k : ClusterId => match waves k with | [] => [dir k ++ units k] | w :: ws => (near k ++ w) :: ws
    let done := fun k : ClusterId => q.ic + 9 + waveCost (grans k)
    let ready := fun k : ClusterId => done k +
      State.insertIcs (State.denseTile (tile k)) (s.pageOfTile (tile k) sr.trans (window (view k sr.wdesc).d (ix a) (ix b))).1
    let src := if kind then ((sgwOf p rcd.val).gdesc, (sgwOf p rcd.val).zmH, (sgwOf p rcd.val).zmOff) else (sr.adesc, sr.zmH, sr.zmOff)
    let map := fun k : ClusterId => s.handleBase r.val (k.val % 8) src.2.1 + src.2.2 +
      512 * (State.rowTile (view k src.1).d (ix e) (ix a) * (((view k src.1).d.span 0 + 63) / 64) + ix b)
    let zvoid := fun k : ClusterId => (view k src.1).d.isZeroExt = true
    let munits := fun k : ClusterId => if zvoid k then [] else unitsOf (map k) 512
    let mask := fun i : Nat => (descOf p i).space = 1 ∧ (descOf p i).fmt = 15 ∧ (descOf p i).layout = 0
    let w := fun k : ClusterId => view k rcd2.val
    let tvoid := fun k : ClusterId => (view k rcd.val).d.isZeroExt = true ∨ (w k).d.isZeroExt = true
    let load := fun k : ClusterId => loadTile s (view k rcd.val) none (ix a) 0 1 128
    let tunits := fun k : ClusterId => if tvoid k then [] else (load k).2
    let span := fun k : ClusterId => if ¬ tvoid k ∧ State.farUnit k.val ((w k).base / 64) = true then 8 else 1
    let words := fun k : ClusterId =>
      let m := transposeBits (ofLe ((load k).1.flatMap fun n => toLe 4 n.1))
      (List.range 128).map fun j => if isBody (w k).d (ix b) j then some (bitsOf m (32 * j + 31) (32 * j), 127) else none
    let drow := fun k : ClusterId => State.windowRow (w k) (ix b) 0 128
    let far := fun (k : ClusterId) (us : List Nat) => ∃ n ∈ us, State.farUnit k.val n = true
    (hasRec p 2 rcd.val = true → s.descOk r.val sr.wdesc (ix e) = true → Open s r (fun k => dir k ++ units k) →
      (∀ k : ClusterId, k.val / 8 = r.val → Tbl.get 0 (x k).halfBusy half.val ≤ q.ic ∧ (x k).insert ≤ done k ∧ done k ∉ (s.clu k.val).mask) →
      Sends (.svLoad r mu half u rcd e a b) r []
        (fun v k y => (∃ pages, y = { s.clu k.val with mus := y.mus, mask := done k :: (s.clu k.val).mask.filter fun n => decide (q.ic ≤ n) } ∧
            (∀ m, Tbl.get Mu.empty y.mus m = if m = mu.val then { port k m (dir k ++ units k) with pages := pages, insert := ready k }
              else port k m (dir k ++ units k)) ∧
            Tbl.get Page.empty pages (2 * half.val + u.val) = ⟨true, State.denseTile (tile k), (view k sr.wdesc).d.fmt, [], Tile.zero.tag, ready k⟩ ∧
            ∀ j, j ≠ 2 * half.val + u.val → Tbl.get Page.empty pages j = Tbl.get Page.empty (x k).pages j) ∧
          ∃ fid, Fetches s v r k 2 fid (all k) (q.ic + ((waves k).length - 1)) (.takeSv fid q.ic (.load mu.val half.val u.val rcd.val (ix e) (ix a) (ix b))))
        (fun z => z = { q with cur := q.next, next := q.next + 1, last := z.last, pend := z.pend, asks := z.asks, waves := z.waves } ∧
          ∀ k : ClusterId, k.val / 8 = r.val → ready k ≤ z.last) s) ∧
    (hasRec p (if kind then 4 else 2) rcd.val = true → s.descOk r.val src.1 (ix e) = true → Open s r munits →
      (∀ k : ClusterId, k.val / 8 = r.val → (Tbl.get ZMap.empty (x k).zmaps (2 * reg.val + u.val)).busy ≤ q.ic) →
      Sends (.svZmap r mu u reg kind rcd e a b) r bankCounts
        (fun v k y => (∃ zmaps, y = { s.clu k.val with mus := y.mus } ∧
            (∀ m, Tbl.get Mu.empty y.mus m = if m = mu.val then { port k m (munits k) with zmaps := zmaps } else port k m (munits k)) ∧
            Tbl.get ZMap.empty zmaps (2 * reg.val + u.val) = ⟨some (if zvoid k then 2 ^ 4096 - 1
              else if far k (munits k) then (Tbl.get ZMap.empty (x k).zmaps (2 * reg.val + u.val)).bits.getD 0 else s.peekN (map k) 512), q.ic + 10, 0⟩ ∧
            ∀ j, j ≠ 2 * reg.val + u.val → Tbl.get ZMap.empty zmaps j = Tbl.get ZMap.empty (x k).zmaps j) ∧
          (far k (munits k) → ∃ fid, Fetches s v r k 2 fid [munits k] q.ic
            (.takeSv fid q.ic (.zmap mu.val u.val reg.val kind rcd.val (ix e) (ix a) (ix b)))))
        (fun z => z = { q with cur := q.next, next := q.next + 1, last := max q.last (q.ic + 10), pend := z.pend, asks := z.asks, waves := z.waves } ∧
          ((∀ k : ClusterId, k.val / 8 = r.val → ¬ far k (munits k)) → z.pend = [] ∧ z.asks = [])) s) ∧
    (s.descOk r.val rcd.val (ix e) = true → s.descOk r.val rcd2.val (ix e) = true → mask rcd.val → mask rcd2.val →
      Open s r (fun k => tunits k ++ drow k) →
      (∀ k : ClusterId, k.val / 8 = r.val → (view k rcd.val).d.ext 0 = 128 ∧ (w k).d.ext 0 = 128 ∧ ∀ j < span k, q.ic + 8 + j ∉ (s.clu k.val).mask) →
      Sends (.svTranspose r rcd rcd2 e a b) r bankCounts
        (fun v k y => y = { s.clu k.val with mus := y.mus, mask := (List.range (span k)).map (q.ic + 8 + ·) ++ (s.clu k.val).mask.filter fun n => decide (q.ic ≤ n) } ∧
          (∀ m, Tbl.get Mu.empty y.mus m = { s.muOf k.val m with
            port := portAfter k.val m q.ic (q.ic + 9) (drow k) (portAfter k.val m q.ic q.ic (tunits k ++ drow k) (s.muOf k.val m).port) }) ∧
          (far k (tunits k) → ∃ fid, Fetches s v r k 2 fid [tunits k] q.ic (.takeSv fid q.ic (.transpose rcd.val rcd2.val (ix e) (ix a) (ix b)))))
        (fun z => z = { q with cur := q.next, next := q.next + 1, last := z.last, pend := z.pend, asks := z.asks, waves := z.waves } ∧
          (∀ k : ClusterId, k.val / 8 = r.val → q.ic + 16 + span k ≤ z.last ∧ (¬ tvoid k → ¬ far k (tunits k) → ∀ n,
            Leaves k (q.ic + 9) 6 (if (w k).d.smode = 1 then some 15 else none)
              (if (w k).d.smode = 1 then accumRow (w k) (ix b) 0 (words k) else storeCodes (w k) (ix b) 0 (words k)) n → n ∈ z.pend)) ∧
          ((∀ k : ClusterId, k.val / 8 = r.val → tvoid k) → z.pend = [] ∧ z.asks = [])) s)

/-- A Shears pass of the named kind occupies the engines of every cluster for 16·TCOUNT + 36 ic and starts tile group n in ic t + 16 n
(R234); a pass of no tile changes nothing, and a record of another kind issues nothing. What the passes choose: the threshold pass keeps
the entries whose criterion is a number of at least the threshold's magnitude, and RECODE keeps every entry (R215, R226). -/
def Obligations.ShearsPassesAndChoices : Prop :=
  (∀ (s : State) (r : RegionId) (rcd : Fin 256) (op : Fin 7), Quiet s r →
    let q := s.seq r.val
    let sr := shearsOf q.param rcd.val
    let pass := [Instr.pruneThresh r rcd, .pruneTopk r rcd, .growGrad r rcd, .growRand r rcd, .remaskGrad r rcd, .remaskRand r rcd, .recode r rcd].getD op.val (.recode r rcd)
    (sr.op ≠ op.val → exec pass s = .next s) ∧
    (sr.op = op.val → hasRec q.param 3 rcd.val = true → (∀ k : ClusterId, k.val / 8 = r.val → (s.clu k.val).shears ≤ q.ic) →
      (sr.tcount = 0 → Issues pass r [] (fun k x => x = s.clu k.val) (Issued q q.last []) s) ∧
      (0 < sr.tcount → Issues pass r [] (fun k x => x = { s.clu k.val with shears := q.ic + 16 * sr.tcount + 36 })
        (fun z => Issued q (q.ic + 16 * sr.tcount + 36) z.pend z ∧
          ∀ p, p ∈ z.pend ↔ ∃ c < 8, ∃ n < sr.tcount, p = ⟨q.ic + 16 * n, 0, c, .group rcd.val n⟩) s))) ∧
  (∀ (sr : ShearsRec) (crit : Nat → FVal) (cand : Nat → Option FVal) (start : List Nat) (n : Nat) (win : Nat × Nat),
    let ch := choose sr crit cand start n win
    (sr.op = 0 → (∀ p, p ∈ ch.cur ↔ p ∈ start ∧ (crit p).isNan = false ∧ FVal.lt (crit p).abs (f32 sr.thresh) = false) ∧
      ch.pruned + ch.cur.length = start.length ∧ ch.nGrown = 0) ∧
    (sr.op = 6 → ch.cur = start ∧ ch.pruned = 0 ∧ ch.nGrown = 0))

/-- VLD gathers 4 rows of a tile (8 with W), due in VD 9 ic after its last read wave: what a cluster's banks hold at issue, and what its
windows or other places hold once their bytes have come. VST stores them from its own ic on, in rows of an ic each into the cluster's
own window; a store of bytes into the cluster's own banks changes exactly those. A zero extent loads nothing. VLDS and VSTS address the
value slots of one tile of a sparse array whose tag equals that of the reference array's tile. VLDS reads the record in two waves and
takes the lanes of block B from it: slot 256·B + l in lane l where a live entry inside the window has that slot, 0 elsewhere. VSTS
buffers its lanes, and with LAST reads the record, to store what is buffered. A zero extent does nothing. -/
def Obligations.VectorMemory : Prop :=
  (∀ (s : State) (r : RegionId) (v : Fin 32) (w : Bool) (rcd : Fin 256) (e a b : Fin 16), Quiet s r →
    let q := s.seq r.val
    let ix := fun k : Fin 16 => if k.val = 0 then 0 else nth q.ix k.val
    let d := descOf q.param rcd.val
    let rows := if w then 8 else 4
    let view := fun k : ClusterId => s.view r.val (k.val % 8) rcd.val (ix e)
    let load := fun k : ClusterId => loadTile s (view k) none (rows * ix a) (64 * ix b) rows 64
    let waves := fun k : ClusterId => State.windowWaves k.val (load k).2
    let slow := fun k : ClusterId => 1 < (waves k).length ∨ ∃ u ∈ (load k).2, State.farUnit k.val u = true
    let here := fun c : Nat => (Fin.ofNat 256 (8 * r.val + c) : ClusterId)
    let lane := fun (k : ClusterId) (x : (Nat × Nat) × Nat) =>
      let kind := clsOf (view k).d none ((view k).d.idx (rows * ix a + x.2 / 64) (64 * ix b + x.2 % 64))
      if kind = .pad ∨ kind = .cpad then (padCode (if w then 1 else 0) d.pad).1
      else if d.fmt = (if w then 1 else 0) then x.1.1 else (convElem d.fmt 0 .rne (decodeFmt d.fmt x.1.1 x.1.2)).1
    let words := fun k : ClusterId => packLanes w ((load k).1.zipIdx.map (lane k))
    let result := fun k : ClusterId => (⟨q.ic + 9, 0, k.val % 8, .vreg v.val (words k)⟩ : Pend)
    let row := fun (k : ClusterId) (i : Nat) => storeRow (view k) (rows * ix a + i) (64 * ix b) (if w then 1 else 0)
      (((lanesOf w (s.vreg k.val v.val)).drop (64 * i)).take 64 |>.zipIdx.map fun y =>
        if isBody (view k).d (rows * ix a + i) (64 * ix b + y.2) then
          some (decodeElem (efmt (if w then 1 else 0)) y.1,
            rndOf (s.roundingOf r.val rcd.val) (elemIndex (view k).d (ix e) (rows * ix a + i) (64 * ix b + y.2)))
        else none)
    let acc := if d.smode = 1 then some d.fmt else none
    let lists := fun k : ClusterId => (List.range rows).map fun i =>
      if d.smode = 1 then accumRow (view k) (rows * ix a + i) (64 * ix b) (row k i).2.1 else (row k i).1
    let own := fun k : ClusterId => State.inWindow (view k).base = true ∧ State.farUnit k.val ((view k).base / 64) = false
    let targets := fun k : ClusterId => State.distinct ((lists k).flatten.map fun p => p.1 / 64)
    s.descOk r.val rcd.val (ix e) = true → d.layout ≠ 1 → d.fmt ≠ 15 → (w = true → d.fmt = 1) →
    ((view (here 0)).d.isZeroExt = true →
      Issues (.vld r v w rcd e a b) r [] (fun k x => x = s.clu k.val) (Issued q (q.ic + 9) []) s) ∧
    ((view (here 0)).d.isZeroExt = false → Open s r (fun k => (load k).2) →
      Sends (.vld r v w rcd e a b) r (vuCounts r.val ++ bankCounts)
        (fun u k x => PortsTaken k q.ic q.ic (load k).2 (s.clu k.val) x ∧
          (¬ slow k → result k ∈ (u.seq r.val).pend) ∧
          (slow k → ∃ fid, Fetches s u r k 1 fid (waves k) (q.ic + (waves k).length - 1)
            (.takeVu fid (q.ic + (waves k).length - 1) (.vld v.val w rcd.val (ix e) (ix a) (ix b)))))
        (fun z => z = { q with cur := q.next, next := q.next + 1, pend := z.pend, asks := z.asks, waves := z.waves, last := (List.range 8).foldl (fun n c => max n (q.ic + (waves (here c)).length + 8)) q.last } ∧
          ((∀ c < 8, ¬ slow (here c)) → z.pend = (List.range 8).map (fun c => result (here c)) ∧ z.asks = [])) s) ∧
    (Open s r targets →
      Issues (.vst r v w rcd e a b) r (vuCounts r.val) (fun k x => PortsTaken k q.ic q.ic (targets k) (s.clu k.val) x)
        (fun z => z = { q with cur := q.next, next := q.next + 1, pend := z.pend, last := z.last, waves := z.waves } ∧
          q.ic + 9 ≤ z.last ∧ q.last ≤ z.last ∧
          ∀ x, x ∈ z.pend ↔ ∃ k : ClusterId, k.val / 8 = r.val ∧
            (own k ∧ (∃ i l, (lists k)[i]? = some l ∧ Leaves k (q.ic + i) 5 acc l x) ∨ ¬ own k ∧ Leaves k q.ic 5 acc (lists k).flatten x)) s) ∧
    (Open s r targets → d.smode ≠ 1 → d.aliasOk = false → s.rd Reg.DBG_INJ_ARM = 0 →
      (∀ k : ClusterId, k.val / 8 = r.val → ¬ own k ∧ InBanks k.val (targets k) ∧ (s.clu k.val).groups = []) →
      Yields (.vst r v w rcd e a b) s fun t =>
        t = { s with regs := t.regs, seqs := t.seqs, mem := t.mem, aliased := t.aliased } ∧
        t.seq r.val = { q with cur := q.next, next := q.next + 1, ic := q.ic + 1, last := max q.last (q.ic + 9), waves := (t.seq r.val).waves } ∧
        (∀ k, k ≠ r.val → t.seq k = s.seq k) ∧
        ∀ x, t.peek x = overlay ((List.range 8).flatMap fun c => (lists (here c)).flatten) x (s.peek x))) ∧
  (∀ (s : State) (r : RegionId) (v : Fin 32) (last : Bool) (rcd ref : Fin 256) (e a b : Fin 16), Quiet s r →
    let q := s.seq r.val
    let ix := fun k : Fin 16 => if k.val = 0 then 0 else nth q.ix k.val
    let named := fun k : ClusterId => s.slotTile r.val (k.val % 8) rcd.val ref.val (ix e) (ix a)
    let waves := fun k : ClusterId => State.recordWaves (named k).2.1
    let here := (Fin.ofNat 256 (8 * r.val) : ClusterId)
    let cols := max 1 (((named here).1.d.ext 0 + 63) / 64)
    let block := fun l : Nat => 256 * ix b + l
    s.slotOk r.val rcd.val ref.val (ix e) = true →
    ((named here).1.d.isZeroExt = true →
      Issues (.vlds r v ref rcd e a b) r [] (fun k x => x = s.clu k.val) (Issued q (q.ic + 10) []) s ∧
      ((∀ k : ClusterId, k.val / 8 = r.val → ∀ y, (s.clu k.val).vsts = some y → y.rcd = rcd.val ∧ y.entry = ix e ∧ y.tile = ix a) →
        Issues (.vsts r v ref last rcd e a b) r [] (fun k x => x = s.clu k.val) (Issued q q.last []) s)) ∧
    ((named here).1.d.isZeroExt = false → (∀ k : ClusterId, k.val / 8 = r.val → (named k).2.2 = true) →
      (Open s r (fun k => (waves k).flatten) →
        Sends (.vlds r v ref rcd e a b) r []
          (fun u k x => PortsTaken k q.ic q.ic (waves k).flatten (s.clu k.val) x ∧
            ∃ fid, Fetches s u r k 1 fid (waves k) (q.ic + 1) (.takeVu fid (q.ic + 1) (.vlds v.val ref.val rcd.val (ix e) (ix a) (ix b))))
          (fun z => z = { q with cur := q.next, next := q.next + 1, pend := z.pend, asks := z.asks, waves := z.waves, last := max q.last (q.ic + 10) }) s) ∧
      (∀ (k : ClusterId) (t : Tile) (l : Nat), (named k).2.1 = some t → l < 256 →
        let lanes := (s.slotWords (named k).1 (named k).2.1 (ix a) (ix b)).1
        let inside := fun n : TEnt => n.slot = block l ∧ n.slot < t.scount ∧ n.row < (window (named k).1.d (ix a / cols) (ix a % cols)).1 ∧
          n.col < (window (named k).1.d (ix a / cols) (ix a % cols)).2
        (∀ n ∈ t.live, inside n → (t.live.filter fun m => m.slot == n.slot) = [n] → nth lanes l = (convElem t.vfmt 0 .rne (t.value s n)).1) ∧
        ((∀ n ∈ t.live, ¬ inside n) → nth lanes l = 0)) ∧
      ((∀ k : ClusterId, k.val / 8 = r.val → ∀ y, (s.clu k.val).vsts = some y → y.rcd = rcd.val ∧ y.entry = ix e ∧ y.tile = ix a) →
        let old := fun k : ClusterId => match (s.clu k.val).vsts with | some y => y.lanes | none => []
        (last = false → Issues (.vsts r v ref last rcd e a b) r []
          (fun k x => ∃ y, x = { s.clu k.val with vsts := some y } ∧ y.rcd = rcd.val ∧ y.entry = ix e ∧ y.tile = ix a ∧
            (∀ l < 256, Tbl.get 0 y.lanes (block l) = nth (s.vreg k.val v.val) l) ∧
            ∀ n, (∀ l < 256, n ≠ block l) → Tbl.get 0 y.lanes n = Tbl.get 0 (old k) n)
          (Issued q q.last []) s) ∧
        (last = true → Open s r (fun k => (waves k).flatten) → Sends (.vsts r v ref last rcd e a b) r []
          (fun u k x => PortsTaken k q.ic q.ic (waves k).flatten { s.clu k.val with vsts := none } x ∧
            ∃ fid, Fetches s u r k 1 fid (waves k) (q.ic + 1) (.takeVu fid (q.ic + 1) (.vsts v.val ref.val last rcd.val (ix e) (ix a) (ix b))) ∧
              (∀ l < 256, block l * 2 ^ 32 + nth (s.vreg k.val v.val) l ∈ Tbl.get [] (u.seq r.val).biases fid) ∧
              ∀ p ∈ old k, (∀ l < 256, p.1 ≠ block l) → p.1 * 2 ^ 32 + p.2 % 2 ^ 32 ∈ Tbl.get [] (u.seq r.val).biases fid)
          (fun z => z = { q with cur := q.next, next := q.next + 1, pend := z.pend, asks := z.asks, waves := z.waves, biases := z.biases, last := max q.last (q.ic + 20) }) s))))

/-- The integer and selecting operations of the vector units: lane by lane the value of Table 10.10, due in VD after 4 ic; VMOVI after
2. The floating-point operations of the vector units: lane by lane, in FP32 or with W in BF16, the exact result of Table 10.10 rounded
once to nearest even, due in VD after 4 ic. Reductions of the vector units: the 64 lanes of each group in ascending order from the first
lane of VC's group, rounded at every step, in every lane of the group after 12 ic; a transcendental function of every lane after 16 ic,
which keeps the pipe for 4. -/
def Obligations.VectorArithmetic : Prop :=
  (∀ (s : State) (r : RegionId) (vd va vb vc : Fin 32) (imm : BitVec 32), Quiet s r →
    let x := fun (v : Fin 32) (k : ClusterId) (i : Nat) => BitVec.ofNat 32 (Tbl.get 0 (s.clu k.val).vregs (256 * v.val + i))
    let lanes := fun (f : BitVec 32 → BitVec 32 → BitVec 32) (k : ClusterId) => (List.range 256).map fun i => (f (x va k i) (x vb k i)).toNat
    Yields (.viadd r vd va vb) s (VectorDue r vd 4 (lanes fun a b => a + b) s) ∧
    Yields (.visub r vd va vb) s (VectorDue r vd 4 (lanes fun a b => a - b) s) ∧
    Yields (.vimul r vd va vb) s (VectorDue r vd 4 (lanes fun a b => a * b) s) ∧
    Yields (.vimulhu r vd va vb) s (VectorDue r vd 4 (lanes fun a b => BitVec.ofNat 32 (a.toNat * b.toNat / 2 ^ 32)) s) ∧
    Yields (.vicarry r vd va vb) s (VectorDue r vd 4 (lanes fun a b => if 2 ^ 32 ≤ a.toNat + b.toNat then 1 else 0) s) ∧
    Yields (.vishl r vd va vb) s (VectorDue r vd 4 (lanes fun a b => a <<< (b.toNat % 32)) s) ∧
    Yields (.vishr r vd va vb) s (VectorDue r vd 4 (lanes fun a b => a >>> (b.toNat % 32)) s) ∧
    Yields (.viand r vd va vb) s (VectorDue r vd 4 (lanes fun a b => a &&& b) s) ∧
    Yields (.vior r vd va vb) s (VectorDue r vd 4 (lanes fun a b => a ||| b) s) ∧
    Yields (.vixor r vd va vb) s (VectorDue r vd 4 (lanes fun a b => a ^^^ b) s) ∧
    Yields (.viclz r vd va) s (VectorDue r vd 4 (lanes fun a _ => if a = 0 then 32 else BitVec.ofNat 32 (31 - Nat.log2 a.toNat)) s) ∧
    Yields (.vsel r vd va vb vc) s (VectorDue r vd 4 (fun k => (List.range 256).map fun i =>
      if x vc k i ≠ 0 then (x va k i).toNat else (x vb k i).toNat) s) ∧
    Yields (.vmovi r vd imm) s (VectorDue r vd 2 (fun _ => List.replicate 256 imm.toNat) s)) ∧
  (∀ (s : State) (r : RegionId) (vd va vb vc : Fin 32) (w : Bool), Quiet s r →
    let x := fun (v : Fin 32) (k : ClusterId) => lanesOf w (s.vreg k.val v.val)
    let val := decodeElem (efmt (if w then 1 else 0))
    let code := fun v : FVal => (roundElem (efmt (if w then 1 else 0)) .rne false v).1
    let lanes := fun (f : FVal → FVal → FVal) (k : ClusterId) => packLanes w (((x va k).zip (x vb k)).map fun p => code (f (val p.1) (val p.2)))
    Yields (.vadd r vd va vb w) s (VectorDue r vd 4 (lanes fun a b => a.add b) s) ∧
    Yields (.vsub r vd va vb w) s (VectorDue r vd 4 (lanes fun a b => a.add b.neg) s) ∧
    Yields (.vmul r vd va vb w) s (VectorDue r vd 4 (lanes fun a b => a.mul b) s) ∧
    Yields (.vmax r vd va vb w) s (VectorDue r vd 4 (lanes fun a b => a.max b) s) ∧
    Yields (.vmin r vd va vb w) s (VectorDue r vd 4 (lanes fun a b => a.min b) s) ∧
    Yields (.vfma r vd va vb vc w) s (VectorDue r vd 4 (fun k => packLanes w (((x va k).zip ((x vb k).zip (x vc k))).map fun p =>
      code (((val p.1).mul (val p.2.1)).add (val p.2.2)))) s) ∧
    (w = false →
      Yields (.vabs r vd va) s (VectorDue r vd 4 (fun k => (x va k).map fun a => code (val a).abs) s) ∧
      Yields (.vneg r vd va) s (VectorDue r vd 4 (fun k => (x va k).map fun a => code (val a).neg) s) ∧
      Yields (.vcmplt r vd va vb) s (VectorDue r vd 4 (fun k => ((x va k).zip (x vb k)).map fun p =>
        if (val p.1).lt (val p.2) then 4294967295 else 0) s))) ∧
  (∀ (s : State) (r : RegionId) (vd va vc : Fin 32) (fn : Fin 32), Quiet s r →
    let group := fun (f : FVal → FVal → FVal) (k : ClusterId) (g : Nat) =>
      (List.range 64).foldl (fun acc i => (toF32 (f (f32 acc) (f32 (nth (s.vreg k.val va.val) (64 * g + i))))).1) (nth (s.vreg k.val vc.val) (64 * g))
    Yields (.vrsum r vd va vc) s (VectorDue r vd 12 (fun k => (List.range 4).flatMap fun g => List.replicate 64 (group FVal.add k g)) s) ∧
    Yields (.vrmax r vd va vc) s (VectorDue r vd 12 (fun k => (List.range 4).flatMap fun g => List.replicate 64 (group FVal.max k g)) s) ∧
    (fn.val < 10 → (∀ c < 8, (s.clu (8 * r.val + c)).vtr ≤ (s.seq r.val).ic) → Yields (.vtr r vd va fn) s fun t =>
      (∀ k : ClusterId, t.clu k.val = if k.val / 8 = r.val then { s.clu k.val with vtr := (s.seq r.val).ic + 4 } else s.clu k.val) ∧
      VectorDue r vd 16 (fun k => (s.vreg k.val va.val).map fun a => (vtr fn.val (f32 a)).1) s { t with clus := s.clus }))

/-- Transfers: DMA.GO puts its record and coordinates at the end of the queue of its channel, and holds the island where four wait
there; at the front of the queue it asks for its scratchpad source at once, and reads its HBM source through the home caches. MOVE reads
its source in waves, or by window rows and remote reads, and its engine is free when the last wave, row or 64 bytes have passed (R295,
R296, R320). DMA_TRANSFER_DONE: an empty queue and a transfer with accesses on their way have nothing to complete; else the head's bytes
for HBM are written, its event, where enabled, increments, and it leaves the queue; a transfer whose accesses met a fault brings it to
its launch. -/
def Obligations.TransfersAndCompletion : Prop :=
  (∀ (s : State) (r : RegionId) (rcd : Fin 256) (e rt ct : Fin 16), Quiet s r →
    let q := s.seq r.val
    let q1 := { q with cur := q.next, next := q.next + 1 }
    let ix := fun k : Fin 16 => if k.val = 0 then 0 else nth q.ix k.val
    let m := dmaOf q.param rcd.val
    let ch := 16 * (r.val / 8) + 2 * (r.val % 8) + m.chan
    let x := Xfer.queued r.val rcd.val (ix e) (ix rt) (ix ct)
    let waiting := Tbl.get [] s.dmaq ch
    let into := fun l : List Xfer => { s with dmaq := Tbl.set [] s.dmaq ch l }
    let passes := fun (v t : State) => Passed r { q1 with ic := q.ic + 1, waves := [] } [] v t
    let runs := (s.rd (Reg.CLK_DOM_STAT_RUN)).testBit (r.val / 8) = true
    let units := (into [x]).xferUnits x
    let mv := fun k : ClusterId => s.movePart r.val (k.val % 8) x
    let outs := fun k : ClusterId => State.distinct ((State.movedTo (mv k)).map (· / 64))
    let inB := fun k : ClusterId => State.movedInBanks (mv k) k.val
    let waves := fun k : ClusterId => if inB k then (State.moveWaves (mv k).units).map fun g => (mv k).units.filter fun u => g.contains (u / 4)
      else State.windowWaves k.val (State.distinct (mv k).units)
    let n := fun k : ClusterId => (waves k).length
    let w := fun k : ClusterId => (State.moveWaves ((State.movedTo (mv k)).map (· / 64))).length
    let meet := fun k : ClusterId => State.samePort k.val (mv k).units (outs k) = true
    let start := fun k : ClusterId => if inB k = true ∨ meet k then q.ic + n k else q.ic + n k - 1
    let free := fun k : ClusterId => if inB k then q.ic + n k + w k
      else if meet k then max (q.ic + State.movedOcc (mv k) k.val) (start k + State.portSpan k.val (outs k)) else q.ic + State.movedOcc (mv k) k.val
    s.moveOk r.val rcd.val (ix e) = true →
    (waiting.length < 4 → (∀ y, waiting.head? = some y → y.phase ≠ 0) → waiting ≠ [] ∨ ¬ runs →
      Yields (.dmaGo r rcd e rt ct) s (passes (into (waiting ++ [x])))) ∧
    (waiting = [] → runs → (∀ k ∈ (into [x]).xferRegions x, s.rd (In.gateDrain k) = 0) → units ≠ [] → (∀ u ∈ units, State.destOf (64 * u) < 256) →
      Yields (.dmaGo r rcd e rt ct) s (passes { into [{ x with phase := 1 }] with
        wid := s.wid + units.length,
        remotes := s.remotes ++ units.zipIdx.map fun u => ⟨s.wid + u.2, 32 + ch, ch, State.destOf (64 * u.1), u.1, some 0, none, []⟩ })) ∧
    (waiting = [] → runs → (∀ k ∈ (into [x]).xferRegions x, s.rd (In.gateDrain k) = 0) → (∀ u ∈ units, 256 ≤ State.destOf (64 * u)) →
      let y := ((into [x]).checkReadsAs (!m.whole) (State.distinct (units.map (· / 4)))).1
      (∀ u ∈ units, ∀ k o, place (256 * (u / 4)) = .hbm k o → s.stackStatus k = 0 ∧ Tbl.get 0 y.poison (u / 4) ≠ 1) →
      Yields (.dmaGo r rcd e rt ct) s (passes ((y.setHead ch { x with phase := 1 }).dmaSend ch))) ∧
    (4 ≤ waiting.length → Yields (.dmaGo r rcd e rt ct) s fun t => t = { s with seqs := t.seqs } ∧ t.seq r.val = { q1 with holds := [.dma ch x] } ∧
      ∀ k, k ≠ r.val → t.seq k = s.seq k) ∧
    (m.stashEn = false → Open s r (fun k => (mv k).units ++ outs k) → (∀ k : ClusterId, k.val / 8 = r.val → (s.clu k.val).move ≤ q.ic) →
      Sends (.move r rcd e rt ct) r []
        (fun u k y => y = { s.clu k.val with mus := y.mus, move := free k } ∧
          (∀ j, Tbl.get Mu.empty y.mus j = { s.muOf k.val j with
            port := portAfter k.val j q.ic (start k) (outs k) (portAfter k.val j q.ic q.ic (mv k).units (s.muOf k.val j).port) }) ∧
          ∃ fid, Fetches s u r k 4 fid (waves k) (q.ic + n k - 1) (.takeMv fid (start k) (.move rcd.val (ix e) (ix rt) (ix ct))))
        (fun z => z = { q1 with last := z.last, pend := z.pend, asks := z.asks, waves := z.waves } ∧
          ∀ k : ClusterId, k.val / 8 = r.val → (if inB k then free k + 16 else free k - 1) ≤ z.last) s)) ∧
  (∀ (s : State) (d : DieId) (ch : ChanId),
    let key := 16 * d.val + ch.val
    let runs := (s.rd (Reg.CLK_DOM_STAT_RUN)).testBit d.val = true
    let busy := fun x : Xfer => x.phase = 1 ∨ x.rows ≠ [] ∨ (∃ w ∈ s.remotes, w.src = 32 + key) ∨ ∃ y ∈ Tbl.get [] s.stashq d.val, y.chan = 1 + key
    (Tbl.get [] s.dmaq key = [] ∨ ¬ runs → exec (.dmaTransferDone d ch) s = .next s) ∧
    ∀ (x : Xfer) (l : List Xfer), Tbl.get [] s.dmaq key = x :: l → runs →
      (x.phase ≠ 0 → busy x → exec (.dmaTransferDone d ch) s = .next s) ∧
      (x.phase = 2 → ¬ busy x → s.touchesProtected x.out = true → exec (.dmaTransferDone d ch) s = .next (s.queueTouched x.out)) ∧
      (x.phase = 2 → ¬ busy x → x.fault = none → l = [] → s.touchesProtected x.out = false → s.rd Reg.DBG_INJ_ARM = 0 →
        (∀ p ∈ x.out, p.2 < 256 ∧ ∃ k o, place p.1 = .hbm k o ∧ s.stackStatus k = 0) →
        let m := dmaOf (s.seq x.region).param x.rcd
        let evt := Reg.SQ_EVT_VALUE m.evtRegion m.evtCtr
        Yields (.dmaTransferDone d ch) s fun t => Tbl.get [] t.dmaq key = [] ∧ (∀ k, k ≠ key → Tbl.get [] t.dmaq k = Tbl.get [] s.dmaq k) ∧
          (∀ a, t.peek a = overlay x.out a (s.peek a)) ∧ t.rd evt = (if m.evtEn then (s.rd evt + 1) % 2 ^ 32 else s.rd evt) ∧
          (x.out = [] → t = { s with dmaq := t.dmaq, regs := t.regs } ∧ Untouched [evt] s t)) ∧
      (x.phase = 2 → ¬ busy x → ∀ code, x.fault = some code → l = [] → s.touchesProtected x.out = false →
        (s.active x.region = true → x.region < 32 → Yields (.dmaTransferDone d ch) s fun t => Tbl.get [] t.dmaq key = [] ∧
          t.rd (Reg.SQ_FAULT_CODE x.region) = sqCode code ∧ t.rd (Reg.SQ_FAULT_SLOT x.region) = 4) ∧
        (s.active x.region = false → exec (.dmaTransferDone d ch) s = .next { s with dmaq := Tbl.set [] s.dmaq key [] })))

/-- The end of an ic in which nothing falls due and no Shears group runs: one period, and one more for every ic of bank time that its
accesses ask beyond the first (R114); the sequencer goes on by one ic, and nothing else changes. What a fetch has brought is taken up in
the ic in which it is due: an operand tile fills its slot, the lanes of a VLD or VLDS are due in their register, a page of the Sieve
gets its entries and a zero map its bits, and the writes of a MOVE leave. A held island resumes when what it waits for has come: the
periods of the hold are counted under its cause, the Sieve has gone on meanwhile, a transfer that waited is queued, and the ic ends;
until then nothing happens. Of a hold that ended with its launch the periods alone are counted (log 176). A wait longer than the limit
faults the launch, and with no limit it does not (R302, R209). An increment arrives at its counter, modulo 2^32, when the writes it
covers are complete, and not before (R306). A remote access is served at the head of its bank's queue, in an ic that the bank does not
use, after at most 64 ic or then by force: a write lands in the bank that it names and nowhere else, a read brings its 64 bytes to its
fetch, whose last read lets the waiting work go on, and the wait is counted. A gated region is woken by it and serves it later, one that
closes does not serve it (R130, R351, R508). A stash row goes to HBM and its bytes are counted; a LOST stack refuses it (R267). -/
def Obligations.HoldsEventsAndRemoteWrites : Prop :=
  (∀ (s : State) (r : RegionId),
    let q := s.seq r.val
    let t := s.finish r.val
    let top := ((List.range 8).map fun c => (State.stretchOf (q.waves.filter fun w => w.ic == q.ic) (8 * r.val + c)).1).foldl max 0
    let per := fun u : State => u.rd (Reg.CLK_PER_LO_COUNT r.val) + u.rd (Reg.CLK_PER_HI_COUNT r.val) * 2 ^ 32
    q.holds = [] → q.looks = [] → (∀ p ∈ q.pend, q.ic < p.due) → (∀ k : ClusterId, k.val / 8 = r.val → (s.clu k.val).groups = []) →
    t = { s with regs := t.regs, seqs := t.seqs } ∧ t.seq r.val = { q with ic := q.ic + 1, waves := q.waves.filter fun w => q.ic ≤ w.ic } ∧
      (∀ k, k ≠ r.val → t.seq k = s.seq k) ∧ t.rd (Reg.SQ_IC_LO_COUNT r.val) = (q.ic + 1) % 2 ^ 32 ∧
      per t = min (per s + 1 + top) (2 ^ 48 - 1) ∧
      t.rd (Reg.CLK_HELD_COUNT r.val) = min (s.rd (Reg.CLK_HELD_COUNT r.val) + top) (2 ^ (Reg.CLK_HELD_COUNT r.val).w - 1) ∧
      Untouched (icFields s r.val ++ Reg.CLK_HELD_COUNT r.val :: (List.range 8).flatMap fun c =>
        [Reg.SP_STRETCH_CNT_REBUILD (8 * r.val + c), Reg.SP_STRETCH_CNT_CONFLICT (8 * r.val + c)]) s t) ∧
  (∀ (s : State) (r : RegionId) (c : Fin 8) (fid t0 : Nat) (a : Act),
    let q := s.seq r.val
    let k := 8 * r.val + c.val
    let d := s.seen r.val fid
    let q1 := { q with cur := q.next, next := q.next + 1, pend := [], bufs := Tbl.set [] q.bufs fid [], asks := Tbl.set [] q.asks fid [] }
    let goes := fun (P : State → Prop) => ∃ u : State, exec (.resultIc r) s = .next (u.finish r.val) ∧
      u = { s with regs := u.regs, seqs := u.seqs, clus := u.clus } ∧ (∀ j, j ≠ r.val → u.seq j = s.seq j) ∧ (∀ j, j ≠ k → u.clu j = s.clu j) ∧ P u
    let only := fun (mu : Nat) (m : Mu) (u : State) => OnlyMu mu m (s.clu k) (u.clu k) ∧ u.seq r.val = q1 ∧ OnlyRegs s { u with seqs := s.seqs, clus := s.clus }
    s.issuing r.val = true → q.pend = [⟨q.ic, 0, c.val, a⟩] →
    (∀ isB mu sl trans qen qd i e rt ct, a = .takeMu fid t0 (.load isB mu sl trans qen qd i e rt ct) → goes fun u =>
      ∃ m : Mu, only mu m u ∧ m = { s.muOf k mu with slots := m.slots } ∧
        let place := 4 * ((if isB then 2 else 0) + sl) + if qen then qd else if qd = 2 then 1 else 0
        let v := (s.view r.val c.val i e).d
        Tbl.get SlotPart.empty m.slots place = ⟨v.fmt, if qen then 32 else 64, trans, (d.slotTileOf r.val c.val isB trans qen i e rt ct).1, t0 + 8,
          (List.range v.rank).any fun j => j ≠ State.contraction isB trans qen ∧ v.ext j = 0⟩) ∧
    (∀ v w i e rt ct, a = .takeVu fid t0 (.vld v w i e rt ct) → q.ic < t0 + 9 → goes fun u => u.clus = s.clus ∧ Untouched (vuCounts r.val) s u ∧
      ∃ z : Seq, z = { q1 with last := max q.last (t0 + 9), pend := z.pend, biases := z.biases } ∧ u.seq r.val = z ∧
        z.pend = [⟨t0 + 9, 0, c.val, .vreg v (s.vldWords d r.val c.val w i e rt ct).1⟩]) ∧
    (∀ v ref i e n b, a = .takeVu fid t0 (.vlds v ref i e n b) → q.ic < t0 + 9 → goes fun u => u.clus = s.clus ∧ Untouched (vuCounts r.val) s u ∧
      let y := d.slotTile r.val c.val i ref e n
      ∃ z : Seq, z = { q1 with last := max q.last (t0 + 9), pend := z.pend, biases := z.biases } ∧ u.seq r.val = z ∧
        z.pend = [⟨t0 + 9, 0, c.val, .vreg v (d.slotWords y.1 y.2.1 n b).1⟩]) ∧
    (∀ mu half p i e tr tc, a = .takeSv fid t0 (.load mu half p i e tr tc) →
      let v := s.view r.val c.val (sieveOf q.param i).wdesc e
      let bt := bodyTile d v tr tc
      let built := d.pageOfTile bt (sieveOf q.param i).trans (window v.d tr tc)
      built.2 = [] → goes fun u => ∃ m : Mu, only mu m u ∧ m = { s.muOf k mu with pages := m.pages } ∧
        ∃ pg : Page, Tbl.get Page.empty m.pages (2 * half + p) = pg ∧ pg.built = true ∧ pg.entries = built.1 ∧ pg.dense = State.denseTile bt ∧
          pg.fmt = v.d.fmt ∧ pg.ready = (Tbl.get Page.empty (s.muOf k mu).pages (2 * half + p)).ready ∧
          ∀ x, bt = some x → x.bad = false → pg.tag = x.tag) ∧
    (∀ mu p reg kind i e b kt, a = .takeSv fid t0 (.zmap mu p reg kind i e b kt) → goes fun u => ∃ m : Mu, only mu m u ∧
      m = { s.muOf k mu with zmaps := m.zmaps } ∧ Tbl.get ZMap.empty m.zmaps (2 * reg + p) =
        { Tbl.get ZMap.empty (s.muOf k mu).zmaps (2 * reg + p) with bits := some (d.peekN (s.zmapOf r.val c.val kind i e b kt).2 512) }) ∧
    (∀ i e rt ct, a = .takeMv fid t0 (.move i e rt ct) → q.ic < t0 → (dmaOf q.param i).evtEn = false → goes fun u => u.clus = s.clus ∧
      let mv := d.movePart r.val c.val (Xfer.queued r.val i e rt ct)
      let ws := if mv.accs = [] then mv.bytes else mv.accs
      let waves := if State.movedInBanks mv k then (State.moveWaves (ws.map (·.1 / 64))).map fun g => ws.filter fun p => g.contains (p.1 / 256)
        else (State.windowWaves k (State.distinct (ws.map (·.1 / 64)))).map fun us => ws.filter fun p => us.contains (p.1 / 64)
      ∀ x, x ∈ (u.seq r.val).pend ↔ ∃ j l, waves[j]? = some l ∧
        Leaves (Fin.ofNat 256 k) (t0 + j) 8 (if mv.accs = [] then none else some mv.fmt) l x)) ∧
  (∀ (s : State) (r : RegionId) (periods : Nat) (h : Hold),
    let q := s.seq r.val
    let f := match h with
      | .event _ _ => Reg.SQ_HOLD_EVT_COUNT r.val
      | .fence _ _ => Reg.SQ_HOLD_FENCE_COUNT r.val
      | .dma _ _ => Reg.SQ_HOLD_DMA_COUNT r.val
      | .stash => Reg.STD_HOLD_CNT_COUNT (r.val / 8) (r.val % 8)
    let met := match h with
      | .event ctr imm => imm ≤ s.rd (Reg.SQ_EVT_VALUE r.val ctr)
      | .fence scope upto => s.fenced r.val scope (upto - 1) = false
      | .dma ch _ => (Tbl.get [] s.dmaq ch).length < 4
      | .stash => s.stashUsed r.val < 2048
    let per := s.rd (Reg.CLK_PER_LO_COUNT r.val) + s.rd (Reg.CLK_PER_HI_COUNT r.val) * 2 ^ 32
    let waits := match h with | .event _ _ => true | .fence _ _ => true | _ => false
    let counted := fun u : State => u.rd f = min (s.rd f + periods) (2 ^ f.w - 1) ∧
      u.rd (Reg.CLK_HELD_COUNT r.val) = min (s.rd (Reg.CLK_HELD_COUNT r.val) + periods) (2 ^ 32 - 1) ∧
      u.rd (Reg.CLK_PER_LO_COUNT r.val) + u.rd (Reg.CLK_PER_HI_COUNT r.val) * 2 ^ 32 = min (per + periods) (2 ^ 48 - 1) ∧
      Untouched [f, Reg.CLK_HELD_COUNT r.val, Reg.CLK_PER_LO_COUNT r.val, Reg.CLK_PER_HI_COUNT r.val,
        In.meter 0 (if s.regionUser r.val = 0xFF then 0xFE else s.regionUser r.val)] s u
    (q.holds = [] → (q.ended = [] → exec (.holdEnd r periods) s = .next s) ∧ exec (.sqWaitTimeout r) s = .next s) ∧
    (q.ended = [h] → (∀ scope, h ≠ .fence scope 0) → Yields (.holdEnd r periods) s fun t => counted t ∧ t = { s with regs := t.regs, seqs := t.seqs } ∧
      t.seq r.val = { q with ended := [] } ∧ ∀ k, k ≠ r.val → t.seq k = s.seq k) ∧
    (q.holds = [h] → (∀ scope, h ≠ .fence scope 0) →
      (q.ended = [] → ¬ met → exec (.holdEnd r periods) s = .next s) ∧
      (q.ended = [] → met → ∃ u : State, exec (.holdEnd r periods) s = .next (u.finish r.val) ∧
        u = { s with regs := u.regs, seqs := u.seqs, clus := (s.sieveAdvance r.val q.ic periods).clus, dmaq := u.dmaq } ∧
        u.seq r.val = { (s.sieveAdvance r.val q.ic periods).seq r.val with holds := [] } ∧ (∀ k, k ≠ r.val → u.seq k = s.seq k) ∧
        (∀ ch, Tbl.get [] u.dmaq ch = match h with
          | .dma c x => if ch = c then Tbl.get [] s.dmaq ch ++ [x] else Tbl.get [] s.dmaq ch
          | _ => Tbl.get [] s.dmaq ch) ∧ counted u) ∧
      (waits = true → s.rd (Reg.SQ_WAIT_LIMIT_US r.val) ≠ 0 → Yields (.sqWaitTimeout r) s fun t =>
        t.rd (Reg.SQ_FAULT_CODE r.val) = 3 ∧ t.rd (Reg.SQ_FAULT_SLOT r.val) = 5) ∧
      (waits = false ∨ s.rd (Reg.SQ_WAIT_LIMIT_US r.val) = 0 → exec (.sqWaitTimeout r) s = .next s))) ∧
  (∀ (s : State) (r : RegionId) (e : EvInc),
    ((∀ x ∈ s.events, x.src ≠ r.val) → exec (.eventArrival r) s = .next s) ∧
    (s.events.find? (fun x => x.src == r.val) = some e → s.outstanding r.val e.scope e.upto = true → exec (.eventArrival r) s = .next s) ∧
    (s.events.find? (fun x => x.src == r.val) = some e → s.outstanding r.val e.scope e.upto = false →
      Yields (.eventArrival r) s fun t => t.events = s.events.erase e ∧
        Wrote [(Reg.SQ_EVT_VALUE e.dst e.ctr, (s.rd (Reg.SQ_EVT_VALUE e.dst e.ctr) + e.imm) % 2 ^ 32)] { s with events := s.events.erase e } t)) ∧
  (∀ (s : State) (n wait : Nat) (w : Remote) (d : DieId) (region : Fin 8) (x : StashRow), s.spErr = [] → s.spPoison = [] → s.rd Reg.DBG_INJ_ARM = 0 →
    let lands := fun (ws : List (Nat × Nat)) (t : State) => ∀ a, t.peek a = overlay ws a (s.peek a)
    let q := Tbl.get [] s.stashq d.val
    let bytes := s.rd (Reg.STD_WR_LO_COUNT d.val) + s.rd (Reg.STD_WR_HI_COUNT d.val) * 2 ^ 32
    let r := w.cl / 8
    let gated := (s.rd Reg.PWR_RSTATE_GATED).testBit r = true
    let here := fun (t : State) (c : Nat) => t.remotes = s.remotes.eraseIdx n ∧
      t.rd (Reg.SP_REMOTE_WAIT_COUNT w.cl) = min (s.rd (Reg.SP_REMOTE_WAIT_COUNT w.cl) + c) (2 ^ 32 - 1) ∧ t.clus = s.clus
    let head := (s.remotes.take n).all fun y => State.queueKey y ≠ State.queueKey w
    let idle := ¬ (s.running r = true ∧ s.bankUsed (State.queueKey w) ((s.seq r).ic - 1) = true)
    let cases := [(Instr.remoteAccess n wait, wait), (Instr.remoteForcedService n, 64)]
    (s.remotes.length ≤ n → ∀ c ∈ cases, exec c.1 s = .next s) ∧
    (s.remotes[n]? = some w → w.cl < 256 → (∃ o, place (64 * w.unit) = .sp w.cl o) → (s.clu w.cl).groups = [] →
      (gated → ∀ c ∈ cases, Yields c.1 s fun t => OnlyRegs s t ∧ (t.rd Reg.PWR_RWAKE_WAKE).testBit r = true ∧
        Untouched [Reg.PWR_RWAKE_WAKE, In.waker r] s t) ∧
      (¬ gated → s.closed r w = true ∨ head = false → ∀ c ∈ cases, exec c.1 s = .next s) ∧
      (64 < wait ∨ ¬ idle → ¬ gated → exec (.remoteAccess n wait) s = .next s) ∧
      (s.closed r w = false → head = true → ∀ c ∈ cases, (c.1 = .remoteAccess n wait → wait ≤ 64 ∧ idle) →
        (w.fetch = none → w.accFmt = none → (∀ p ∈ w.ws, p.1 / 64 = w.unit ∧ p.2 < 256) → Yields c.1 s fun t => here t c.2 ∧ lands w.ws t ∧
          t = { s with regs := t.regs, seqs := t.seqs, mem := t.mem, aliased := t.aliased, remotes := t.remotes } ∧
          ∀ j, t.seq j = { s.seq j with waves := (t.seq j).waves }) ∧
        (∀ fid, w.fetch = some fid → w.src < 32 → Yields c.1 s fun t => here t c.2 ∧ t.mem = s.mem ∧
          let more := ∃ y ∈ s.remotes.eraseIdx n, y.src = w.src ∧ y.fetch = some fid
          let q := s.seq w.src
          let ask := Tbl.get [] q.asks fid
          let z := t.seq w.src
          Tbl.get [] z.bufs fid = Tbl.get [] q.bufs fid ++ at' (64 * w.unit) (s.peeks (64 * w.unit) 64) ∧
          (more → z = { q with bufs := z.bufs, waves := z.waves }) ∧
          (¬ more → z = { q with bufs := z.bufs, waves := z.waves, asks := z.asks, pend := z.pend, last := z.last } ∧ Tbl.get [] z.asks fid = [] ∧
            (∀ p ∈ ask, { p with due := max p.due q.ic } ∈ z.pend) ∧ ∀ p ∈ z.pend, p ∈ q.pend ∨ ∃ y ∈ ask, p = { y with due := max y.due q.ic }) ∧
          ∀ j, j ≠ w.src → t.seq j = { s.seq j with waves := (t.seq j).waves }))) ∧
    (s.remotes[n]? = some w → 256 ≤ w.cl → w.fetch = none → w.accFmt = none → head = true → ∀ k : StackId, s.stackStatus k.val = 0 →
      (∀ p ∈ w.ws, p.2 < 256 ∧ ∃ o, place p.1 = .hbm k.val o) →
      exec (.remoteForcedService n) s = .next s ∧
      (s.touchesProtected w.ws = true → exec (.remoteAccess n wait) s = .next (s.queueTouched w.ws)) ∧
      (s.touchesProtected w.ws = false → Yields (.remoteAccess n wait) s fun t => t.remotes = s.remotes.eraseIdx n ∧ lands w.ws t ∧ t.clus = s.clus ∧ t.seqs = s.seqs)) ∧
    (q.find? (fun y => y.region == 8 * d.val + region.val) = none → exec (.stashRowWriteDone d region) s = .next s) ∧
    (q.find? (fun y => y.region == 8 * d.val + region.val) = some x → x.ws ≠ [] → ∀ k : StackId, (∀ p ∈ x.ws, p.2 < 256 ∧ ∃ o, place p.1 = .hbm k.val o) →
      (∀ c < 2, ∀ y l, Tbl.get [] s.dmaq (16 * d.val + 2 * region.val + c) = y :: l → y.rows = []) →
      (s.touchesProtected x.ws = true → exec (.stashRowWriteDone d region) s = .next (s.queueTouched x.ws)) ∧
      (s.touchesProtected x.ws = false → s.stackStatus k.val = 0 → Yields (.stashRowWriteDone d region) s fun t =>
        Tbl.get [] t.stashq d.val = q.erase x ∧ lands x.ws t ∧
        t.rd (Reg.STD_WR_LO_COUNT d.val) + t.rd (Reg.STD_WR_HI_COUNT d.val) * 2 ^ 32 = min (bytes + x.ws.length) (2 ^ 48 - 1)) ∧
      (s.stackStatus k.val = 5 → x.entry < 1024 → s.rd (Reg.STD_ENT_STATE d.val x.entry) ≠ 3 → Yields (.stashRowWriteDone d region) s fun t =>
        Tbl.get [] t.stashq d.val = q.erase x ∧ t.mem = s.mem ∧ t.rd (Reg.STD_ENT_STATE d.val x.entry) = 3 ∧ t.rd (Reg.STD_ENT_REASON d.val x.entry) = 5 ∧
        t.rd (Reg.STD_REFUSED_COUNT d.val) = min (s.rd (Reg.STD_REFUSED_COUNT d.val) + 1) (2 ^ 32 - 1))))

/-- REGION_START begins a region's kernel at bundle 0 in ic 0 and issues it; a launch that addresses a LOST stack faults instead; a
region that has no launch or has started, whose island is stopped, or from which something is still on its way, does not start (log
177). REGION_COMPLETE marks the region done once R282 is met. A fault of a unit stands in SQ_FAULT and in the unit's own register, is
the launch's fault if it is the first and no abort came before, and stops every region of the launch with the faulting region's pages
dropped; an uncorrectable index entry is met by a look-up only (R190); an abort stops the launch unless a fault came first (R117, R201,
R307). -/
def Obligations.RegionStartEndAndFaults : Prop :=
  (∀ (s : State) (r : RegionId) (n : Nat),
    let q := s.seq r.val
    let l := s.launch n
    let lost := ∃ k ∈ setBits l.stackSet 12, s.stackStatus k = 5
    let ready := q.started = false ∧ q.stopped = false ∧ l.held = false ∧ s.rd (Reg.CLK_ISL_STATE r.val) ≠ 2 ∧ s.inFlight r.val = false
    (q.launch = none → exec (.regionStart r) s = .next s ∧ exec (.regionComplete r) s = .next s ∧ exec (.sqAbort r) s = .next s) ∧
    (q.launch = some n → ¬ ready → exec (.regionStart r) s = .next s) ∧
    (q.launch = some n → ready → ¬ lost → ∃ u : State, exec (.regionStart r) s = .next (u.issueKernel r.val) ∧
      u = { s with regs := u.regs, seqs := u.seqs, clus := u.clus } ∧ (∀ k, k ≠ r.val → u.seq k = s.seq k) ∧
      u.seq r.val = { q with started := true, next := 0, cur := 0, ic := 0, last := 0, waves := [], pend := [], cens := [], bufs := [], asks := [], looks := [], biases := [], ended := [] } ∧
      (∀ k : ClusterId, k.val / 8 ≠ r.val → u.clu k.val = s.clu k.val) ∧
      (∀ k : ClusterId, k.val / 8 = r.val → ∀ m t : Fin 4, (Tbl.wf Mu.empty (s.clu k.val).mus = true →
        Tbl.wf AccTile.zero (s.muOf k.val m.val).tiles = true → (u.tile k.val m.val t.val).vals = (s.tile k.val m.val t.val).vals) ∧
        u.vreg k.val = s.vreg k.val ∧ (u.muOf k.val m.val).pages = [] ∧ (u.muOf k.val m.val).zmaps = [] ∧ (u.muOf k.val m.val).array = 0 ∧
        (u.muOf k.val m.val).port = [] ∧ (u.tile k.val m.val t.val).doneAt = 0) ∧
      u.rd (Reg.SQ_STAT_STATE r.val) = 2 ∧ u.rd (Reg.SQ_IC_LO_COUNT r.val) = 0 ∧ u.rd (Reg.SQ_IC_HI_COUNT r.val) = 0 ∧
      Untouched [Reg.SQ_STAT_STATE r.val, Reg.SQ_IC_LO_COUNT r.val, Reg.SQ_IC_HI_COUNT r.val] s u) ∧
    (q.launch = some n → ready → lost → Yields (.regionStart r) s fun t => t.rd (Reg.SQ_FAULT_CODE r.val) = 10) ∧
    (q.launch = some n → l.done.testBit r.val = false → s.regionDone r.val = true → Yields (.regionComplete r) s fun t =>
      t = { s with regs := t.regs, launches := t.launches } ∧ t.launch n = { l with done := l.done + 2 ^ r.val, lastR := r.val } ∧
      (∀ k, k ≠ n → t.launch k = s.launch k) ∧ t.rd (Reg.SQ_ABORT_GO r.val) = 0 ∧ Untouched [Reg.SQ_ABORT_GO r.val] s t) ∧
    (q.launch = some n → (q.halted = true ∨ q.stopped = true) → q.started = true → q.holds = [] → q.pend = [] → q.last < q.ic →
      s.inFlight r.val = false → s.regionDone r.val = true) ∧
    (s.regionDone r.val = false ∨ q.launch = some n ∧ l.done.testBit r.val = true → exec (.regionComplete r) s = .next s)) ∧
  (∀ (s : State) (r : RegionId) (c : Fin 8) (kind : Fin 21) (n : Nat), (s.seq r.val).launch = some n →
    let q := s.seq r.val
    let l := s.launch n
    let stopped := fun t : State => ∀ k, l.regions.testBit k = true → k < 32 → (s.seq k).launch.isSome = true →
      (t.seq k).stopped = true ∧ (t.seq k).holds = [] ∧ t.rd (Reg.SQ_STAT_STATE k) = 4
    (s.active r.val = false ∨ kind.val = 7 ∧ s.lookMu r.val c.val = none → exec (.regionFault r c kind) s = .next s) ∧
    (s.active r.val = true → (kind.val = 7 → (s.lookMu r.val c.val).isSome = true) → Yields (.regionFault r c kind) s fun t =>
      t.rd (Reg.SQ_FAULT_CODE r.val) = sqCode (0x40 + kind.val) ∧ t.rd (Reg.SQ_FAULT_SLOT r.val) = State.faultSlot kind.val ∧
      t.rd (Reg.SQ_FAULT_CLUSTER r.val) = c.val ∧ t.rd (Reg.SQ_FAULT_BUNDLE r.val) = q.cur % 2 ^ (Reg.SQ_FAULT_BUNDLE r.val).w ∧
      t.rd (Reg.SQ_FAULT_IC_COUNT r.val) = q.ic % 2 ^ (Reg.SQ_FAULT_IC_COUNT r.val).w ∧
      (3 ≤ kind.val → kind.val ≤ 7 → t.rd (Reg.SV_FAULT_CODE (8 * r.val + c.val)) = kind.val - 2) ∧
      (∀ mu : Fin 4, kind.val = 7 → s.lookMu r.val c.val = some mu.val → t.rd (Reg.SV_FAULT_MU (8 * r.val + c.val)) = mu.val) ∧
      (8 ≤ kind.val → kind.val ≤ 11 → t.rd (Reg.SH_FAULT_CODE (8 * r.val + c.val)) = kind.val - 7) ∧
      (t.launch n).fault = (if l.fault = none ∧ l.aborted = false then some ⟨0x40 + kind.val, r.val, c.val, q.cur, q.ic⟩ else l.fault) ∧
      stopped t ∧ t.mem = s.mem ∧ ∀ k m : Nat, k / 8 = r.val → m < 4 → (t.muOf k m).pages = []) ∧
    (l.done = l.regions → exec (.sqAbort r) s = .next s) ∧
    (l.done ≠ l.regions → l.regions < 2 ^ 32 → Yields (.sqAbort r) s fun t =>
      (t.launch n).aborted = (if l.fault = none then true else l.aborted) ∧ stopped t ∧ t.mem = s.mem ∧
      (∀ k < 32, l.regions.testBit k = true → l.done.testBit k = false → t.rd (Reg.SQ_ABORT_GO k) = 1) ∧
      ∀ k < 32, (t.rd Reg.DBG_HALT_MASK).testBit k = ((s.rd Reg.DBG_HALT_MASK).testBit k && !l.regions.testBit k)))

/-- LAUNCH_SUBMIT: while 64 records wait the submission waits with PEND 1; a record that gives no data, one aborted before, one outside
its tenant's stacks and one that fails validation end with a completion record that says so, and PEND is 0; a record that passes
validation is accepted, and its regions load its kernel; one refused with SHAPE_EXCEEDS_PLAN that firmware re-tiles starts with its
first window. -/
def Obligations.LaunchSubmission : Prop :=
  ∀ (s : State) (c : CoreId) (hi : BitVec 16), s.awake = true →
    let i := Instr.launchSubmit c hi
    let waits := s.rd (Reg.MOD_LAUNCH_STAT_PEND c.val) = 1
    let u := if waits then s else (s.wr (Reg.MOD_LAUNCH_HI_ADDR c.val) hi.toNat).wr (Reg.MOD_LAUNCH_STAT_PEND c.val) 1
    let v := u.wr (Reg.MOD_LAUNCH_STAT_PEND c.val) 0
    let a := s.rd (Reg.MOD_LAUNCH_LO_ADDR c.val) + 2 ^ 32 * (if waits then s.rd (Reg.MOD_LAUNCH_HI_ADDR c.val) else hi.toNat)
    let y := v.hbmRead a 64 true
    let lr := parseLaunch (ofLe y.2.2)
    let z := y.1.validate lr
    let taken := fun t : State => t.rd (Reg.MOD_LAUNCH_STAT_PEND c.val) = 0
    let room := s.pendRecs.length < 64
    let loads := fun (n : Nat) (x : LCtx) (t : State) => (t.launch n).id = x.lr.id ∧ (t.launch n).tenant = x.lr.tenant ∧
      (t.launch n).regions = x.lr.regions ∧ (t.launch n).fault = none ∧ (t.launch n).aborted = false ∧
      ∀ r ∈ x.regions, (t.seq r).launch = some n ∧ (t.seq r).kern = x.kern ∧ (t.seq r).started = false
    (¬ room → waits → exec i s = .next s) ∧
    (¬ room → ¬ waits → Yields i s (Wrote [(Reg.MOD_LAUNCH_HI_ADDR c.val, hi.toNat), (Reg.MOD_LAUNCH_STAT_PEND c.val, 1)] s)) ∧
    (room → y.2.1 ≠ 0 → Yields i s fun t => Recorded (State.complRec 0 3 0 (State.readCode 1 y.2.1) 0x3F 0 (Refuse.of 0) 0 0) y.1 t ∧ taken t) ∧
    (room → y.2.1 = 0 → s.rd (In.subAbort c.val) = 1 → Yields i s fun t =>
      Recorded (State.complRec lr.id 2 0 0 0x3F lr.tenant (Refuse.of 0) 0 0) (y.1.wr (In.subAbort c.val) 0) t ∧ taken t) ∧
    (room → y.2.1 = 0 → s.rd (In.subAbort c.val) = 0 →
      (y.1.ownRange lr.tenant a 64 = false → Yields i s fun t =>
        Recorded (State.complRec lr.id 3 0 1 0x3F lr.tenant (Refuse.of 1) 0 0) y.1 t ∧ taken t) ∧
      (y.1.ownRange lr.tenant a 64 = true →
        (∀ e, z.2 = .error e → (e.code = 0x16 → z.1.retileLoops lr = none) → Yields i s fun t =>
          Recorded (State.complRec lr.id 3 0 e.code 0x3F lr.tenant e 0 0) z.1 t ∧ taken t) ∧
        (∀ e loops, z.2 = .error e → e.code = 0x16 → z.1.retileLoops lr = some loops →
          let w := z.1.validateWindow lr loops 0
          (∀ e', w.2 = .error e' → Yields i s fun t => Recorded (State.complRec lr.id 3 0 e'.code 0x3F lr.tenant e' 0 0) w.1 t ∧ taken t) ∧
          (∀ x, w.2 = .ok x → Yields i s fun t => taken t ∧ t.pendRecs = w.1.pendRecs ∧ loads w.1.wid x t ∧
            (t.launch w.1.wid).win = some (lr, loops, 0))) ∧
        (∀ x, z.2 = .ok x → Yields i s fun t => taken t ∧ t.pendRecs = z.1.pendRecs ∧ loads z.1.wid x t ∧ (t.launch z.1.wid).win = none)))

/-- The tenant commands LAUNCH, JOB and ABORT. In recovery none is accepted. A LAUNCH becomes the flow's tenant's; while 64 records wait
it waits. A LAUNCH_ID in use is refused with LAUNCH_DUP. Any other is marked by its step, takes the shape words into its parameter
block, and is validated: refused with a record, accepted, so that its regions load, or started with its first window where firmware
re-tiles it. A JOB with EVO_PERIOD = 0 or a reserved bit set is refused, any other is taken; an ABORT is answered by what the commit
point said. -/
def Obligations.TenantCommands : Prop :=
  ∀ (s : State) (c : CoreId) (flow : BitVec 8) (tag id num step : BitVec 32) (sched : BitVec 128) (rcd : BitVec 512) (shape : List (BitVec 32)),
    s.awake = true →
    let f := flow.toNat
    let i := Instr.launch c flow rcd shape
    let ten := s.flowTenant f
    let lr := { parseLaunch rcd.toNat with tenant := ten }
    let dup := ∃ p ∈ s.launches, p.2.id = lr.id ∧ p.2.tenant = ten
    let m := s.markStep lr
    let v := m.1.shapeWrite lr (shape.map BitVec.toNat)
    let z := v.validate m.2
    let refused := bitsOf sched.toNat 79 64 = 0 ∨ bitsOf sched.toNat 127 81 ≠ 0
    (s.rd Reg.MOD_BOOT_STAGE = 8 → exec i s = .next s ∧ Yields (.job flow tag num sched step) s (Answered f 0x92 1 tag.toNat [] s) ∧
      Yields (.abort flow tag id) s (Answered f 0x92 1 tag.toNat [] s)) ∧
    (s.rd Reg.MOD_BOOT_STAGE ≠ 8 → (64 ≤ s.pendRecs.length → exec i s = .next s) ∧
    (s.pendRecs.length < 64 →
      (dup → Yields i s (Recorded (State.complRec lr.id 3 0 2 0x3F ten (Refuse.of 0) 0 0) s)) ∧
      (¬ dup →
        m.2.id = lr.id ∧ m.2.tenant = ten ∧ (s.rd (In.jobSched ten) = 0 → m = (s, lr)) ∧ (shape = [] → v = m.1) ∧
        (∀ e, z.2 = .error e → (e.code = 0x16 → z.1.retileLoops m.2 = none) →
          Yields i s (Recorded (State.complRec lr.id 3 0 e.code 0x3F ten e 0 0) z.1)) ∧
        (∀ e loops, z.2 = .error e → e.code = 0x16 → z.1.retileLoops m.2 = some loops →
          let w := z.1.validateWindow m.2 loops 0
          (∀ e', w.2 = .error e' → Yields i s (Recorded (State.complRec lr.id 3 0 e'.code 0x3F ten e' 0 0) w.1)) ∧
          (∀ x, w.2 = .ok x → Yields i s fun t => t.pendRecs = w.1.pendRecs ∧ (t.launch w.1.wid).win = some (m.2, loops, 0) ∧
            ∀ r ∈ x.regions, (t.seq r).launch = some w.1.wid ∧ (t.seq r).kern = x.kern)) ∧
        (∀ x, z.2 = .ok x → Yields i s fun t => t.pendRecs = z.1.pendRecs ∧ (t.launch z.1.wid).id = x.lr.id ∧
          (t.launch z.1.wid).tenant = x.lr.tenant ∧ ∀ r ∈ x.regions, (t.seq r).launch = some z.1.wid ∧ (t.seq r).kern = x.kern))) ∧
    (refused → Yields (.job flow tag num sched step) s (Answered f 0x92 2 tag.toNat [] s)) ∧
    (¬ refused → Yields (.job flow tag num sched step) s fun t => ∃ u, Wrote [(In.jobNum ten, num.toNat), (In.jobSched ten, sched.toNat),
      (In.jobStep ten, step.toNat)] s u ∧ Answered f 0x92 0 tag.toNat [] u t) ∧
    let u := (s.wr Reg.HTP_ABORT_TENANT ten).htpAbort id.toNat
    Yields (.abort flow tag id) s (Answered f 0x91 (u.rd Reg.HTP_ABORT_STAT_RESULT) tag.toNat (toLe 4 id.toNat) u))

/-- LAUNCH_COMMIT: an unknown launch, and one of which a region or a stash row is outstanding, stay. A launch whose regions and stash
rows have completed is gone, its regions are idle, the entries that it held in the handle tables of its regions, in the stream table and
in the stash directory are free, and each stream has advanced by what was declared; its one completion record, with the status, code and
place that the commit point decided, enters the ring, or waits behind others. Where it neither faulted nor was aborted, memory differs
at most by that record. A launch run in windows has its record after its last window only: before, the next window starts and no stream
advances (log 184). HTP_ABORT at the commit point: a launch that faulted, or that completed without an abort, is TOO_LATE; one already
aborted answers ACCEPTED; any other of the tenant is stopped in every region that runs it and answers ACCEPTED; a record that waits in a
core's submission is marked to end as ABORTED; an ID of none of these is TOO_LATE where a record of it is known, and UNKNOWN otherwise.
COMPLETION_RING_ENTRY: with no record waiting, or no room in the ring, nothing changes; otherwise the oldest waiting record is written
at the head of the ring, and no other byte of memory, and the head advances. HELD_LAUNCH_START: a held launch starts once the handles
that it stores through are all in flash; any other launch stays as it is. -/
def Obligations.LaunchCommit : Prop :=
  (∀ (s : State) (id : BitVec 32) (tenant : TenantId), s.awake = true →
    let i := Instr.launchCommit id tenant
    let found := s.launches.find? fun p => p.2.id == id.toNat && p.2.tenant == tenant.val
    (found = none → exec i s = .next s) ∧
    (∀ n l, found = some (n, l) →
      let r := match l.fault with
        | some f => State.complRec l.id 1 (b2n l.debug) f.code f.region l.tenant (Refuse.of 0) f.bundle f.ic
        | none => State.complRec l.id (if l.aborted then 2 else 0) (b2n l.debug) 0 0x3F l.tenant (Refuse.of 0) 0 (s.seq l.lastR).ic
      let ended := l.done = l.regions ∧ s.stashing l = false
      let u := (if l.debug = true then s.wr (In.jobDbg l.tenant) 1 else s).releaseLaunch l
      let a := u.rd Reg.HTP_CQ_BASE_ADDR + 64 * u.rd Reg.HTP_CQ_HEAD_INDEX
      let ours := (∀ h ∈ l.handles, h < 1024) ∧ (∀ d ∈ l.streams, d.1 < 4096) ∧ ∀ e ∈ l.stashes, e < 4096
      (¬ ended → exec i s = .next s) ∧
      (ended → State.nextWindow l = none → Yields i s fun t =>
        t.launch n = noLaunch ∧ (ours → s.rd Reg.DBG_INJ_ARM = 0 → ∀ k, k ≠ n → t.launch k = s.launch k) ∧
        (∀ k < 32, l.regions.testBit k = true → t.seq k = Seq.idle ∧ t.rd (Reg.SQ_STAT_STATE k) = 0) ∧
        (∀ k, (32 ≤ k ∨ l.regions.testBit k = false) → t.seq k = s.seq k) ∧
        (∀ h ∈ l.handles, h < 1024 → ∀ k < 32, l.regions.testBit k = true → t.rd (Reg.SP_HT_BUSY k h) = 0) ∧
        (∀ d ∈ l.streams, d.1 < 4096 → t.rd (Reg.STREAM_BUSY d.1) = 0) ∧
        (∀ e ∈ l.stashes, e < 4096 → t.rd (Reg.STD_ENT_BUSY (e / 1024) (e % 1024)) = 0) ∧
        (ours → (∀ k < 4096, t.rd (Reg.STREAM_CTR k) =
            (s.rd (Reg.STREAM_CTR k) + ((l.streams.filter fun d => d.1 == k).map Prod.snd).sum) % 2 ^ 128) ∧
          (∀ f ∈ [Reg.HTP_CQ_BASE_ADDR, Reg.HTP_CQ_HEAD_INDEX, Reg.HTP_CQ_TAIL_INDEX, Reg.HTP_CQ_SIZE_ENTRIES], u.rd f = s.rd f)) ∧
        (∀ c < 8, t.rd (In.ccDone c) = 1) ∧
        (if s.pendRecs = [] ∧ u.ringFull = false then t.pendRecs = [] ∧
            t.rd Reg.HTP_CQ_HEAD_INDEX = (u.rd Reg.HTP_CQ_HEAD_INDEX + 1) % u.rd Reg.HTP_CQ_SIZE_ENTRIES ∧
            (l.fault = none → l.aborted = false → State.inStack a 64 = true → u.stackStatus (a / 2 ^ 36) = 0 →
              u.touchesProtected (at' a (toLe 64 r)) = false →
              ∀ j, t.memGet j = if a ≤ j ∧ j < a + 64 then r / 256 ^ (j - a) % 256 else s.memGet j)
          else t.pendRecs = s.pendRecs ++ [r] ∧ t.rd Reg.HTP_CQ_HEAD_INDEX = u.rd Reg.HTP_CQ_HEAD_INDEX ∧
            (l.fault = none → l.aborted = false → t.mem = s.mem))) ∧
      (ended → ∀ lr loops w, l.win = some (lr, loops, w) → l.fault = none → l.aborted = false → w + 1 < State.windows loops →
        ∃ v : State, (∀ k < 32, l.regions.testBit k = true → v.seq k = Seq.idle) ∧ v.launch n = noLaunch ∧ v.pendRecs = s.pendRecs ∧ v.mem = s.mem ∧
          (ours → ∀ k < 4096, v.rd (Reg.STREAM_CTR k) = s.rd (Reg.STREAM_CTR k)) ∧
          let z := v.validateWindow lr loops (w + 1)
          (∀ e, z.2 = .error e → Yields i s (Recorded (State.complRec lr.id 3 0 e.code 0x3F lr.tenant e 0 0) z.1)) ∧
          (∀ x, z.2 = .ok x → Yields i s fun t => t.pendRecs = z.1.pendRecs ∧ (t.launch z.1.wid).win = some (lr, loops, w + 1) ∧
            ∀ k ∈ x.regions, (t.seq k).launch = some z.1.wid ∧ (t.seq k).kern = x.kern)))) ∧
  (∀ (s : State) (id : BitVec 32), s.awake = true →
    let own := s.rd Reg.HTP_ABORT_TENANT
    let found := s.launches.find? fun p => p.2.id == id.toNat && p.2.tenant == own
    let v := s.wr Reg.HTP_ABORT_ID id.toNat
    let answer := fun n : Nat => Yields (.htpAbort id) s (Wrote [(Reg.HTP_ABORT_ID, id.toNat), (Reg.HTP_ABORT_STAT_RESULT, n)] s)
    (∀ n l, found = some (n, l) →
      (l.fault.isSome = true ∨ l.aborted = false ∧ l.done = l.regions → answer 1) ∧
      (l.fault = none → l.aborted = true → answer 0) ∧
      (s.launch n = l → l.fault = none → l.aborted = false → l.done ≠ l.regions → Yields (.htpAbort id) s fun t =>
        t.rd Reg.HTP_ABORT_STAT_RESULT = 0 ∧ (t.launch n).aborted = true ∧
        ∀ r < 32, l.regions.testBit r = true → (s.seq r).launch.isSome = true → (t.seq r).stopped = true)) ∧
    let waits := fun c : Nat => s.rd (Reg.MOD_LAUNCH_STAT_PEND c) = 1 ∧
      let lr := parseLaunch (s.peekN (s.rd (Reg.MOD_LAUNCH_LO_ADDR c) + 2 ^ 32 * s.rd (Reg.MOD_LAUNCH_HI_ADDR c)) 64)
      lr.id = id.toNat ∧ lr.tenant = own
    (found = none → ∀ c < 8, waits c → (∀ d < c, ¬ waits d) →
      Yields (.htpAbort id) s (Wrote [(Reg.HTP_ABORT_ID, id.toNat), (In.subAbort c, 1), (Reg.HTP_ABORT_STAT_RESULT, 0)] s)) ∧
    (found = none → (∀ c < 8, ¬ waits c) → answer (if v.recKnown id.toNat own then 1 else 2))) ∧
  (∀ (s : State) (id : BitVec 32) (tenant : TenantId), s.awake = true →
    let found := s.launches.find? fun p => p.2.id == id.toNat && p.2.tenant == tenant.val
    (s.pendRecs = [] ∨ s.ringFull = true → exec .completionRingEntry s = .next s) ∧
    (∀ n l, s.pendRecs = n :: l → s.ringFull = false →
      let a := s.rd Reg.HTP_CQ_BASE_ADDR + 64 * s.rd Reg.HTP_CQ_HEAD_INDEX
      Yields .completionRingEntry s fun t => t.pendRecs = l ∧
        t.rd Reg.HTP_CQ_HEAD_INDEX = (s.rd Reg.HTP_CQ_HEAD_INDEX + 1) % s.rd Reg.HTP_CQ_SIZE_ENTRIES ∧
        (State.inStack a 64 = true → s.stackStatus (a / 2 ^ 36) = 0 → s.touchesProtected (at' a (toLe 64 n)) = false →
          ∀ i, t.memGet i = if a ≤ i ∧ i < a + 64 then n / 256 ^ (i - a) % 256 else s.memGet i)) ∧
    (found = none → exec (.heldLaunchStart id tenant) s = .next s) ∧
    ∀ n l, found = some (n, l) →
      (l.held = true → (∀ h ∈ l.whandles, Tbl.get 0 s.protH h = 0) →
        exec (.heldLaunchStart id tenant) s = .next (s.setLaunch n { l with held := false })) ∧
      (l.held = false ∨ (∃ h ∈ l.whandles, Tbl.get 0 s.protH h ≠ 0) → exec (.heldLaunchStart id tenant) s = .next s))

/-- HANDLE_WRITE: a BUSY entry ignores the write, a valid entry that breaks its bounds is refused, and otherwise the entry takes its
eight fields. STREAM_TABLE_WRITE is ignored while the stream is BUSY and otherwise replaces the entry; a fault-enable write is ignored
while a launch runs in the cluster's region and otherwise takes effect. Every *_CNT_CLR leaves 0 in every count, flag and log entry of
its block and changes nothing else. -/
def Obligations.CountsAndTableWrites : Prop :=
  (∀ (s : State) (r : RegionId) (h : Fin 1024) (valid kind acc persist : Bool) (cluster tenant : BitVec 8) (offset extent : BitVec 27),
    s.awake = true →
    (s.rd (Reg.SP_HT_BUSY r.val h.val) = 1 →
      Yields (.handleWrite r h valid kind acc persist cluster tenant offset extent) s (Wrote [(In.wrRet, 2)] s)) ∧
    (s.rd (Reg.SP_HT_BUSY r.val h.val) = 0 →
      (valid = true ∧ (offset.toNat % 256 ≠ 0 ∨ extent.toNat % 256 ≠ 0 ∨ extent.toNat < 256 ∨
        acc = false ∧ spSize < offset.toNat + extent.toNat ∨
        acc = true ∧ (offset.toNat < spSize ∨ accEnd < offset.toNat + extent.toNat)) →
          Yields (.handleWrite r h valid kind acc persist cluster tenant offset extent) s (Wrote [(In.wrRet, 1)] s)) ∧
      (¬ (valid = true ∧ (offset.toNat % 256 ≠ 0 ∨ extent.toNat % 256 ≠ 0 ∨ extent.toNat < 256 ∨
        acc = false ∧ spSize < offset.toNat + extent.toNat ∨
        acc = true ∧ (offset.toNat < spSize ∨ accEnd < offset.toNat + extent.toNat))) →
          Yields (.handleWrite r h valid kind acc persist cluster tenant offset extent) s
            (Wrote [(Reg.SP_HT_VALID r.val h.val, b2n valid), (Reg.SP_HT_KIND r.val h.val, b2n kind),
              (Reg.SP_HT_ACC r.val h.val, b2n acc), (Reg.SP_HT_PERSIST r.val h.val, b2n persist),
              (Reg.SP_HT_CLUSTER r.val h.val, cluster.toNat), (Reg.SP_HT_TENANT r.val h.val, tenant.toNat),
              (Reg.SP_HT_OFFSET r.val h.val, offset.toNat), (Reg.SP_HT_EXTENT r.val h.val, extent.toNat), (In.wrRet, 0)] s)))) ∧
  (∀ s : State, s.awake = true →
    (∀ (n : Fin 4096) (key : BitVec 64) (ctr : BitVec 128) (owner : BitVec 8) (en : Bool),
      (s.rd (Reg.STREAM_BUSY n.val) ≠ 0 → Yields (.streamTableWrite n key ctr owner en) s (Wrote [(In.wrRet, 3)] s)) ∧
      (s.rd (Reg.STREAM_BUSY n.val) = 0 → Yields (.streamTableWrite n key ctr owner en) s
        (Wrote [(Reg.STREAM_KEY n.val, key.toNat), (Reg.STREAM_CTR n.val, ctr.toNat), (Reg.STREAM_OWNER n.val, owner.toNat),
          (Reg.STREAM_EN n.val, b2n en), (In.wrRet, 0)] s))) ∧
    (∀ (k : ClusterId) (idx tile : Bool),
      ((s.seq (k.val / 8)).launch.isSome = true → exec (.svFaultEnWrite k idx tile) s = .next s) ∧
      ((s.seq (k.val / 8)).launch = none → Yields (.svFaultEnWrite k idx tile) s
        (Wrote [(Reg.SV_FAULT_EN_IDX k.val, b2n idx), (Reg.SV_FAULT_EN_TILE k.val, b2n tile)] s))) ∧
    (∀ (k : ClusterId) (tile comp cap : Bool),
      ((s.seq (k.val / 8)).launch.isSome = true → exec (.shFaultEnWrite k tile comp cap) s = .next s) ∧
      ((s.seq (k.val / 8)).launch = none → Yields (.shFaultEnWrite k tile comp cap) s
        (Wrote [(Reg.SH_FAULT_EN_TILE k.val, b2n tile), (Reg.SH_FAULT_EN_COMP k.val, b2n comp),
          (Reg.SH_FAULT_EN_CAP k.val, b2n cap)] s)))) ∧
  (∀ s : State, s.awake = true →
    (∀ k, Yields (.spCntClr k) s (Cleared (State.spCleared k.val) s)) ∧
    (∀ k, Yields (.muCntClr k) s (Cleared (State.muCleared k.val) s)) ∧
    (∀ k, Yields (.svCntClr k) s (Cleared (State.svCleared k.val) s)) ∧
    (∀ k, Yields (.shCntClr k) s (Cleared (State.shCleared k.val) s)) ∧
    (∀ d, Yields (.stdCntClr d) s (Cleared (State.stdCleared d.val) s)) ∧
    (∀ r, Yields (.sqCntClr r) s (Cleared (State.sqCleared r.val) s)) ∧
    (∀ d, Yields (.dmaCntClr d) s (Cleared (State.dmaCleared d.val) s)) ∧
    (∀ k, Yields (.hbmCntClr k) s (Cleared (State.hbmCleared k.val) s)) ∧
    (∀ d, Yields (.hcCntClr d) s (Cleared (State.hcCleared d.val) s)) ∧
    Yields .clkCntClr s (Cleared State.clkCleared s) ∧
    (∀ b : Fin 5, b.val < 4 → Yields (.arbCntClr b) s (Cleared (State.arbDieCleared b.val) s)) ∧
    Yields (.arbCntClr 4) s (Cleared State.arbPortCleared s) ∧
    (∀ p, Yields (.ozlCntClr p) s (Cleared (State.ozlCleared p.val) s)) ∧
    Yields .colCntClr s (Cleared (State.colCleared ++ (List.range 6).map In.colEv) s) ∧
    Yields .htpCntClr s (Cleared State.htpCleared s) ∧
    Yields .snpCntClr s (Cleared State.snpCleared s) ∧
    Yields .pwrCntClr s (Cleared State.pwrCleared s) ∧
    Yields .hltCntClr s (Cleared State.hltCleared s))

/-- Zeroisation of a region: refused while a launch or a zeroisation runs there; when it is done exactly the region's bytes read 0, its
accumulator tiles are +0 with chain count 0, its Sieve pages and zero maps are empty, and it is counted. Remap entries and map-out: a
table write takes effect only while the region is idle or unassigned and never puts a logical row into two valid entries; a map-out
request waits, copies the row to the lowest free spare and enters it there alone, or ends with status 2 when no spare is free. -/
def Obligations.ZeroisationAndRowRemap : Prop :=
  (∀ (s : State) (r : RegionId), s.awake = true →
    ((s.seq r.val).launch.isSome = true ∨ s.rd (Reg.SP_ZERO_STAT_BUSY r.val) = 1 → exec (.spZero r) s = .next s) ∧
    ((s.seq r.val).launch = none → s.rd (Reg.SP_ZERO_STAT_BUSY r.val) = 0 →
      (s.gated r.val = false → Yields (.spZero r) s (Wrote [(Reg.SP_ZERO_STAT_BUSY r.val, 1), (Reg.SP_ZERO_CTL_GO r.val, 1)] s)) ∧
      (s.gated r.val = true → Yields (.spZero r) s fun t => t.rd (Reg.SP_ZERO_STAT_BUSY r.val) = 1 ∧ t.rd (Reg.SP_ZERO_CTL_GO r.val) = 1 ∧
        t.gated r.val = false ∧ t.mem = s.mem)) ∧
    (s.rd (Reg.SP_ZERO_STAT_BUSY r.val) = 0 → exec (.zeroisationDone r) s = .next s) ∧
    (s.rd (Reg.SP_ZERO_STAT_BUSY r.val) = 1 → Yields (.zeroisationDone r) s fun t =>
      (∀ a, t.memGet a = if spBase + 8 * r.val * spWin ≤ a ∧ a < spBase + 8 * (r.val + 1) * spWin then 0 else s.memGet a) ∧
      (∀ (k : ClusterId) (m i : Fin 4), k.val / 8 = r.val → t.tile k.val m.val i.val = AccTile.zero) ∧
      (∀ (k : ClusterId) (m : Fin 4), k.val / 8 = r.val → (t.muOf k.val m.val).pages = [] ∧ (t.muOf k.val m.val).zmaps = []) ∧
      (∀ (k : ClusterId), k.val / 8 ≠ r.val → t.clu k.val = s.clu k.val) ∧
      t.rd (Reg.SP_ZERO_STAT_BUSY r.val) = 0 ∧ t.rd (Reg.SP_ZERO_CTL_GO r.val) = 0 ∧
      t.rd (Reg.SP_ZERO_STAT_DONE_CNT r.val) = min (s.rd (Reg.SP_ZERO_STAT_DONE_CNT r.val) + 1) 65535)) ∧
  (∀ (s : State) (k : ClusterId) (b : Fin 64), s.awake = true →
    (∀ (e : Fin 256) (l : Fin 8192) (valid : Bool),
      let twice := valid = true ∧ ∃ x < 256, x ≠ e.val ∧ s.rd (Reg.SP_REMAP_VALID k.val b.val x) = 1 ∧ s.rd (Reg.SP_REMAP_LROW k.val b.val x) = l.val
      let busy := (s.seq (k.val / 8)).launch.isSome = true ∧ s.rd (Reg.TEN_REGION_OWNER (k.val / 8)) ≠ 255
      (busy → Yields (.spRemapWrite k b e l valid) s (Wrote [(Reg.SP_MAPOUT_STAT_STATUS k.val, 3)] s)) ∧
      (¬ busy → twice → exec (.spRemapWrite k b e l valid) s = .next s) ∧
      (¬ busy → ¬ twice → Yields (.spRemapWrite k b e l valid) s fun t => OnlyRegs s t ∧
        t.rd (Reg.SP_REMAP_LROW k.val b.val e.val) = l.val ∧ t.rd (Reg.SP_REMAP_VALID k.val b.val e.val) = b2n valid ∧
        Untouched [Reg.SP_REMAP_LROW k.val b.val e.val, Reg.SP_REMAP_VALID k.val b.val e.val, Reg.SP_SPARE_USED_COUNT k.val b.val] s t)) ∧
    (∀ l : Fin 8192, Yields (.spMapout k l b) s (Wrote [(Reg.SP_MAPOUT_CTL_ROW k.val, l.val), (Reg.SP_MAPOUT_CTL_BANK k.val, b.val),
      (Reg.SP_MAPOUT_CTL_GO k.val, 1), (Reg.SP_MAPOUT_STAT_STATUS k.val, 1)] s)) ∧
    (s.rd (Reg.SP_MAPOUT_CTL_GO k.val) = 0 ∨ (s.seq (k.val / 8)).launch.isSome = true → exec (.mapoutExecute k) s = .next s) ∧
    (s.rd (Reg.SP_MAPOUT_CTL_GO k.val) = 1 → (s.seq (k.val / 8)).launch = none → s.rd (Reg.SP_MAPOUT_CTL_BANK k.val) = b.val →
      ((∀ e < 256, s.rd (Reg.SP_REMAP_VALID k.val b.val e) = 1) → Yields (.mapoutExecute k) s fun t => t.mem = s.mem ∧
        t.rd (Reg.SP_MAPOUT_CTL_GO k.val) = 0 ∧ t.rd (Reg.SP_MAPOUT_STAT_STATUS k.val) = 2) ∧
      (∀ e : Fin 256, s.rd (Reg.SP_REMAP_VALID k.val b.val e.val) = 0 → (∀ x < e.val, s.rd (Reg.SP_REMAP_VALID k.val b.val x) = 1) →
        Memory.wf s.mem = true → Yields (.mapoutExecute k) s fun t =>
          let row := s.rd (Reg.SP_MAPOUT_CTL_ROW k.val)
          let new := State.rowKey k.val b.val (7936 + e.val)
          (∀ a, t.memGet a = if new ≤ a ∧ a < new + 256 then s.memGet (State.rowKey k.val b.val (s.physRow k.val b.val row) + (a - new)) else s.memGet a) ∧
          t.rd (Reg.SP_REMAP_LROW k.val b.val e.val) = row ∧ t.rd (Reg.SP_REMAP_VALID k.val b.val e.val) = 1 ∧
          ((∀ x < 256, s.rd (Reg.SP_REMAP_VALID k.val b.val x) = 1 → s.rd (Reg.SP_REMAP_LROW k.val b.val x) ≠ row) →
            t.physRow k.val b.val row = 7936 + e.val) ∧
          (∀ z < 256, s.rd (Reg.SP_REMAP_VALID k.val b.val z) = 1 → s.rd (Reg.SP_REMAP_LROW k.val b.val z) = row →
            (∀ x < 256, x ≠ z → s.rd (Reg.SP_REMAP_VALID k.val b.val x) = 1 → s.rd (Reg.SP_REMAP_LROW k.val b.val x) ≠ row) →
            t.rd (Reg.SP_REMAP_VALID k.val b.val z) = 0 ∧ t.physRow k.val b.val row = 7936 + e.val) ∧
          t.rd (Reg.SP_MAPOUT_CTL_GO k.val) = 0 ∧ t.rd (Reg.SP_MAPOUT_STAT_STATUS k.val) = 0 ∧ t.rd (Reg.SP_MAPOUT_STAT_SPARE k.val) = e.val)))

/-- The stash pools: the pool top is the largest end over the entries that hold an image, or the base; a write of a base or limit is
ignored while an entry of the pool is not FREE, and otherwise takes effect. STD_OPEN: the three checks in their order, each leaving the
directory alone; then the entry takes its fields and stands at the pool top, or is NOT_STASHED with REASON POOL where the image does not
fit. STD_CLOSE, STD_MARK and STD_FREE by the state of the entry (Table 9.9): the status they return, the entry's new state and reason,
and the pool top that follows; nothing else changes. -/
def Obligations.StashDirectory : Prop :=
  (∀ (s : State) (d : DieId) (k : Fin 3),
    let holds := fun e : Nat => s.rd (Reg.STD_ENT_STACK d.val e) = k.val ∧ (s.rd (Reg.STD_ENT_STATE d.val e) = 1 ∨
      s.rd (Reg.STD_ENT_STATE d.val e) = 2 ∨ s.rd (Reg.STD_ENT_STATE d.val e) = 3 ∧ s.rd (Reg.STD_ENT_BASE d.val e) ≠ 0)
    let endOf := fun e : Nat => s.rd (Reg.STD_ENT_BASE d.val e) + 64 * s.rd (Reg.STD_ENT_SIZE d.val e)
    let base := s.rd (Reg.STD_POOL_BASE_ADDR d.val k.val)
    base ≤ s.poolTop d.val k.val ∧ (∀ e < 1024, holds e → endOf e ≤ s.poolTop d.val k.val) ∧
    (s.poolTop d.val k.val = base ∨ ∃ e < 1024, holds e ∧ s.poolTop d.val k.val = endOf e) ∧
    (s.awake = true → ∀ (lim : Bool) (a : BitVec 48),
      let used := ∃ e < 1024, s.rd (Reg.STD_ENT_STATE d.val e) ≠ 0 ∧ s.rd (Reg.STD_ENT_STACK d.val e) = k.val
      (used → exec (.stdPoolWrite d k lim a) s = .next s) ∧
      (¬ used → Yields (.stdPoolWrite d k lim a) s (Wrote
        [(if lim then Reg.STD_POOL_LIM_ADDR d.val k.val else Reg.STD_POOL_BASE_ADDR d.val k.val, a.toNat),
          (Reg.STD_POOL_TOP_ADDR d.val k.val, if lim then base else a.toNat)] s)))) ∧
  (∀ (s : State) (d : DieId) (e : Fin 1024) (k : Fin 4) (maps : Bool) (fmt : BitVec 4) (tenant : BitVec 8) (rows cols : BitVec 32),
    s.awake = true →
    let param := k.val = 3 ∨ 8 < fmt.toNat ∨ rows = 0 ∨ cols = 0
    let ends := fun status : Nat => Wrote [(Reg.STD_ARG_ROWS_ROWS d.val, rows.toNat), (Reg.STD_ARG_COLS_COLS d.val, cols.toNat),
      (Reg.STD_CMD_STAT_STATUS d.val, status), (Reg.STD_CMD_STAT_PEND d.val, 0)] s
    let size := imgSize (stashFmt fmt.toNat) rows.toNat cols.toNat (b2n maps)
    let fits := s.poolTop d.val k.val + 64 * size ≤ s.rd (Reg.STD_POOL_LIM_ADDR d.val k.val)
    (param → Yields (.stdOpen d e k maps fmt tenant rows cols) s (ends 4)) ∧
    (¬ param → s.rd (Reg.STD_ENT_STATE d.val e.val) ≠ 0 → Yields (.stdOpen d e k maps fmt tenant rows cols) s (ends 1)) ∧
    (¬ param → s.rd (Reg.STD_ENT_STATE d.val e.val) = 0 → s.rd (Reg.TEN_STACK_OWNER (3 * d.val + k.val)) ≠ tenant.toNat →
      Yields (.stdOpen d e k maps fmt tenant rows cols) s (ends 2)) ∧
    (¬ param → s.rd (Reg.STD_ENT_STATE d.val e.val) = 0 → s.rd (Reg.TEN_STACK_OWNER (3 * d.val + k.val)) = tenant.toNat →
      Yields (.stdOpen d e k maps fmt tenant rows cols) s fun t =>
        t.rd (Reg.STD_ENT_GEN d.val e.val) = (s.rd (Reg.STD_ENT_GEN d.val e.val) + 1) % 2 ^ 32 ∧
        t.rd (Reg.STD_ENT_LFMT d.val e.val) = fmt.toNat ∧ t.rd (Reg.STD_ENT_SFMT d.val e.val) = stashFmt fmt.toNat ∧
        t.rd (Reg.STD_ENT_MAPS d.val e.val) = b2n maps ∧ t.rd (Reg.STD_ENT_STACK d.val e.val) = k.val ∧
        t.rd (Reg.STD_ENT_TENANT d.val e.val) = tenant.toNat ∧ t.rd (Reg.STD_ENT_ROWS d.val e.val) = rows.toNat ∧
        t.rd (Reg.STD_ENT_COLS d.val e.val) = cols.toNat ∧ t.rd (Reg.STD_ENT_SIZE d.val e.val) = size % 2 ^ 32 ∧
        t.rd (Reg.STD_ENT_TILES d.val e.val) = 0 ∧ t.rd (Reg.STD_CMD_STAT_PEND d.val) = 0 ∧ OnlyRegs s t ∧
        (fits → t.rd (Reg.STD_ENT_STATE d.val e.val) = 1 ∧ t.rd (Reg.STD_ENT_BASE d.val e.val) = s.poolTop d.val k.val ∧
          t.rd (Reg.STD_CMD_STAT_STATUS d.val) = 0 ∧ t.rd (Reg.STD_POOL_TOP_ADDR d.val k.val) = t.poolTop d.val k.val % 2 ^ 48) ∧
        (¬ fits → t.rd (Reg.STD_ENT_STATE d.val e.val) = 3 ∧ t.rd (Reg.STD_ENT_REASON d.val e.val) = 1 ∧
          t.rd (Reg.STD_ENT_BASE d.val e.val) = 0 ∧ t.rd (Reg.STD_CMD_STAT_STATUS d.val) = 5 ∧
          t.rd (Reg.STD_OPEN_REFUSED_COUNT d.val) = min (s.rd (Reg.STD_OPEN_REFUSED_COUNT d.val) + 1) (2 ^ 32 - 1) ∧
          t.rd (Reg.STD_NOT_STASHED_COUNT d.val) = min (s.rd (Reg.STD_NOT_STASHED_COUNT d.val) + 1) (2 ^ 32 - 1)))) ∧
  (∀ (s : State) (d : DieId) (e : Fin 1024), s.awake = true →
    let state := s.rd (Reg.STD_ENT_STATE d.val e.val)
    let grid := (s.rd (Reg.STD_ENT_ROWS d.val e.val) + 63) / 64 * ((s.rd (Reg.STD_ENT_COLS d.val e.val) + 63) / 64)
    let full := s.rd (Reg.STD_ENT_TILES d.val e.val) = grid
    let status := fun n : Nat => [(Reg.STD_CMD_STAT_STATUS d.val, n), (Reg.STD_CMD_STAT_PEND d.val, 0)]
    let k := s.rd (Reg.STD_ENT_STACK d.val e.val)
    let forced := fun (reason : Nat) (t : State) => Wrote ([(Reg.STD_ENT_STATE d.val e.val, 3), (Reg.STD_ENT_REASON d.val e.val, reason),
      (Reg.STD_NOT_STASHED_COUNT d.val, min (s.rd (Reg.STD_NOT_STASHED_COUNT d.val) + 1) (2 ^ 32 - 1)),
      (Reg.STD_POOL_TOP_ADDR d.val k, t.poolTop d.val k % 2 ^ 48)] ++ status 0) s t
    (s.rd (Reg.STD_ENT_BUSY d.val e.val) = 1 → ∀ c ∈ [Instr.stdClose d e, Instr.stdMark d e, Instr.stdFree d e], Yields c s (Wrote (status 3) s)) ∧
    (s.rd (Reg.STD_ENT_BUSY d.val e.val) = 0 →
      (state ≠ 1 → Yields (.stdClose d e) s (Wrote (status 1) s)) ∧
      (state = 1 → full → Yields (.stdClose d e) s (Wrote ((Reg.STD_ENT_STATE d.val e.val, 2) :: status 0) s)) ∧
      (state = 1 → ¬ full → Yields (.stdClose d e) s (forced 3)) ∧
      (state = 0 → Yields (.stdMark d e) s (Wrote (status 1) s)) ∧
      (state = 3 → Yields (.stdMark d e) s (Wrote (status 0) s)) ∧
      (state ≠ 0 → state ≠ 3 → Yields (.stdMark d e) s (forced 4)) ∧
      Yields (.stdFree d e) s fun t => Wrote ([(Reg.STD_ENT_STATE d.val e.val, 0),
        (Reg.STD_POOL_TOP_ADDR d.val k, t.poolTop d.val k % 2 ^ 48)] ++ status 0) s t))

/-- The atomic operations of Table 12.2 at a core's port: the old value is returned and the bytes of the operand alone change, to the
table's value; a misaligned address, a hole, a stack that is LOST or zeroising and a poisoned granule change nothing in memory and say
so; an operation on a protected page is held with GO at 1, and a GO while one is held changes nothing. HC_FLUSH: every dirty line of the
selected stacks stays valid and becomes clean, every other line keeps its state, and memory is unchanged. -/
def Obligations.AtomicsAndFlush : Prop :=
  (∀ (s : State) (c : CoreId), s.awake = true →
    let a := s.rd (Reg.HC_ATOM_ADDR_ADDR c.val)
    let k := a / 2 ^ 36
    let signed := fun x : Nat => (BitVec.ofNat 32 x).toInt
    ∀ p ∈ [(Instr.fadd32 c, 1, 4, fun old v _ : Nat => (roundElem (efmt 0) .rne false ((f32 old).add (f32 v))).1),
        (Instr.fadd16 c, 2, 2, fun old v _ => (roundElem (efmt 1) .rne false ((decodeElem (efmt 1) old).add (decodeElem (efmt 1) v))).1),
        (Instr.iadd32 c, 3, 4, fun old v _ => (old + v) % 2 ^ 32), (Instr.iadd64 c, 4, 8, fun old v _ => (old + v) % 2 ^ 64),
        (Instr.umin32 c, 5, 4, fun old v _ => if old ≤ v then old else v), (Instr.umax32 c, 6, 4, fun old v _ => if v ≤ old then old else v),
        (Instr.smin32 c, 7, 4, fun old v _ => if signed old ≤ signed v then old else v),
        (Instr.smax32 c, 8, 4, fun old v _ => if signed v ≤ signed old then old else v),
        (Instr.fmin32 c, 9, 4, fun old v _ => (roundElem (efmt 0) .rne false ((f32 old).min (f32 v))).1),
        (Instr.fmax32 c, 10, 4, fun old v _ => (roundElem (efmt 0) .rne false ((f32 old).max (f32 v))).1),
        (Instr.cas32 c, 11, 4, fun old v cmp => if old = cmp then v else old),
        (Instr.cas64 c, 12, 8, fun old v cmp => if old = cmp then v else old)],
      let op := p.2.1
      let n := p.2.2.1
      let u := s.wr (Reg.HC_ATOM_CTL_OP c.val) op
      let v := s.rd (Reg.HC_ATOM_OPND_V c.val) % 2 ^ (8 * n)
      let cmp := s.rd (Reg.HC_ATOM_CMP_C c.val) % 2 ^ (8 * n)
      let ends := fun status : Nat => Wrote [(Reg.HC_ATOM_CTL_OP c.val, op), (Reg.HC_ATOM_CTL_GO c.val, 0), (Reg.HC_ATOM_STAT_STATUS c.val, status)] s
      (s.rd (Reg.HC_ATOM_CTL_GO c.val) = 1 → exec p.1 s = .next s) ∧
      (s.rd (Reg.HC_ATOM_CTL_GO c.val) = 0 →
      (a % n ≠ 0 → Yields p.1 s (ends 2)) ∧
      (a % n = 0 → 12 * 2 ^ 36 ≤ a → Yields p.1 s (ends 3)) ∧
      (a % n = 0 → a < 12 * 2 ^ 36 → hbmSize ≤ a % 2 ^ 36 → Yields p.1 s fun t => t.rd (Reg.HC_ATOM_STAT_STATUS c.val) = 3 ∧ t.mem = s.mem) ∧
      (a % n = 0 → State.inStack a n = true →
        (s.rd (Reg.HBM_STAT_STATE k) = 5 → Yields p.1 s (ends 5)) ∧ (s.rd (Reg.HBM_STAT_STATE k) = 4 → Yields p.1 s (ends 6)) ∧
        (s.stackStatus k = 0 → s.protectedPage (State.pageOf a) = true → Yields p.1 s fun t =>
          t.rd (Reg.HC_ATOM_CTL_GO c.val) = 1 ∧ t.mem = s.mem ∧ t.heldw = s.heldw ++ [⟨c.val, [], true, [⟨op, a, s.rd (Reg.HC_ATOM_OPND_V c.val),
            s.rd (Reg.HC_ATOM_CMP_C c.val)⟩]⟩] ∧ State.pageOf a ∈ Tbl.get [] t.copyq (State.pageOf a / 18432)) ∧
        (s.stackStatus k = 0 → s.protectedPage (State.pageOf a) = false →
          (Tbl.get 0 (u.cacheTouch (a / 128) true false true).poison (a / 256) = 1 → Yields p.1 s fun t =>
            t.rd (Reg.HC_ATOM_CTL_GO c.val) = 0 ∧ t.rd (Reg.HC_ATOM_STAT_STATUS c.val) = 4 ∧ t.mem = s.mem) ∧
          (Tbl.get 0 (u.cacheTouch (a / 128) true false true).poison (a / 256) ≠ 1 → Yields p.1 s fun t =>
            t.rd (Reg.HC_ATOM_CTL_GO c.val) = 0 ∧ t.rd (Reg.HC_ATOM_STAT_STATUS c.val) = 0 ∧ t.rd (Reg.HC_ATOM_RES_OLD c.val) = s.peekN a n ∧
            ∀ j, t.memGet j = if a ≤ j ∧ j < a + n then p.2.2.2 (s.peekN a n) v cmp / 256 ^ (j - a) % 256 else s.memGet j))))) ∧
  (∀ (s : State) (d : DieId) (m : BitVec 3), s.awake = true →
    Yields (.hcFlush d m) s fun t => t.mem = s.mem ∧ t.rd (Reg.HC_FLUSH_STACKS d.val) = m.toNat ∧
      ∀ (key : Nat) (w : Fin 16),
        let x := (Tbl.get CacheSet.empty s.cache key).ways.getD w.val (0, false)
        (Tbl.get CacheSet.empty t.cache key).ways.getD w.val (0, false) =
          (x.1, x.2 && !(key / 2 ^ 17 == d.val && m.toNat.testBit ((x.1 - 1) / 2 ^ 29 % 3))))

/-- HC_WP_CMD sets or clears the protection bits of exactly the pages of its range. A protection changes nothing else, so it copies
nothing. A release takes the pages that it frees out of the copy queue and copies nothing: with no write held memory is unchanged, and
with one held that write goes on once none of its pages is protected, and stays held otherwise. STACK 3 names no stack, and nothing
changes. What a write brings to protected pages is held and the pages are queued, while its bytes in other pages are written; a write
that meets no protected page is no matter of this command. The copy of the page at the head of a stack's queue puts its 2 MiB into the
next free staging slot, takes it off the queue, clears its protection bit and leaves every other byte alone; a write held for that page
alone then goes on. Without a page or a slot nothing changes, and a stack that serves no access gives no page. -/
def Obligations.PageProtectionAndCopies : Prop :=
  (∀ (s : State) (d : DieId) (j : Fin 4) (first count : BitVec 15), s.awake = true →
    let k := 3 * d.val + j.val
    let inside := fun q : Nat => first.toNat ≤ q ∧ q < first.toNat + count.toNat
    let frees := fun t : State => t.rd (Reg.HC_WP_FIRST_PAGE d.val) = first.toNat ∧ t.rd (Reg.HC_WP_COUNT_PAGES d.val) = count.toNat ∧
      (∀ q < 18432, t.protectedPage (18432 * k + q) = true ↔ s.protectedPage (18432 * k + q) = true ∧ ¬ inside q) ∧
      ∀ p ∈ Tbl.get [] t.copyq k, p ∈ Tbl.get [] s.copyq k ∧ (p / 18432 = k → t.protectedPage p = true)
    (j.val = 3 → exec (.hcWpProtect d j first count) s = .next s ∧ exec (.hcWpRelease d j first count) s = .next s) ∧
    (j.val < 3 → Yields (.hcWpProtect d j first count) s fun t => OnlyRegs s t ∧
      t.rd (Reg.HC_WP_FIRST_PAGE d.val) = first.toNat ∧ t.rd (Reg.HC_WP_COUNT_PAGES d.val) = count.toNat ∧
      (∀ q < 18432, t.protectedPage (18432 * k + q) = true ↔ s.protectedPage (18432 * k + q) = true ∨ inside q) ∧
      (∀ f : Fld, (∀ w < 576, f.bit ≠ (Reg.HC_WP_BITS d.val j.val w).bit) → f.bit ≠ (Reg.HC_WP_FIRST_PAGE d.val).bit →
        f.bit ≠ (Reg.HC_WP_COUNT_PAGES d.val).bit → t.rd f = s.rd f)) ∧
    (j.val < 3 → s.heldw = [] → Yields (.hcWpRelease d j first count) s fun t => t.mem = s.mem ∧ t.heldw = [] ∧ frees t) ∧
    ∀ (src a : Nat) (bs : List Byte) (al : Bool), j.val < 3 → bs ≠ [] → State.inStack a bs.length = true → a / 2 ^ 36 = k → s.stackStatus k = 0 →
      s.heldw = [⟨src, at' a (bs.map BitVec.toNat), al, []⟩] →
      let stays := ∃ i, a ≤ i ∧ i < a + bs.length ∧ s.protectedPage (State.pageOf i) = true ∧ ¬ inside (i % 2 ^ 36 / 2 ^ 21)
      (stays → Yields (.hcWpRelease d j first count) s fun t => t.mem = s.mem ∧ t.heldw = s.heldw ∧ frees t) ∧
      (¬ stays → Yields (.hcWpRelease d j first count) s fun t => t.heldw = [] ∧ frees t ∧
        ∀ i, t.memGet i = if a ≤ i ∧ i < a + bs.length then (bs.getD (i - a) 0).toNat else s.memGet i)) ∧
  ((∀ (s : State) (addr : BitVec 48) (bs : List Byte), s.awake = true →
    let a := addr.toNat
    let ws := at' a (bs.map BitVec.toNat)
    (s.touchesProtected ws = false → exec (.protectedPageWrite addr bs) s = .next s) ∧
    (State.inStack a bs.length = true → s.touchesProtected ws = true → s.stackStatus (a / 2 ^ 36) = 0 →
      Yields (.protectedPageWrite addr bs) s fun t => (∃ l, t.heldw = s.heldw ++ l ∧
          (l.flatMap fun w => w.ws) = ws.filter (fun p => s.protectedPage (State.pageOf p.1)) ∧ ∀ w ∈ l, w.src = 255 ∧ w.atoms = []) ∧
        (∀ p ∈ ws, s.protectedPage (State.pageOf p.1) = true → State.pageOf p.1 ∈ Tbl.get [] t.copyq (State.pageOf p.1 / 18432)) ∧
        ∀ i, t.memGet i = if a ≤ i ∧ i < a + bs.length ∧ s.protectedPage (State.pageOf i) = false then (bs.getD (i - a) 0).toNat else s.memGet i)) ∧
  (∀ (s : State) (k : StackId) (ns : BitVec 32), s.awake = true →
    let i := Instr.firstTouchCopyDone k ns
    let waiting := Tbl.get [] s.copyq k.val
    (waiting = [] ∨ s.freeSlot k.val = none → exec i s = .next s) ∧
    ∀ (q slot : Nat) (l : List Nat), waiting = q :: l → s.freeSlot k.val = some slot →
      let page := 2 ^ 36 * k.val + 2 ^ 21 * (q % 18432)
      let copied := fun n : Nat => if slot ≤ n ∧ n < slot + 2 ^ 21 then s.memGet (page + (n - slot)) else s.memGet n
      let ends := fun t : State => t.protectedPage q = false ∧ Tbl.get [] t.copyq k.val = l ∧ t.heldw = [] ∧
        t.rd (Reg.HC_WP_SLOT_CNT_FREE (k.val / 3) (k.val % 3)) = s.rd (Reg.HC_WP_SLOT_CNT_FREE (k.val / 3) (k.val % 3)) - 1
      (s.stackStatus k.val ≠ 0 → s.heldw = [] → Yields i s fun t => Tbl.get [] t.copyq k.val = l ∧ t.heldw = [] ∧ t.mem = s.mem) ∧
      (s.stackStatus k.val = 0 → q / 18432 = k.val → Memory.wf s.mem = true → s.heldw = [] →
        Yields i s fun t => ends t ∧ ∀ n, t.memGet n = copied n) ∧
      ∀ (src a : Nat) (bs : List Byte) (al : Bool), s.stackStatus k.val = 0 → q / 18432 = k.val → Memory.wf s.mem = true → bs ≠ [] →
        State.inStack a bs.length = true → a / 2 ^ 36 = k.val → s.heldw = [⟨src, at' a (bs.map BitVec.toNat), al, []⟩] →
        (∀ n, a ≤ n → n < a + bs.length → s.protectedPage (State.pageOf n) = true → State.pageOf n = q) →
        Yields i s fun t => ends t ∧ ∀ n, t.memGet n = if a ≤ n ∧ n < a + bs.length then (bs.getD (n - a) 0).toNat else copied n))

/-- Zeroisation of a stack: refused while a page is protected or the stack is in use, and otherwise started; when it is done exactly the
stack's bytes read 0, with no poison left, and the stack is ready. A refresh shows the doubled rate above 85 °C or under FORCE2X, and
counts the on-die severity reports, of which the spec leaves the number open (log 181). A calibration is counted, or deferred while the
stack copies a page. Training ends at the first rate from MAXRATE down that passes, and leaves the stack LOST where none does. A launch
that addresses a stack that is LOST faults with STACK_LOST, and its regions stop; with no such launch nothing but registers changes. -/
def Obligations.StackUpkeep : Prop :=
  (∀ (s : State) (k : StackId), s.awake = true →
    let state := s.rd (Reg.HBM_STAT_STATE k.val)
    let guarded := ∃ q < 18432, s.protectedPage (18432 * k.val + q) = true
    let used := (∃ p ∈ s.launches, p.2.stackSet.testBit k.val = true) ∨
      ∃ e < 1024, s.rd (Reg.STD_ENT_STATE (k.val / 3) e) ≠ 0 ∧ s.rd (Reg.STD_ENT_STACK (k.val / 3) e) = k.val % 3
    (state = 4 ∨ state = 5 → exec (.hbmZero k) s = .next s) ∧
    (state ≠ 4 → state ≠ 5 → guarded → Yields (.hbmZero k) s (Wrote [(Reg.HBM_ZERO_STAT_STATUS k.val, 2)] s)) ∧
    (state ≠ 4 → state ≠ 5 → ¬ guarded → used → Yields (.hbmZero k) s (Wrote [(Reg.HBM_ZERO_STAT_STATUS k.val, 3)] s)) ∧
    (state ≠ 4 → state ≠ 5 → ¬ guarded → ¬ used → Yields (.hbmZero k) s
      (Wrote [(Reg.HBM_ZERO_CTL_GO k.val, 1), (Reg.HBM_ZERO_STAT_STATUS k.val, 1), (Reg.HBM_STAT_STATE k.val, 4)] s)) ∧
    (state ≠ 4 → exec (.hbmZeroDone k) s = .next s) ∧
    (state = 4 → Yields (.hbmZeroDone k) s fun t =>
      (∀ a, t.memGet a = if 2 ^ 36 * k.val ≤ a ∧ a < 2 ^ 36 * k.val + hbmSize then 0 else s.memGet a) ∧
      (∀ g, 2 ^ 28 * k.val ≤ g → g < 2 ^ 28 * k.val + hbmSize / 256 → Tbl.get 0 t.poison g = 0) ∧
      t.rd (Reg.HBM_STAT_STATE k.val) = 2 ∧ t.rd (Reg.HBM_ZERO_CTL_GO k.val) = 0 ∧
      t.rd (Reg.HBM_ZERO_STAT_DONE_CNT k.val) = min (s.rd (Reg.HBM_ZERO_STAT_DONE_CNT k.val) + 1) 65535)) ∧
  (∀ (s : State) (k : StackId), s.awake = true →
    Yields (.hbmRefresh k) s (fun t => t = { s with regs := t.regs, free := s.free + 1 } ∧
      t.rd (Reg.HBM_STAT_HOT k.val) = (if 85 < s.rd (Reg.HBM_STAT_TEMP k.val) ∨ s.rd (Reg.HBM_CFG_FORCE2X k.val) = 1 then 1 else 0) ∧
      t.rd (Reg.HBM_ODECC_CNT_COUNT k.val) = min (s.rd (Reg.HBM_ODECC_CNT_COUNT k.val) + Config.odeccReports s.free) (2 ^ 32 - 1) ∧
      Untouched [Reg.HBM_STAT_HOT k.val, Reg.HBM_ODECC_CNT_COUNT k.val] s t) ∧
    (∀ bad : Bool,
      (Tbl.get [] s.copyq k.val ≠ [] → (s.freeSlot k.val).isSome = true → Yields (.channelCalibration k bad) s
        (Wrote [(In.calDue k.val, min (s.rd (In.calDue k.val) + 1) (2 ^ 32 - 1)),
          (In.calBad k.val, min (s.rd (In.calBad k.val) + b2n bad) (2 ^ 32 - 1))] s)) ∧
      (Tbl.get [] s.copyq k.val = [] ∨ s.freeSlot k.val = none → Yields (.channelCalibration k bad) s
        (Wrote [(Reg.HBM_CAL_CNT_COUNT k.val, min (s.rd (Reg.HBM_CAL_CNT_COUNT k.val) + 1) (2 ^ 32 - 1)),
          (Reg.HBM_CAL_FAIL_COUNT k.val, min (s.rd (Reg.HBM_CAL_FAIL_COUNT k.val) + b2n bad) (2 ^ 32 - 1))] s))) ∧
    (∀ (passes : BitVec 3) (q : Fin 3), s.rd (Reg.HBM_CFG_MAXRATE k.val) ≤ q.val → passes.toNat.testBit q.val = true →
      (∀ p < q.val, s.rd (Reg.HBM_CFG_MAXRATE k.val) ≤ p → passes.toNat.testBit p = false) →
      Yields (.stackTraining k passes) s fun t => t.rd (Reg.HBM_STAT_STATE k.val) = 2 ∧ t.rd (Reg.HBM_STAT_RATE k.val) = q.val ∧ OnlyRegs s t) ∧
    let lost := fun P : State → Prop => Yields (.stackLost k) s P ∧
      ∀ passes : BitVec 3, (∀ p < 3, s.rd (Reg.HBM_CFG_MAXRATE k.val) ≤ p → passes.toNat.testBit p = false) → Yields (.stackTraining k passes) s P
    let hit := s.launches.filter fun p => p.2.stackSet.testBit k.val && p.2.fault.isNone
    (hit = [] → lost fun t => t.rd (Reg.HBM_STAT_STATE k.val) = 5 ∧ t.rd (Reg.HBM_ZERO_CTL_GO k.val) = 0 ∧ OnlyRegs s t) ∧
    ∀ (n : Nat) (l : Launch) (r : RegionId), hit = [(n, l)] → s.launch n = l → l.aborted = false → l.regions.testBit r.val = true →
      s.active r.val = true → (s.seq r.val).launch = some n → (∀ j < r.val, l.regions.testBit j = true → s.active j = false) →
      lost fun t => t.rd (Reg.HBM_STAT_STATE k.val) = 5 ∧ t.rd (Reg.HBM_ZERO_CTL_GO k.val) = 0 ∧ t.mem = s.mem ∧
        (t.launch n).fault = some ⟨0x54, r.val, 0, (s.seq r.val).cur, (s.seq r.val).ic⟩ ∧
        ∀ j < 32, l.regions.testBit j = true → (s.seq j).launch.isSome = true → (t.seq j).stopped = true ∧ (t.seq j).holds = [])

/-- A cycle of an arbiter (R352, R358 to R362). Transfers to a bank whose queue holds two requests are withheld; with nothing else
waiting nothing is granted. A tree grants the holder of a burst lock, or else one leaf of the highest effective priority that waits,
where P0 goes first but not twice in a row while others wait; the leaf then waits no more. A controller's queue grants the oldest of
that priority. Where a transfer of a cluster or a DMA channel to another cluster is arbitrated (R11, R354): on its own die at the
destination's ingress port; to the other die of its row or column at the sub-link (n + k) mod 16 of that edge, and then at the port of
the destination as traffic of the ingress from that edge; between diagonal dies first over the row edge, then over the column edge of
the die beside. Slot tables: ARM waits for a swap; a swap exchanges the 64 words of the active and the shadow table, starts at slot 0
and is counted; without ARM nothing swaps (R367). A port that is not ACTIVE only takes the flits offered to it. On an Ozpel port a NAK
that is owed, and then a resend, takes the slot; a slot with nothing to send carries an idle flit. Otherwise one of the flits that may
be sent leaves: one of the slot's owner where it has some, P0 in a management slot, P0 before the rest in a slot that its owner does not
use (R366). On an Ozpel port it takes the next SEQ, uses a credit and stays in the replay buffer (R376, R377). -/
def Obligations.ArbitrationAndSlots : Prop :=
  (∀ (s : State) (d : DieId) (res : Fin 228) (cycles : BitVec 32) (arrivals : List Transfer), s.awake = true →
    let i := Instr.arbitrationCycle d res cycles arrivals
    let key := 256 * d.val + res.val
    let a := Tbl.get Arb.idle s.arbs key
    let ws := s.arrive d.val res.val cycles.toNat a.waits (arrivals.map fun q =>
      (match q.die with | some e => e.val | none => 4, q.req.val, q.addr.toNat, q.prio.val, q.burst.val))
    let free := ws.filter fun x => !s.withheld res.val x.unit
    let after := fun t : State => Tbl.get Arb.idle t.arbs key
    let count := fun n : Nat => Reg.ARB_GRANT_COUNT d.val n
    let granted := fun (g : Nat) (t : State) => t.rd (count g) = min (s.rd (count g) + 1) (2 ^ 32 - 1) ∧ ∀ n < 97, n ≠ g → t.rd (count n) = s.rd (count n)
    let frame := fun t : State => t = { s with regs := t.regs, arbs := t.arbs } ∧ ∀ k, k ≠ key → Tbl.get Arb.idle t.arbs k = Tbl.get Arb.idle s.arbs k
    let best := fun (x : Waiter) (l : List Waiter) =>
      ((∀ y ∈ l, y.level = 0) ∨ (∃ y ∈ l, y.level = 0) ∧ a.p0 = false → ∀ y ∈ l, x.level ≤ y.level) ∧
      ((∃ y ∈ l, 0 < y.level) → (∀ y ∈ l, y.level ≠ 0) ∨ a.p0 = true → 0 < x.level ∧ ∀ y ∈ l, 0 < y.level → x.level ≤ y.level)
    (a.lock = none → free = [] → Yields i s fun t => frame t ∧ t.regs = s.regs ∧ after t = { a with waits := ws }) ∧
    (∀ g p k unit, a.lock = some (g, p, k, unit) → res.val < 132 →
      (s.withheld res.val unit = true → Yields i s fun t => frame t ∧ t.regs = s.regs ∧ after t = { a with waits := ws }) ∧
      (s.withheld res.val unit = false → Yields i s fun t => frame t ∧ granted g.val t ∧ (after t).p0 = decide (p = 0) ∧
        (after t).lock = if k ≤ 1 then none else some (g, p, k - 1, unit + 1))) ∧
    (a.lock = none → res.val < 132 → free ≠ [] → Yields i s fun t => frame t ∧ ∃ x ∈ free, granted x.leaf.val t ∧ best x free ∧
      (after t).p0 = decide (x.level = 0) ∧ (∀ y ∈ (after t).waits, y.leaf ≠ x.leaf) ∧
      (∀ y ∈ ws, y.leaf ≠ x.leaf → ∃ z ∈ (after t).waits, z.leaf = y.leaf ∧ z.unit = y.unit ∧ z.prio = y.prio) ∧
      (if x.burst ≤ 1 then (after t).lock = none else ∃ p, (after t).lock = some (x.leaf, p, x.burst - 1, x.unit + 1))) ∧
    (132 ≤ res.val → free ≠ [] → Yields i s fun t => frame t ∧ ∃ x l1 l2, ws = l1 ++ x :: l2 ∧ best x ws ∧ (∀ y ∈ l1, y.level ≠ x.level) ∧
      (after t).p0 = decide (x.level = 0) ∧
      (after t).waits.map (fun y => (y.req, y.unit, y.prio)) = (l1 ++ l2).map fun y => (y.req, y.unit, y.prio))) ∧
  (∀ (s : State) (a b : DieId) (n : Fin 80) (k : Fin 64) (addr : BitVec 48) (prio : Fin 4) (burst : Fin 32) (cycles : BitVec 32) (o : Nat),
    s.awake = true → s.arbs = [] → s.remotes = [] → place addr.toNat = .sp (64 * b.val + k.val) o →
    let beside : DieId := Fin.ofNat 4 (a.val ^^^ 1)
    let grants := fun (d : DieId) (res : Fin 228) (leaf : Nat) => Yields (.arbitrationCycle d res cycles [⟨some a, Fin.ofNat 97 n.val, addr, prio, burst⟩]) s
      fun t => t.rd (Reg.ARB_GRANT_COUNT d.val leaf) = min (s.rd (Reg.ARB_GRANT_COUNT d.val leaf) + 1) (2 ^ 32 - 1)
    let port : Fin 228 := Fin.ofNat 228 k.val
    let row : Fin 228 := Fin.ofNat 228 (64 + (n.val + k.val) % 16)
    let column : Fin 228 := Fin.ofNat 228 (80 + (n.val + k.val) % 16)
    (a = b → grants b port n.val) ∧
    (a.val ^^^ b.val = 1 → grants a row n.val ∧ grants b port 83) ∧
    (a.val ^^^ b.val = 2 → grants a column n.val ∧ grants b port 84) ∧
    (a.val ^^^ b.val = 3 → grants a row n.val ∧ grants beside column 83 ∧ grants b port 84)) ∧
  (∀ (s : State) (q : Fin 7) (flits : List (BitVec 128 × List Byte)), s.awake = true →
    let i := Instr.portSlot q flits
    let new : List Flit := flits.map fun f => ⟨f.1.toNat, f.2.map BitVec.toNat⟩
    let x := s.link q.val
    let host := q.val = 6
    let active := if host then s.rd Reg.HTP_STAT_LINK = 1 else s.rd (Reg.OZL_STAT_STATE q.val) = 4
    let all := x.outq ++ if host then new else new.map Flit.full
    let shut := s.rd (Reg.OZL_STAT_MISWIRE q.val) = 1 ∧ s.rd (Reg.OZL_CTL_ACCEPT q.val) = 0
    let may := if host then all else if x.credits = 0 ∨ 1024 ≤ x.replay.length then [] else if shut then all.filter (fun f => f.typ == 2) else all
    let o := s.slotOwner q.val (s.rd (In.slotPos q.val))
    let own := fun f : Flit => if o = 0xFE then f.prio = 0 else o ≠ 0xFF ∧ f.owner = o
    let frame := fun t : State => t = { s with regs := t.regs, links := t.links } ∧ ∀ p, p ≠ q.val → t.link p = s.link p
    let sent := fun (f : Flit) (typ seq : Nat) => bitsOf f.hdr 3 0 = typ ∧ bitsOf f.hdr 47 32 = seq % 2 ^ 16 ∧ bitsOf f.hdr 63 48 = x.rxSeq % 2 ^ 16 ∧
      bitsOf f.hdr 73 64 = x.freed % 2 ^ 10
    Yields (.arbSlotArm q) s (Wrote [(Reg.ARB_SLOT_CTL_ARM q.val, 1)] s) ∧
    (s.rd (Reg.ARB_SLOT_CTL_ARM q.val) = 0 → exec (.slotTableSwap q) s = .next s) ∧
    (s.rd (Reg.ARB_SLOT_CTL_ARM q.val) = 1 → Yields (.slotTableSwap q) s fun t => OnlyRegs s t ∧ t.rd (Reg.ARB_SLOT_CTL_ARM q.val) = 0 ∧
      t.rd (In.slotPos q.val) = 0 ∧ (∀ w < 64, t.rd (Reg.ARB_SLOT_ACT q.val w) = s.rd (Reg.ARB_SLOT_SHD q.val w) ∧
        t.rd (Reg.ARB_SLOT_SHD q.val w) = s.rd (Reg.ARB_SLOT_ACT q.val w)) ∧
      t.rd (Reg.ARB_SLOT_STAT_SWAPS q.val) = min (s.rd (Reg.ARB_SLOT_STAT_SWAPS q.val) + 1) (2 ^ 16 - 1)) ∧
    (¬ active → Yields i s fun t => frame t ∧ t.link q.val = { x with outq := all }) ∧
    (active → ¬ host → x.nak = true → Yields i s fun t => frame t ∧ ∃ f, sent f 3 x.txSeq ∧
      t.link q.val = { x with outq := all, nak := false, freed := 0, wire := some (f, f.crc) }) ∧
    (active → ¬ host → x.nak = false → x.resend ≠ 0 → Yields i s fun t => frame t ∧
      t.rd (Reg.OZL_REPLAY_COUNT q.val) = min (s.rd (Reg.OZL_REPLAY_COUNT q.val) + 1) (2 ^ (Reg.OZL_REPLAY_COUNT q.val).w - 1) ∧
      let f := x.replay.getD (x.replay.length - x.resend) ⟨0, []⟩
      ∃ g, sent g f.typ (bitsOf f.hdr 47 32) ∧ g.pay = f.pay ∧
        t.link q.val = { x with outq := all, resend := x.resend - 1, freed := 0, wire := some (g, g.crc) }) ∧
    (active → (host ∨ x.nak = false ∧ x.resend = 0) → may = [] → Yields i s fun t => frame t ∧
      if host then t.link q.val = { x with outq := all }
      else ∃ f, sent f 0 x.txSeq ∧ t.link q.val = { x with outq := all, freed := 0, wire := some (f, f.crc) }) ∧
    (active → (host ∨ x.nak = false ∧ x.resend = 0) → may ≠ [] → Yields i s fun t => frame t ∧ ∃ f ∈ may,
      ((∃ g ∈ may, own g) → own f) ∧ ((∀ g ∈ may, ¬ own g) → (∃ g ∈ may, g.prio = 0) → f.prio = 0) ∧
      if host then t.link q.val = { x with outq := all.erase f }
      else ∃ g, sent g f.typ (x.txSeq + 1) ∧ g.pay = f.pay ∧ t.link q.val = { x with outq := all.erase f, replay := x.replay ++ [g], txSeq := (x.txSeq + 1) % 2 ^ 16, credits := x.credits - 1, freed := 0, wire := some (g, g.crc) }))

/-- Islands, crossings and registers: the clock step is the least of its three targets, a stuck crossing is counted and logged, and a
register write of 1, 2 or 4 bytes replaces just those bytes of a writable register, leaves a read-only one alone, and writes nothing
where it is misaligned. Pin readback, a stuck SMBus line, the answers on SMBus, and a reference clock that goes or returns. -/
def Obligations.ClocksPinsAndRegisters : Prop :=
  (∀ (s : State) (r : RegionId) (src dst : BitVec 6) (value : BitVec 64), s.awake = true →
    let f := Reg.SQ_WAIT_LIMIT_US r.val
    let at18 := fun b : Nat => BitVec.ofNat 48 (Reg.regionB r.val + 0x8018 + b)
    Yields (.islandClockChange r) s (Wrote [(Reg.CLK_ISL_CUR r.val,
      min (min (s.rd (Reg.CLK_ISL_CAP r.val)) 14) (min (s.rd (Reg.CLK_ISL_PWR r.val)) (s.rd (Reg.CLK_ISL_THERM r.val))))] s) ∧
    Yields (.crossingStuck src dst) s (Wrote [(Reg.CLK_XING_STUCK_COUNT, min (s.rd Reg.CLK_XING_STUCK_COUNT + 1) (2 ^ Reg.CLK_XING_STUCK_COUNT.w - 1)),
      (Reg.CLK_XING_LOG_SRC, src.toNat), (Reg.CLK_XING_LOG_DST, dst.toNat), (Reg.CLK_XING_LOG_VALID, 1)] s) ∧
    (∀ lanes : Fin 3, ∀ b < 4, b % 2 ^ lanes.val = 0 → Yields (.registerWrite (at18 b) (Fin.castLE (by decide) lanes) value) s (Wrote [(f,
      s.rd f % 2 ^ (8 * b) + value.toNat % 2 ^ (8 * 2 ^ lanes.val) * 2 ^ (8 * b) +
        s.rd f / 2 ^ (8 * b + 8 * 2 ^ lanes.val) * 2 ^ (8 * b + 8 * 2 ^ lanes.val))] s)) ∧
    exec (.registerWrite (BitVec.ofNat 48 (Reg.regionB r.val + 0x8010)) 2 value) s = .next s ∧
    ∀ (a : BitVec 48) (lanes : Fin 4), a.toNat % 2 ^ lanes.val ≠ 0 → exec (.registerWrite a lanes value) s = .next s) ∧
  (∀ s : State, s.standby = true →
    let driven := b2n s.alertLow + (1 - s.rd In.pwrGood) * 2 + s.rd (In.alert 7) * 4
    (∀ low high : BitVec 4, Yields (.pinReadbackTick low high) s
      (Wrote [(Reg.HLT_PIN_FAULT_SHORT_LO, s.rd Reg.HLT_PIN_FAULT_SHORT_LO ||| (low.toNat &&& (15 - driven))),
        (Reg.HLT_PIN_FAULT_SHORT_HI, s.rd Reg.HLT_PIN_FAULT_SHORT_HI ||| (high.toNat &&& (driven + 8)))] s)) ∧
    Yields (.smbusStuck true) s (Wrote [(Reg.HLT_PIN_FAULT_SCL_STUCK, 1)] s) ∧
    Yields (.smbusStuck false) s (Wrote [(Reg.HLT_PIN_FAULT_SDA_STUCK, 1)] s) ∧
    (∀ p ∈ [(0x00#8, 1, s.rd Reg.MOD_READY_STATUS + s.rd Reg.PWR_STAT_STATE * 16), (0x01#8, 4, s.rd Reg.MOD_READY_REGIONS_MASK),
        (0x02#8, 2, s.rd Reg.MOD_READY_STACKS_MASK), (0x03#8, 2, s.causeWord), (0x10#8, 2, s.rd (In.meas 2)), (0x11#8, 2, s.rd (In.meas 0)),
        (0x12#8, 2, s.rd (In.meas 1)), (0x20#8, 4, s.alertSrc), (0x21#8, 4, s.feedWord), (0x22#8, 4, s.pinWord), (0x23#8, 4, s.railWord),
        (0x13#8, 5, ofLe ((List.range 5).map fun d => s.rd (In.hottest d) % 256)), (0x30#8, 8, s.serial),
        (0x31#8, 2, s.rd Reg.MOD_STRAP_SLOT_ID + s.rd Reg.MOD_STRAP_MGR_EN * 2 ^ 8 + s.rd Reg.MOD_STRAP_FEED_ID * 2 ^ 12)],
      Yields (.smbusRead p.1) s (Wrote [(In.smbus 0, p.2.1), (In.smbus 1, p.2.2)] s)) ∧
    (∀ code ∉ [0x00#8, 0x01, 0x02, 0x03, 0x10, 0x11, 0x12, 0x13, 0x20, 0x21, 0x22, 0x23, 0x30, 0x31],
      Yields (.smbusRead code) s (Wrote [(In.smbus 0, 0), (In.smbus 1, 0)] s)) ∧
    (s.awake = true →
      (Yields (.refclkPresent true) s fun t => OnlyRegs s t ∧ t.rd Reg.HTP_STAT_REFCLK = 1 ∧ (t.rd Reg.CLK_DOM_STAT_RUN).testBit 5 = true) ∧
      (Yields (.refclkPresent false) s fun t => (∀ p < 6, t.rd (Reg.OZL_STAT_REFCLK p) = 1) ∧ (t.rd Reg.CLK_DOM_STAT_RUN).testBit 6 = true) ∧
      (Yields (.refclkAbsent true) s fun t => t.rd Reg.HTP_STAT_REFCLK = 0 ∧ (t.rd Reg.CLK_DOM_STAT_RUN).testBit 5 = false ∧
        t.rd Reg.HTP_STAT_LINK = 0) ∧
      (Yields (.refclkAbsent false) s fun t => (∀ p < 6, t.rd (Reg.OZL_STAT_REFCLK p) = 0 ∧ t.rd (Reg.OZL_STAT_STATE p) = 0) ∧
        (t.rd Reg.CLK_DOM_STAT_RUN).testBit 6 = false)))

/-- A port with its clock present leaves DISABLED for DETECT when it is enabled (R378). Full training starts from ACTIVE, RETRAIN or
DOWN with every lane to be tested again, and reports what was not acknowledged (R383). At its end in DETECT or TRAIN the port is ACTIVE
with the widest of 16, 12, 8 and 4 lanes that the good lanes and MAXW allow, its sequence numbers at 0 and its credits granted, or DOWN
below 4 lanes (R379, R380); it records the peer, and a wrong peer port as MISWIRE (R372), until ACCEPT is set. A wake pattern repeats
until the peer starts DETECT or 100 of them have left (R385). In every other state these change nothing. Lane faults and retrains of a
port: a lost lane is marked and begins a retrain, as do a peer and a window over the limit, and each is counted; what comes during a
retrain merges with it; too many within a second take the port DOWN, as does a retrain that does not end; RETRAIN ends in ACTIVE at a
width that never rises and resends what was not acknowledged, or in DOWN below 4 lanes (R381 to R384). A port in SLEEP counts a wake
pattern or link activity that its detector sees, which is then a wake source of the module like any other (R385, R519); a port in
another state sees none. -/
def Obligations.LinkTrainingAndFaults : Prop :=
  (∀ (s : State) (p : PortId), s.awake = true →
    -- R378: with its clock present a DISABLED port goes to DETECT; otherwise EN alone is set
    (s.rd (Reg.OZL_STAT_REFCLK p.val) = 1 → s.rd (Reg.OZL_STAT_STATE p.val) = 0 →
      Yields (.ozlEnable p) s (Wrote [(Reg.OZL_CTL_EN p.val, 1), (Reg.OZL_STAT_STATE p.val, 2), (Reg.OZL_LANE_BAD_RX p.val, 0)] s)) ∧
    (s.rd (Reg.OZL_STAT_REFCLK p.val) = 0 ∨ s.rd (Reg.OZL_STAT_STATE p.val) ≠ 0 →
      Yields (.ozlEnable p) s (Wrote [(Reg.OZL_CTL_EN p.val, 1)] s)) ∧
    -- R383: full training from ACTIVE, RETRAIN or DOWN, every lane tested again
    (s.rd (Reg.OZL_STAT_STATE p.val) = 4 ∨ s.rd (Reg.OZL_STAT_STATE p.val) = 5 ∨ s.rd (Reg.OZL_STAT_STATE p.val) = 6 →
      Yields (.ozlRetrain p) s fun t =>
        t.rd (Reg.OZL_STAT_STATE p.val) = 3 ∧ t.rd (Reg.OZL_CTL_RETRAIN p.val) = 1 ∧ t.rd (Reg.OZL_LANE_BAD_RX p.val) = 0 ∧
        Untouched [Reg.OZL_STAT_STATE p.val, Reg.OZL_CTL_RETRAIN p.val, Reg.OZL_LANE_BAD_RX p.val] s t ∧
        (t.link p.val).replay = [] ∧ (t.link p.val).lost = (s.link p.val).lost ++ (s.link p.val).replay ∧
        t = { s with regs := t.regs, links := t.links }) ∧
    (s.rd (Reg.OZL_STAT_STATE p.val) ≠ 4 → s.rd (Reg.OZL_STAT_STATE p.val) ≠ 5 → s.rd (Reg.OZL_STAT_STATE p.val) ≠ 6 →
      exec (.ozlRetrain p) s = .next s) ∧
    (∀ (rxBad txBad inv : BitVec 16) (perm serial : BitVec 64) (peer : BitVec 3), s.rd (Reg.OZL_STAT_STATE p.val) ≠ 2 →
      s.rd (Reg.OZL_STAT_STATE p.val) ≠ 3 → exec (.fullTrainingDone p rxBad txBad inv perm serial peer) s = .next s) ∧
    -- R380: the widest of 16, 12, 8 and 4 lanes that the good lanes and MAXW allow, or DOWN
    (∀ (rxBad txBad inv : BitVec 16) (perm serial : BitVec 64) (peer : BitVec 3),
      s.rd (Reg.OZL_STAT_STATE p.val) = 2 ∨ s.rd (Reg.OZL_STAT_STATE p.val) = 3 →
      Yields (.fullTrainingDone p rxBad txBad inv perm serial peer) s fun t =>
        (t.rd (Reg.OZL_STAT_STATE p.val) =
          if (widthFor (16 - max (popCount (rxBad.toNat ||| dupLanes perm.toNat rxBad.toNat) 16) (popCount txBad.toNat 16))
            (s.rd (Reg.OZL_CFG_MAXW p.val))).isSome then 4 else 6) ∧
        (∀ w, widthFor (16 - max (popCount (rxBad.toNat ||| dupLanes perm.toNat rxBad.toNat) 16) (popCount txBad.toNat 16))
            (s.rd (Reg.OZL_CFG_MAXW p.val)) = some w → t.rd (Reg.OZL_STAT_WIDTH p.val) = w ∧
          t.link p.val = { s.link p.val with replay := [], resend := 0, txSeq := 0, rxSeq := 0, discard := false, nak := false, credits := 256, freed := 0 }) ∧
        t.rd (Reg.OZL_PEER_LO p.val) + 2 ^ 32 * t.rd (Reg.OZL_PEER_HI p.val) = serial.toNat ∧
        t.rd (Reg.OZL_LANE_POL_INV p.val) = inv.toNat ∧ t.rd (Reg.OZL_PEER_PORT_PORT p.val) = peer.toNat ∧
        t.rd (Reg.OZL_STAT_MISWIRE p.val) = b2n (peer.toNat != (p.val ^^^ 1)) ∧ t.rd (Reg.OZL_CTL_ACCEPT p.val) = 0 ∧
        t = { s with regs := t.regs, links := t.links }) ∧
    -- R372, R385
    Yields (.ozlAccept p) s (Wrote [(Reg.OZL_CTL_ACCEPT p.val, 1)] s) ∧
    Yields (.wakeTx p) s (Wrote [(Reg.OZL_CTL_WAKE_TX p.val, 1), (In.wakeSent p.val, 1)] s) ∧
    (∀ peer : Bool, s.rd (Reg.OZL_CTL_WAKE_TX p.val) = 0 → exec (.wakeTxRepeat p peer) s = .next s) ∧
    (∀ peer : Bool, s.rd (Reg.OZL_CTL_WAKE_TX p.val) = 1 →
      (peer = true ∨ 100 ≤ s.rd (In.wakeSent p.val) →
        Yields (.wakeTxRepeat p peer) s (Wrote [(Reg.OZL_CTL_WAKE_TX p.val, 0), (In.wakeSent p.val, 0)] s)) ∧
      (peer = false → s.rd (In.wakeSent p.val) < 100 →
        Yields (.wakeTxRepeat p peer) s (Wrote [(In.wakeSent p.val, s.rd (In.wakeSent p.val) + 1)] s)))) ∧
  (∀ (s : State) (p : PortId), s.awake = true →
    let st := s.rd (Reg.OZL_STAT_STATE p.val)
    let x := s.link p.val
    let recent := fun now : Nat => (x.retr.filter fun t => decide (now < t + 1000)) ++ [now]
    let frame := fun t : State => t = { s with regs := t.regs, links := t.links } ∧ ∀ k, k ≠ p.val → t.link k = s.link k
    let count := fun (f : Fld) (n : Nat) => min (s.rd f + n) (2 ^ f.w - 1)
    let begun := fun (now : Nat) (t : State) => frame t ∧ (t.link p.val).retr = recent now ∧
      t.rd (Reg.OZL_STAT_STATE p.val) = (if s.rd (Reg.OZL_CFG_RETRAIN_MAX p.val) < (recent now).length then 6 else 5) ∧
      t.rd (Reg.OZL_RETRAIN_CNT_COUNT p.val) = count (Reg.OZL_RETRAIN_CNT_COUNT p.val) 1
    let downed := fun t : State => frame t ∧ t.rd (Reg.OZL_STAT_STATE p.val) = 6 ∧ t.rd (Reg.OZL_DOWN_CNT_COUNT p.val) = count (Reg.OZL_DOWN_CNT_COUNT p.val) 1 ∧
      (t.link p.val).replay = [] ∧ (t.link p.val).lost = x.lost ++ x.replay
    let bad := Reg.OZL_LANE_BAD_RX p.val
    let codes := (Reg.OZL_FEC_UNCORR_COUNT p.val, count (Reg.OZL_FEC_UNCORR_COUNT p.val) (8 - s.rd (In.badRun p.val)))
    (st = 4 → Yields (.peerRetrain p) s (begun x.ms)) ∧ (st ≠ 4 → exec (.peerRetrain p) s = .next s) ∧
    (st = 5 → Yields (.portDown p) s downed) ∧ (st ≠ 5 → exec (.portDown p) s = .next s) ∧
    (∀ lane : Fin 16, let i := Instr.laneLossOfLock p (some lane)
      (st = 4 → s.laneActive p.val lane.val = true → Yields i s fun t => begun x.ms t ∧ (t.rd bad).testBit lane.val = true) ∧
      (st = 5 → s.laneActive p.val lane.val = true → Yields i s fun t => OnlyRegs s t ∧ Untouched [bad] s t ∧
        ∀ l < 16, (t.rd bad).testBit l = ((s.rd bad).testBit l || decide (l = lane.val))) ∧
      (st ≠ 4 ∧ st ≠ 5 ∨ s.laneActive p.val lane.val = false → exec i s = .next s)) ∧
    (st = 4 → Yields (.laneLossOfLock p none) s fun t => begun x.ms t ∧ t.rd codes.1 = codes.2 ∧ t.rd (In.badRun p.val) = 0) ∧
    (st = 5 → Yields (.laneLossOfLock p none) s (Wrote [codes, (In.badRun p.val, 0)] s)) ∧
    (st ≠ 4 → st ≠ 5 → exec (.laneLossOfLock p none) s = .next s) ∧
    (∀ errs : List (BitVec 32), let i := Instr.symbolErrorWindow p errs
      let e := fun l : Nat => (errs.getD l 0).toNat
      let past := fun l : Nat => s.rd (Reg.OZL_CFG_SYM_LIMIT p.val) < min (s.rd (In.symWin p.val l) + e l) (2 ^ 32 - 1)
      let ended := fun t : State => ∀ l < 16, t.rd (In.symWin p.val l) = 0
      let counted := fun t : State => ∀ l < 16, t.rd (Reg.OZL_SYMERR_COUNT p.val l) = count (Reg.OZL_SYMERR_COUNT p.val l) (e l)
      (st ≠ 4 → Yields i s fun t => frame t ∧ ended t ∧ t.link p.val = { x with ms := x.ms + 1 } ∧ Untouched ((List.range 16).map (In.symWin p.val)) s t) ∧
      (st = 4 → (∀ l < 16, ¬ past l) → Yields i s fun t => frame t ∧ ended t ∧ counted t ∧ t.rd (Reg.OZL_STAT_STATE p.val) = 4 ∧ t.rd bad = s.rd bad ∧
        t.link p.val = { x with ms := x.ms + 1 }) ∧
      (st = 4 → (∃ l < 16, past l) → Yields i s fun t => begun (x.ms + 1) t ∧ ended t ∧ counted t ∧
        ∀ l < 16, past l → (t.rd bad).testBit l = true)) ∧
    ∀ txBad : BitVec 16, (st ≠ 5 → exec (.retrainDone p txBad) s = .next s) ∧
      let w := widthFor (16 - max (popCount (s.rd (Reg.OZL_LANE_BAD_RX p.val)) 16) (popCount txBad.toNat 16))
        (max (s.rd (Reg.OZL_STAT_WIDTH p.val)) (s.rd (Reg.OZL_CFG_MAXW p.val)))
      (st = 5 → w = none → Yields (.retrainDone p txBad) s downed) ∧
      ∀ k, st = 5 → w = some k → Yields (.retrainDone p txBad) s fun t => frame t ∧ t.rd (Reg.OZL_STAT_STATE p.val) = 4 ∧
        t.rd (Reg.OZL_STAT_WIDTH p.val) = k ∧ s.rd (Reg.OZL_STAT_WIDTH p.val) ≤ k ∧ t.link p.val = { x with resend := x.replay.length }) ∧
  (∀ (s : State) (p : PortId) (pattern : Bool),
    let i := if pattern then Instr.wakePatternDetect p else .linkActivityDetect p
    let g := if pattern then Reg.OZL_WAKE_PATTERN p.val else Reg.OZL_WAKE_ACTIVITY p.val
    let b : Fin 26 := Fin.ofNat 26 ((if pattern then 8 else 0) + p.val)
    (s.rd (Reg.OZL_STAT_STATE p.val) ≠ 1 → exec i s = .next s) ∧
    (s.rd (Reg.OZL_STAT_STATE p.val) = 1 → ∃ u t, Wrote [(g, min (s.rd g + 1) (2 ^ g.w - 1))] s u ∧ exec (.wakeSource b) u = .next t ∧
      exec i s = .next t))

/-- Flits. A codeword corrects up to 15 symbols, and each symbol in error counts on its lane (R374). A flit with a wrong CRC or in an
uncorrectable codeword is discarded and a NAK is owed; eight uncorrectable codewords in a row begin a retrain (R376, R382). Of a good
flit the acknowledgement and the credits are applied; a NAK resends from the first flit not acknowledged; a data or management flit in
sequence is taken, its buffer to be returned as a credit, and forwarded where it is for another module; one out of sequence, and a data
flit on a miswired port that is not accepted (log 187), is not taken (R372, R377, R389). -/
def Obligations.LinkFlits : Prop :=
  ∀ (s : State) (p : PortId) (hdr : BitVec 128) (payload : List Byte) (crc : BitVec 64) (errs : List (List (Fin 544))) (ack : BitVec 16), s.awake = true →
    let i := Instr.flitReceive p hdr payload crc errs
    let x := s.link p.val
    let f : Flit := Flit.full ⟨hdr.toNat, payload.map BitVec.toNat⟩
    let kept := fun a : BitVec 16 => x.replay.filter fun g => decide ((bitsOf g.hdr 47 32 + 2 ^ 16 - a.toNat - 1) % 2 ^ 16 < 2 ^ 15)
    let acked := hdr.extractLsb' 48 16
    let lost := fun e : List (Fin 544) => 15 < e.eraseDups.length
    let run := errs.foldl (fun (acc : Nat × Bool) e => let n := if lost e then min (acc.1 + 1) 15 else 0
      (n, acc.2 || decide (8 ≤ n))) (s.rd (In.badRun p.val), false)
    let good := crc64 (toLe 16 f.hdr ++ f.pay) = crc.toNat ∧ ∀ e ∈ errs, ¬ lost e
    let y : Link := { x with replay := kept acked, resend := min x.resend (kept acked).length, credits := min (x.credits + (hdr.extractLsb' 64 10).toNat) 256 }
    let shut := s.rd (Reg.OZL_STAT_MISWIRE p.val) = 1 ∧ s.rd (Reg.OZL_CTL_ACCEPT p.val) = 0
    let next := (f.typ = 2 ∨ f.typ = 1 ∧ ¬ shut) ∧ (hdr.extractLsb' 32 16).toNat = (x.rxSeq + 1) % 2 ^ 16
    let route := s.routePort (hdr.extractLsb' 80 4).toNat (hdr.extractLsb' 84 4).toNat (hdr.extractLsb' 88 4).toNat
    let taken : Link := { y with rxSeq := (x.rxSeq + 1) % 2 ^ 16, discard := false, freed := x.freed + 1 }
    let count := fun (g : Fld) (n : Nat) => min (s.rd g + n) (2 ^ g.w - 1)
    let symbols := fun t : State => ∀ l < 16, t.rd (Reg.OZL_SYMERR_COUNT p.val l) =
      count (Reg.OZL_SYMERR_COUNT p.val l) ((errs.flatMap fun e => e.eraseDups.filter fun n => s.symbolLane p.val n.val == l).length)
    let frame := fun t : State => t = { s with regs := t.regs, links := t.links } ∧ ∀ k, k ≠ p.val → t.link k = s.link k
    (s.rd (Reg.OZL_STAT_STATE p.val) ≠ 4 → exec i s = .next s) ∧
    (s.rd (Reg.OZL_STAT_STATE p.val) = 4 → s.rd Reg.DBG_INJ_ARM = 0 →
      (run.2 = true → Yields i s fun t => frame t ∧ symbols t ∧ t.rd (In.badRun p.val) = 0 ∧
        (t.rd (Reg.OZL_STAT_STATE p.val) = 5 ∨ t.rd (Reg.OZL_STAT_STATE p.val) = 6) ∧
        t.rd (Reg.OZL_RETRAIN_CNT_COUNT p.val) = count (Reg.OZL_RETRAIN_CNT_COUNT p.val) 1) ∧
      (run.2 = false → ¬ good → Yields i s fun t => frame t ∧ symbols t ∧ t.rd (In.badRun p.val) = run.1 ∧ t.link p.val = { x with discard := true, nak := true } ∧
        t.rd (Reg.OZL_FEC_UNCORR_COUNT p.val) = count (Reg.OZL_FEC_UNCORR_COUNT p.val) (errs.filter fun e => decide (lost e)).length ∧
        t.rd (Reg.OZL_CRC_ERR_COUNT p.val) = count (Reg.OZL_CRC_ERR_COUNT p.val) (if ∃ e ∈ errs, lost e then 0 else 1)) ∧
      (good → f.typ = 3 → Yields i s fun t => frame t ∧ symbols t ∧ (t.link p.val).replay = kept acked ∧ (t.link p.val).resend = (kept acked).length) ∧
      (good → f.typ ≠ 3 → ¬ next → Yields i s fun t => frame t ∧ symbols t ∧ t.link p.val = y) ∧
      (good → next → route = none → Yields i s fun t => frame t ∧ symbols t ∧ t.link p.val = taken) ∧
      (∀ q, good → next → route = some q → q ≠ p.val → Yields i s fun t => symbols t ∧ t = { s with regs := t.regs, links := t.links } ∧
        t.link p.val = taken ∧ t.link q = { s.link q with outq := (s.link q).outq ++ [f] } ∧ ∀ k, k ≠ p.val → k ≠ q → t.link k = s.link k) ∧
      (good → next → route = some p.val → Yields i s fun t => frame t ∧ symbols t ∧ t.link p.val = { taken with outq := x.outq ++ [f] })) ∧
    Yields (.nakReceive p ack) s fun t => frame t ∧ t.regs = s.regs ∧
      t.link p.val = { x with replay := kept ack, resend := (kept ack).length }

/-- Submissions: one to a full engine, of a record that cannot be read or that fails the checks of R393 is refused with its code; an
accepted one makes its group BUSY and takes the lowest free slot, or a place in the queue. COLL sets the flow's tenant in the record,
and submits nothing in recovery; the submission that an operation command carries (colSubmit) keeps the record's own tenant. -/
def Obligations.CollectiveSubmission : Prop :=
  ∀ (s : State) (flow : BitVec 8) (addr : BitVec 48), s.awake = true →
    let code := Reg.COL_SUBMIT_STAT_CODE
    let desc := Reg.COL_SUBMIT_STAT_DESC
    let full := s.colSlots.length = 32 ∧ 64 ≤ s.colQueue.length
    let y := s.hbmRead addr.toNat 128 true
    let submitted := fun (tenant : Option Nat) (t : State) =>
      let n := match tenant with
        | some x => putBits (ofLe y.2.2) 24 8 x
        | none => ofLe y.2.2
      let z := y.1.colCheck (parseCol n)
      let c := parseCol n
      (full → Wrote [(code, colCode 0 % 2 ^ code.w), (desc, 0xFF)] s t) ∧
      (¬ full → y.2.1 ≠ 0 → Wrote [(code, State.readCode (colCode 1) y.2.1 % 2 ^ code.w), (desc, 0xFF)] y.1 t) ∧
      (¬ full → y.2.1 = 0 → (∀ e, z.2 = .error e → Wrote [(code, e.code % 2 ^ code.w), (desc, e.desc % 2 ^ desc.w)] z.1 t) ∧
        ∀ x, z.2 = .ok x → t.rd code = 0 ∧ t.rd (Reg.COL_GROUP_BUSY c.group) = 1 ∧ t.mem = z.1.mem ∧
          ((∀ k < 32, (z.1.colAt k).isSome = true) → (∀ k, t.colAt k = z.1.colAt k) ∧ ∃ o, t.colQueue = z.1.colQueue ++ [o] ∧ o.rcd = n ∧ o.res = none) ∧
          ∀ k < 32, z.1.colAt k = none → (∀ j < k, (z.1.colAt j).isSome = true) → t.colQueue = z.1.colQueue ∧
            t.rd Reg.COL_SUBMIT_STAT_SLOT = k ∧ (∃ o, t.colAt k = some o ∧ o.rcd = n) ∧ ∀ j, j ≠ k → t.colAt j = z.1.colAt j)
    (s.rd Reg.MOD_BOOT_STAGE = 8 → exec (.coll flow addr) s = .next s) ∧
    (s.rd Reg.MOD_BOOT_STAGE ≠ 8 → Yields (.coll flow addr) s (submitted (some (s.flowTenant flow.toNat)))) ∧
    submitted none (s.colSubmit addr.toNat)

/-- An operation command first submits the record that comes with it, if one does. It then works on the operation in flight that its
group and identifier name: one that is not started, is decided, or misses a READY of a rank it sends to, and data that is not of its
size, change nothing more; one that addresses a region that is gated or on its way there waits, and wakes it; otherwise the operation's
effect takes place and its status is decided, and what a later fault or abort leaves open takes in the destinations of a PERMUTE that
has copied. What the operations compute, where no access fails: a reduction adds each rank's widened contribution to the partial that
comes from the rank before in the chunk's chain and rounds once at the chain's end; SEND and the member's own shard of ALL_GATHER go out
in the wire format; GNORM adds its sum of squares to the partial; in a PERMUTE that only receives from others, a piece of another format
or element count decides FAULT code 8. -/
def Obligations.CollectiveOperations : Prop :=
  (∀ (s : State) (m : Option (BitVec 48)) (g : BitVec 8) (id : BitVec 32) (parts results : List (BitVec 40)) (tags : List (BitVec 13 × BitVec 32))
    (shards : List (List (BitVec 40 × Byte))) (gens : List (BitVec 64)) (counts : List (List (BitVec 32))) (plans : List (BitVec 32))
    (rows : List (BitVec 16 × BitVec 32 × List (BitVec 40 × Byte))) (back : List (BitVec 32 × List (BitVec 40 × Byte)))
    (pieces : List SentPiece) (part result : BitVec 40) (elems : List (BitVec 40 × Byte)),
    s.awake = true →
    let u := match m with
      | some a => s.colSubmit a.toNat
      | none => s
    let cells := fun l : List (BitVec 40 × Byte) => l.map fun q => (q.1.toNat, q.2.toNat)
    let reduce : State → ColOp → LCtx → ColRec → Option ColR := fun t o x c => t.colReduce o x c (parts.map BitVec.toNat) (results.map BitVec.toNat)
      (tags.map fun q => (q.1.toNat, q.2.toNat))
    let kinds : List (Instr × Nat × (State → ColOp → LCtx → ColRec → Option ColR)) :=
      [(.chainReduce m g id parts results tags, 1, reduce), (.reduceScatter m g id parts results tags, 2, reduce),
        (.allGather m g id shards gens, 3, fun t o x c => t.colGather o x c (shards.map cells) (gens.map BitVec.toNat)),
        (.dispatch m g id counts plans rows, 4, fun t o x c => t.colDispatch o x c (counts.map fun l => l.map BitVec.toNat) (plans.map BitVec.toNat)
          (rows.map fun q => (q.1.toNat, q.2.1.toNat, cells q.2.2))),
        (.combine m g id back, 5, fun t o x c => t.colCombine o x c (back.map fun q => (q.1.toNat, cells q.2))),
        (.permute m g id pieces, 6, fun t o x c => t.colPermute o x c (pieces.map fun q => (q.piece.toNat, q.peer.toNat, q.fmt.toNat, q.rows.map cells))),
        (.gnorm m g id part result, 7, fun t _ x c => some (t.colNorm x c part.toNat result.toNat)),
        (.send m g id, 8, fun t _ x c => some (t.colSend x c)), (.recv m g id elems, 9, fun t o x c => t.colRecv o x c (cells elems))]
    ∀ p ∈ kinds,
      (u.colFind g.toNat id.toNat = none → exec p.1 s = .next u) ∧
      ∀ (k : Nat) (o : ColOp), u.colFind g.toNat id.toNat = some k → u.colAt k = some o →
        let c := parseCol o.rcd
        let x := u.opCtx o
        let able := c.op = p.2.1 ∧ o.held = false ∧ o.res = none ∧ ∀ r ∈ u.colTargets x c, ∃ q ∈ o.readys, q.rank = r
        let gated := fun r : Nat => (u.rd Reg.PWR_RSTATE_GATED).testBit r = true
        let asleep := ∃ r ∈ u.colRegions x c, gated r ∨ u.rd (In.gateDrain r) ≠ 0
        (¬ able → exec p.1 s = .next u) ∧
        (able → asleep → Yields p.1 s fun t => OnlyRegs u t ∧ ∀ r ∈ u.colRegions x c, r < 32 → gated r → (t.rd Reg.PWR_RWAKE_WAKE).testBit r = true) ∧
        (able → ¬ asleep → (p.2.2 u o x c = none → exec p.1 s = .next u) ∧
          ∀ y, p.2.2 u o x c = some y → Yields p.1 s fun t =>
            t = { y.1 with cols := t.cols } ∧ t.colAt k = some { o with res := some y.2.1, sent := y.2.2, dests := o.landed p.2.1 y.2.1.1 } ∧ ∀ j, j ≠ k → t.colAt j = y.1.colAt j)) ∧
  (∀ (s : State) (o : ColOp) (x : LCtx) (c : ColRec),
    let G := s.gsize c.group
    let r := s.rd (Reg.COL_GROUP_RANK c.group)
    let y := s.colRead x c.sd
    let n := y.2.2.length
    let d := descOf x.p c.sd
    let wire := toWire d.fmt c.wfmt (d.ext 0) y.2.2
    y.2.1 = false →
    (∀ parts res : List Nat, parts.length = n → res.length = n → s.colTags x c.sd = [] → (descOf x.p c.dd).layout ≠ 1 →
      let chunk := fun i : Nat => i / max 1 ((n + G - 1) / G)
      let pos := fun i : Nat => State.chainPos G c.strict r (chunk i)
      let own := fun i : Nat => State.widen c.acc d.fmt (y.2.2.getD i (0, 0))
      let part := fun i : Nat => if pos i = 0 then own i else (State.partSum c.acc (nth parts i) (own i)).1
      let pf := if c.acc then 14 else 0
      let place := fun i : Nat => if c.op = 2 then i % max 1 (n / G) else i
      let out := fun i : Nat => if pos i + 1 = G then
          (if pf = (descOf x.p c.dd).fmt then part i else
            (convElem pf (descOf x.p c.dd).fmt (rndOf (State.colRnd o c.dd) (nth (y.1.colIndex x c.dd) (place i))) (decodeFmt pf (part i) 127)).1)
        else nth res i
      ∃ (sent : List Nat) (evs : List Ev), let u := y.1.colEvents evs
        let z := u.colApply (u.colPlace x o c.dd (((List.range n).filter fun i => c.op = 1 ∨ chunk i = r).map out))
        s.colReduce o x c parts res [] = some (z.1, (if z.2 then 10 else 0, 0, 0, 0), sent) ∧
          ∀ i < n, pos i + 1 ≠ G → part i ∈ sent) ∧
    s.colSend x c = (y.1.colEvents wire.2, (0, 0, 0, 0), wire.1.map (·.1)) ∧
    (∀ shards : List (List (Nat × Nat)), ∀ tags : List Nat, c.tagMode = 0 → shards.length = G → tags.length = G → (∀ l ∈ shards, l.length = n) →
      let u := y.1.colEvents wire.2
      let v := u.inc Reg.COL_SHARD_CNT_COUNT 0
      let z := v.colApply (v.colFill x o c.dd c.wfmt (State.rowBlocks [G * n]) ((shards.set r wire.1).flatten))
      s.colGather o x c shards tags = some (z.1, (if z.2 then 10 else 0, 0, 0, 0), wire.1.map (·.1))) ∧
    (∀ part res : Nat, c.srcs = [c.sd] →
      let sq := (State.sumSquares (y.2.2.map fun q => decodeFmt d.fmt q.1 q.2)).1
      let p := if r = 0 then sq else (accSum (decodeAcc part) (decodeAcc sq)).1
      let fin := if r + 1 = G then p else res
      (s.colNorm x c part res).2 = ((0, 0, fin, (toF32 (decodeAcc fin)).1), [p])) ∧
    ∀ pieces : List (Nat × Nat × Nat × List (List (Nat × Nat))),
      (∀ p ∈ s.permPieces x c, p.recv = true ∧ p.peer ≠ r ∧ ∃ q ∈ pieces, q.1 = p.piece ∧ q.2.1 = p.peer) →
      (∃ p ∈ s.permPieces x c, ∀ q ∈ pieces, q.1 = p.piece → q.2.1 = p.peer →
        q.2.2.1 ≠ (descOf x.p p.desc).fmt ∨ q.2.2.2.flatten.length ≠ x.colCount p.desc) →
      s.colPermute o x c pieces = some (s, (8, 0, 0, 0), []))

/-- READYs, completion and the ends of an operation in flight: a READY is taken by its operation, kept, or refused when 1,024 wait; a
mismatch decides code 4, a timeout 3 (9 where it was held without a manager), a lost flit 2, an abort of the manager 1 whatever was
decided; a held operation starts with its READYs and takes those that wait; and a decided one writes its status word, frees its slot,
for the oldest in the queue if there is one, is counted and raises its event. -/
def Obligations.CollectiveEnds : Prop :=
  ∀ (s : State) (g : BitVec 8) (id : BitVec 32) (k : Nat) (o : ColOp), s.awake = true →
    let c := parseCol o.rcd
    let found := s.colFind g.toNat id.toNat = some k ∧ s.colAt k = some o
    let away := s.colFind g.toNat id.toNat = none
    let only := fun (o' : ColOp) (t : State) => t.colAt k = some o' ∧ ∀ j, j ≠ k → t.colAt j = s.colAt j
    let frozen := s.rd Reg.COL_MGR_STAT_LOST = 1 ∨ s.rd Reg.COL_ROUTE_CTL_SWAP = 1
    (∀ (rank : BitVec 12) (op : BitVec 4) (gen : BitVec 32) (bytes elems : BitVec 64) (slot : Fin 32),
      let x : Ready := ⟨g.toNat, id.toNat, rank.toNat, op.toNat, gen.toNat, bytes.toNat, elems.toNat, slot.val⟩
      let i := Instr.readyFlit g id rank op gen bytes elems slot
      (away → s.readys.length < 1024 → exec i s = .next { s with readys := s.readys ++ [x] }) ∧
      (away → 1024 ≤ s.readys.length → exec i s = .next { s with colOut := s.colOut ++ [.notReady rank.toNat g.toNat id.toNat] }) ∧
      (found → Yields i s fun t => t = { s with cols := t.cols } ∧
        only { o with readys := o.readys ++ [x], res := if Ready.clash (s.ownReady k o) x = true ∧ o.res = none then some (4, 0, 0, 0) else o.res } t) ∧
      (away ∨ found ∧ o.held = true → exec (.readyRepeat g id rank) s = .next s) ∧
      (found → o.held = false → exec (.readyRepeat g id rank) s = .next { s with colOut := s.colOut ++ [.ready rank.toNat (s.ownReady k o)] })) ∧
    (found → o.res = none →
      (¬ (o.held = true ∧ s.rd Reg.COL_MGR_STAT_LOST = 1) → Yields (.colTimeout g id) s fun t => t = { s with cols := t.cols, colOut := t.colOut } ∧
        only { o with res := some (3, 0, 0, 0) } t ∧ t.colOut = s.colOut ++ [.report g.toNat id.toNat 3]) ∧
      (o.held = true → s.rd Reg.COL_MGR_STAT_LOST = 1 → Yields (.colTimeout g id) s fun t => t = { s with cols := t.cols } ∧ only { o with res := some (9, 0, 0, 0) } t) ∧
      (∀ (p : PortId) (f : Flit), (s.link p.val).lost.find? (fun f => decide (bitsOf f.hdr 111 110 < 2) && bitsOf f.hdr 108 101 == g.toNat) = some f →
        Yields (.colLinkFault p g id) s fun t => only { o with res := some (2, 0, 0, 0) } t ∧ t.colOut = s.colOut ++ [.report g.toNat id.toNat 2] ∧
          t.link p.val = { s.link p.val with lost := (s.link p.val).lost.erase f })) ∧
    (∀ p : PortId, (s.link p.val).lost = [] → exec (.colLinkFault p g id) s = .next s) ∧
    (found → Yields (.managerAbort g id) s fun t => t = { s with cols := t.cols } ∧ only { o with res := some (1, 0, 0, 0) } t) ∧
    (frozen → exec (.heldOpStart g id) s = .next s) ∧
    (¬ frozen → found → o.held = true → o.res = none →
      let mine := s.readys.filter fun r => decide (r.group = c.group ∧ r.opid = c.opid)
      let own := s.ownReady k { o with held := false }
      Yields (.heldOpStart g id) s fun t => t.readys = s.readys.filter (fun r => !decide (r.group = c.group ∧ r.opid = c.opid)) ∧
        only { o with held := false, readys := o.readys ++ mine, res := if mine.any (fun r => Ready.clash own r) = true then some (4, 0, 0, 0) else none } t ∧
        t.colOut = s.colOut ++ (s.colPeers (s.opCtx o) c).map fun r => .ready r own) ∧
    (found → o.res = none → exec (.colOpComplete g id) s = .next s) ∧
    ∀ (code count acc sq : Nat) (h : StackId), found → o.res = some (code, count, acc, sq) → (∀ w ∈ s.heldw, w.src ≠ 64) →
      let word := State.colWord (code, count, acc, sq)
      let raised := fun (f : Fld) (t : State) => t.rd f = min (s.rd f + 1) (2 ^ 32 - 1)
      let event := Reg.SQ_EVT_VALUE c.evtReg c.evtCtr
      State.inStack c.status 32 = true → c.status / 2 ^ 36 = h.val → s.stackStatus h.val = 0 → s.touchesProtected (at' c.status word) = false →
      s.rd Reg.DBG_INJ_ARM = 0 → (∀ d ∈ o.streams, d.1 < 4096) → (∀ h ∈ o.handles, h < 1024) → (∀ r ∈ o.region, r < 32) →
      Yields (.colOpComplete g id) s fun t =>
        (∀ j < 32, t.peek (c.status + j) = nth word j % 256) ∧
        raised (if code = 0 then Reg.COL_OPS_DONE_COUNT else Reg.COL_OPS_FAULT_COUNT) t ∧
        t.rd event = (if c.evtEn then (s.rd event + 1) % 2 ^ 32 else s.rd event) ∧
        (s.colQueue = [] → t.colQueue = [] ∧ t.colAt k = none ∧ ∀ j, j ≠ k → t.colAt j = s.colAt j) ∧
        ∀ q l, s.colQueue = q :: l → t.colQueue = l ∧ ∃ j < 32, ∃ q', t.colAt j = some q' ∧ q'.rcd = q.rcd

/-- Groups, routes and the manager's role: a BUSY group keeps its entry, routes swap only while no started operation is in flight, a
heartbeat of a lower epoch is not applied and one of a higher epoch ends this module's own role, the standby takes the role over when
heartbeats stop, and a tenant's job is held for a switch and let go on the generation given. -/
def Obligations.GroupsRoutesAndManagers : Prop :=
  ∀ (s : State) (g : BitVec 8) (rank : BitVec 12) (x y z : BitVec 4) (valid gen1 : Bool) (tenant : BitVec 8) (size : BitVec 12) (gen epoch : BitVec 32)
    (t0 : TenantId), s.awake = true →
    let busy := s.rd (Reg.COL_GROUP_BUSY g.toNat) = 1
    let own := s.rd Reg.COL_MGR_EPOCH_EPOCH
    let role := s.rd Reg.COL_ROLE_ROLE
    let bit := fun (t : State) (f : Nat → Fld) => (t.rd (f (t0.val / 32))).testBit (t0.val % 32)
    let rest := fun (t : State) (f : Nat → Fld) => ∀ k < 256, k ≠ t0.val → (t.rd (f (k / 32))).testBit (k % 32) = (s.rd (f (k / 32))).testBit (k % 32)
    let seen := fun t : State => t.rd Reg.COL_MGR_STAT_LOST = 0 ∧ t.rd Reg.COL_MGR_STAT_AGE = 0
    let started := ∃ k < 32, ∃ o, s.colAt k = some o ∧ o.held = false
    let work := s.jobAtWork t0.val
    (∀ m, busy → Yields (.groupWrite g m valid tenant size rank gen) s (Wrote [(Reg.COL_STAT_GROUP_BUSY, 1)] s)) ∧
    (¬ busy → valid = true → size.toNat < rank.toNat → Yields (.groupWrite g none valid tenant size rank gen) s (Wrote [(Reg.COL_STAT_GROUP_BUSY, 1)] s)) ∧
    (¬ busy → ¬ (valid = true ∧ size.toNat < rank.toNat) → Yields (.groupWrite g none valid tenant size rank gen) s (Wrote
      [(Reg.COL_GROUP_VALID g.toNat, b2n valid), (Reg.COL_GROUP_TENANT g.toNat, tenant.toNat), (Reg.COL_GROUP_SIZE_M1 g.toNat, size.toNat),
        (Reg.COL_GROUP_RANK g.toNat, rank.toNat), (Reg.COL_GROUP_GEN g.toNat, gen.toNat)] s)) ∧
    (¬ busy → Yields (.groupWrite g (some (rank, x, y, z)) valid tenant size rank gen) s (Wrote
      [(Reg.COL_MEMBER_X g.toNat rank.toNat, x.toNat), (Reg.COL_MEMBER_Y g.toNat rank.toNat, y.toNat), (Reg.COL_MEMBER_Z g.toNat rank.toNat, z.toNat)] s)) ∧
    (s.rd Reg.COL_ROUTE_CTL_SWAP = 0 ∨ started → exec .routeSwap s = .next s) ∧
    (s.rd Reg.COL_ROUTE_CTL_SWAP = 1 → ¬ started → Yields .routeSwap s fun t => OnlyRegs s t ∧ t.rd Reg.COL_ROUTE_CTL_SWAP = 0 ∧
      ∀ w < 512, t.rd (Reg.COL_ROUTE_ACT w) = s.rd (Reg.COL_ROUTE_SHD w) ∧ t.rd (Reg.COL_ROUTE_SHD w) = s.rd (Reg.COL_ROUTE_ACT w)) ∧
    (role ≠ 1 → exec .heartbeatSend s = .next s) ∧
    (role = 1 → Yields .heartbeatSend s fun t => t.colOut = s.colOut ++ [.heartbeat own] ∧ seen t) ∧
    (epoch.toNat < own → exec (.heartbeatReceive epoch) s = .next s) ∧
    (own ≤ epoch.toNat → Yields (.heartbeatReceive epoch) s fun t => OnlyRegs s t ∧ seen t ∧ t.rd Reg.COL_MGR_EPOCH_EPOCH = epoch.toNat ∧
      t.rd Reg.COL_ROLE_ROLE = if own < epoch.toNat ∧ role = 1 then 0 else role) ∧
    Yields .heartbeatTimeout s (fun t => t.rd Reg.COL_MGR_STAT_LOST = 1 ∧ t.rd Reg.COL_ROLE_ROLE = (if role = 2 then 1 else role) ∧
      t.rd Reg.COL_MGR_EPOCH_EPOCH = (if role = 2 then (own + 1) % 2 ^ 32 else own) ∧
      t.colOut = if role = 2 then s.colOut ++ [.heartbeat ((own + 1) % 2 ^ 32)] else s.colOut) ∧
    Yields (.xoridSwitch t0) s (fun t => bit t Reg.COL_XORID_HOLD = true ∧ rest t Reg.COL_XORID_HOLD ∧
      t.colOut = if work then s.colOut else s.colOut ++ [.switched t0.val]) ∧
    Yields (.xoridGo t0 gen1) s fun t => OnlyRegs s t ∧ bit t Reg.COL_XORID_HOLD = false ∧ bit t Reg.COL_XORID_GEN = gen1 ∧
      rest t Reg.COL_XORID_HOLD ∧ rest t Reg.COL_XORID_GEN

/-- The host link and its frames: link down and up; a frame passes the filters of Table 16.1 on length, address, tag and type, an IPv6
packet those on version, length and next header, and what they stop is counted; a neighbour solicitation or an echo request for an
address of the module is answered by one management frame. Packets of a flow: without a valid flow they are dropped and counted; an ACK
releases what it acknowledges; DATA within the window is held, and what is then next in sequence is put together into messages; DATA
that came before or is held already, or lies outside the window, is dropped and counted; a timeout resends or breaks the flow; a flow
entry that is written is the entry. -/
def Obligations.HostFramesAndPackets : Prop :=
  (∀ s : State, s.awake = true →
    let plus := fun f : Fld => [(f, min (s.rd f + 1) (2 ^ 32 - 1))]
    let link := s.rd Reg.HTP_STAT_LINK
    let up := s.rd Reg.HTP_CTL_EN = 1 ∧ s.rd Reg.HTP_STAT_REFCLK = 1
    let mine := fun a : BitVec 128 => a.toNat = s.addrData ∨ a.toNat = s.addrMgmt
    let frames := fun (l : List Nat → Prop) (t : State) => ∃ b, l b ∧ t = s.setLink 6 { s.link 6 with outq := (s.link 6).outq ++ [⟨1 + 0xFE * 2 ^ 8, b⟩] }
    (link = 1 → Yields .hostLinkDown s (Wrote ((Reg.HTP_STAT_LINK, 0) :: plus Reg.HTP_LINK_DOWN_COUNT) s)) ∧
    (link = 0 → exec .hostLinkDown s = .next s) ∧
    (up → Yields .hostLinkUp s (Wrote [(Reg.HTP_STAT_LINK, 1)] s)) ∧ (¬ up → exec .hostLinkUp s = .next s) ∧
    (∀ (frame : List Byte) (fec : Fin 3) (us : BitVec 32),
      let b := frame.map BitVec.toNat
      let dst := beAt b 0 6
      let tagged := beAt b 12 2 = 0x8100
      let typ := if tagged then beAt b 16 2 else beAt b 12 2
      let here := dst = s.macAddr ∨ dst = 0x3333FF000000 + s.addrData % 2 ^ 24 ∨ dst = 0x3333FF000000 + s.addrMgmt % 2 ^ 24
      let vlan := tagged → s.rd Reg.HTP_CFG_VLAN_EN = 1 ∧ beAt b 14 2 % 2 ^ 12 = s.rd Reg.HTP_CFG_VID
      let bad := b.length < 14 ∨ 9212 < b.length ∨ typ = 0x8808 ∨ ¬ here ∨ ¬ vlan
      let pre := if fec = 1 then plus Reg.HTP_FEC_CORR_COUNT else []
      let stops := fun f => Yields (.frameReceive frame fec us) s (Wrote (pre ++ plus f) s)
      let p := b.drop (if tagged then 18 else 14)
      let noIp := p.length < 40 ∨ nth p 0 / 16 ≠ 6 ∨ ((p.drop 40).take (beAt p 4 2)).length ≠ beAt p 4 2 ∨ nth p 6 ≠ 17 ∧ nth p 6 ≠ 58
      (link = 0 → exec (.frameReceive frame fec us) s = .next s) ∧
      (link = 1 → fec = 2 → Yields (.frameReceive frame fec us) s (Wrote (plus Reg.HTP_FEC_UNCORR_COUNT) s)) ∧
      (link = 1 → fec ≠ 2 →
        (bad → stops Reg.HTP_DROP_L2_COUNT) ∧ (¬ bad → typ = 0x0800 ∨ typ = 0x0806 → stops Reg.HTP_DROP_L3_COUNT) ∧
        (¬ bad → typ ≠ 0x0800 → typ ≠ 0x0806 → typ ≠ 0x86DD → stops Reg.HTP_DROP_L2_COUNT) ∧
        (¬ bad → typ = 0x86DD → noIp → stops Reg.HTP_DROP_L3_COUNT) ∧
        (¬ bad → typ = 0x86DD → ¬ noIp → ∃ v, Wrote pre s v ∧ exec (.frameReceive frame fec us) s = .next (v.ipPacket us.toNat p)))) ∧
    ∀ (src a : BitVec 128) (rest : List Byte),
      (¬ mine a → exec (.neighborSolicitation src a) s = .next s ∧ exec (.echoRequest src a rest) s = .next s) ∧
      (mine a → Yields (.neighborSolicitation src a) s (frames fun b => b.length = 32 ∧ nth b 0 = 136 ∧ nth b 4 = 0x60 ∧ beAt b 8 16 = a.toNat ∧
        beAt b 26 6 = s.macAddr % 2 ^ 48)) ∧
      (mine a → Yields (.echoRequest src a rest) s (frames fun b => nth b 0 = 129 ∧ nth b 1 = 0 ∧ b.drop 4 = rest.map BitVec.toNat))) ∧
  (∀ (s : State) (flow : BitVec 8) (seq ack us : BitVec 32) (sack : BitVec 64) (win : BitVec 16) (payload : List Byte), s.awake = true →
    let f := flow.toNat
    let x := s.flow f
    let pay := payload.map BitVec.toNat
    let plus := fun c : Fld => min (s.rd c + 1) (2 ^ 32 - 1)
    let data := fun first last : Bool => Instr.dataPacket flow first last seq ack sack win us payload
    let receives := fun y : Flow => (y.rx, y.msgs, y.held, y.asm)
    let u := s.flowAck f us.toNat ack.toNat sack.toNat win.toNat
    let known := seqFrom x.rx seq.toNat = false ∨ ∃ h ∈ x.held, h.1 = seq.toNat
    let inside := seqDist x.ackNo seq.toNat < u.flowWindow f
    (s.rd (Reg.HTP_FLOW_VALID f) = 0 → ∀ i ∈ [data true true, .ackPacket flow ack sack win us, .keepalive flow ack sack win us],
      Yields i s (Wrote [(Reg.HTP_DROP_FLOW_COUNT, plus Reg.HTP_DROP_FLOW_COUNT)] s)) ∧
    (s.rd (Reg.HTP_FLOW_VALID f) = 1 →
      (∀ i ∈ [Instr.ackPacket flow ack sack win us, .keepalive flow ack sack win us], Yields i s fun t =>
        receives (t.flow f) = receives x ∧ (t.flow f).peerWin = win.toNat ∧ (t.flow f).clock = x.clock + us.toNat ∧ t.mem = s.mem ∧
        ((t.flow f).unacked ++ (t.flow f).unsent).flatMap Pkt.pay = ((x.unacked.filter fun p => seqFrom ack.toNat p.seq) ++ x.unsent).flatMap Pkt.pay) ∧
      (known → ∀ a b, Yields (data a b) s fun t => receives (t.flow f) = receives x ∧ t.rd Reg.HTP_DUP_COUNT = min (u.rd Reg.HTP_DUP_COUNT + 1) (2 ^ 32 - 1)) ∧
      (¬ known → ¬ inside → ∀ a b, Yields (data a b) s fun t =>
        receives (t.flow f) = receives x ∧ t.rd Reg.HTP_DROP_WIN_COUNT = min (u.rd Reg.HTP_DROP_WIN_COUNT + 1) (2 ^ 32 - 1)) ∧
      (¬ known → inside → ∀ first last,
        let msg := if first = true then some (seq.toNat, pay) else x.asm.map fun a => (a.1, a.2 ++ pay)
        Yields (data first last) s (fun t => receives (t.flow f) =
          receives (State.assemble { x with held := x.held ++ [(seq.toNat, first, last, pay)] } (x.held.length + 1))) ∧
        (seq.toNat ≠ x.rx → (∀ h ∈ x.held, h.1 ≠ x.rx) → Yields (data first last) s fun t =>
          receives (t.flow f) = (x.rx, x.msgs, x.held ++ [(seq.toNat, first, last, pay)], x.asm)) ∧
        (seq.toNat = x.rx → x.held = [] → Yields (data first last) s fun t => receives (t.flow f) = ((x.rx + 1) % 2 ^ 32,
          x.msgs ++ (if last = true then (msg.map fun a => ⟨a.1, seq.toNat, a.2⟩).toList else []), [], if last = true ∨ msg = none then (if msg = none then x.asm else none) else msg)))) ∧
    (x.unacked = [] → exec (.retransmitTimeout flow) s = .next s) ∧
    (x.unacked ≠ [] →
      (max 1 (s.rd Reg.HTP_CFG_RETRY_MAX) ≤ x.timeouts + 1 → Yields (.retransmitTimeout flow) s fun t => (t.flow f).broken = true ∧
        (t.flow f).unacked = [] ∧ (t.flow f).unsent = [] ∧ (t.rd (Reg.HTP_BROKEN (f / 32))).testBit (f % 32) = true) ∧
      (x.timeouts + 1 < max 1 (s.rd Reg.HTP_CFG_RETRY_MAX) → Yields (.retransmitTimeout flow) s fun t =>
        (t.flow f).timeouts = x.timeouts + 1 ∧ (t.flow f).broken = x.broken ∧ t.rd Reg.HTP_RETX_COUNT = plus Reg.HTP_RETX_COUNT ∧
        (t.link 6).outq.length = (s.link 6).outq.length + 1)) ∧
    ∀ (valid mgmt : Bool) (prio : BitVec 2) (tenant : BitVec 8) (port window : BitVec 16) (host : BitVec 128),
      Yields (.htpFlowWrite flow valid mgmt prio tenant port window host) s fun t =>
        t.rd (Reg.HTP_FLOW_VALID f) = b2n valid ∧ t.rd (Reg.HTP_FLOW_MGMT f) = b2n mgmt ∧ t.rd (Reg.HTP_FLOW_PRIO f) = prio.toNat ∧
        t.rd (Reg.HTP_FLOW_TENANT f) = tenant.toNat ∧ t.rd (Reg.HTP_FLOW_PORT f) = port.toNat ∧
        t.rd (Reg.HTP_FLOW_WINDOW f) = window.toNat ∧ t.rd (Reg.HTP_FLOW_HOST f) = host.toNat ∧
        (t.flow f).broken = false ∧ (valid = true → t.flow f = Flow.idle) ∧ (valid = false → t.flow f = { x with broken := false }) ∧
        t = { s with regs := t.regs, flows := t.flows })

/-- The operations of the host engine on the message at the head of a flow (Table 16.4): without such a message nothing happens. A LEN
above 2^24, an operation that is reserved or not aligned, and a range that fails a check of Table 16.5 are refused with their status, a
hole counted. A PUT writes exactly its bytes, a GET returns the bytes it names, an atomic its old value, a reduce-put how many elements
it performed. What meets a protected page is held: the message waits at the head and is answered by a later command once nothing of it
is held. -/
def Obligations.HostMemoryMessages : Prop :=
  ∀ (s : State) (flow : BitVec 8), s.awake = true →
    let f := flow.toNat
    let u := s.popMsg f
    let waits := ∃ w ∈ s.heldw, w.src = 128 + f
    let fresh := (s.flow f).done = none ∧ ¬ waits
    let own := fun a : Nat => a < 12 * 2 ^ 36 ∧ (s.rd (Reg.HTP_FLOW_MGMT f) = 1 ∨ s.rd (Reg.TEN_STACK_OWNER (a / 2 ^ 36)) = s.flowTenant f)
    let poisoned := fun a n : Nat => ∃ g ∈ State.granules a n, Tbl.get 0 s.poison g = 1
    let state := fun a : Nat => s.rd (Reg.HBM_STAT_STATE (a / 2 ^ 36))
    let sound := fun (a n : Nat) (read : Bool) => own a ∧ State.inStack a n = true ∧ state a ≠ 5 ∧ state a ≠ 4 ∧ (read = true → ¬ poisoned a n)
    let pages := fun a n : Nat => s.touchesProtected (at' a (List.replicate n 0)) = true
    let keeps := fun (t : State) (n : Nat) => t.flow f = { s.flow f with done := some (0, n, 0) } ∧ ∃ w ∈ t.heldw, w.src = 128 + f
    let checks := fun (i : Instr) (mtype a n : Nat) (read : Bool) (tag : Nat) (body : List Nat) =>
      let answers := fun st => Yields i s (Answered f mtype st tag body u)
      (¬ own a → answers 3) ∧
      (own a → State.inStack a n = false → Yields i s fun t => ∃ v, Wrote [(Reg.HBM_HOLE_CNT_COUNT (a / 2 ^ 36),
        min (s.rd (Reg.HBM_HOLE_CNT_COUNT (a / 2 ^ 36)) + 1) (2 ^ 32 - 1))] s v ∧ Answered f mtype 4 tag body (v.popMsg f) t) ∧
      (own a → State.inStack a n = true → (state a = 5 → answers 6) ∧ (state a = 4 → answers 7) ∧
        (state a ≠ 5 → state a ≠ 4 → read = true → poisoned a n → answers 5))
    (∀ p ∈ [(Instr.put flow, 2), (.get flow, 3), (.atomic flow, 4), (.reducePut flow, 5)], s.headMsg f p.2 = none → exec p.1 s = .next s) ∧
    (∀ st n old, (s.flow f).done = some (st, n, old) →
      ∀ q ∈ [(Instr.put flow, 2, 0x82, []), (.atomic flow, 4, 0x84, if State.hostStatus st = 0 then toLe 8 old else []), (.reducePut flow, 5, 0x85, toLe 4 n)],
      ∀ m, s.headMsg f q.2.1 = some m →
        (waits → Yields q.1 s fun t => t = { s with flows := t.flows } ∧ ∀ k, t.flow k = s.flow k) ∧
        (¬ waits → Yields q.1 s (Answered f q.2.2.1 (State.hostStatus st) (State.msgTag m) q.2.2.2 u))) ∧
    (∀ m, s.headMsg f 2 = some m → fresh →
      let a := State.msgAddr m
      let n := State.msgLen m
      let b := State.msgBody m
      (2 ^ 24 < n → Yields (.put flow) s (Answered f 0x82 2 (State.msgTag m) [] u)) ∧
      (n = 0 → Yields (.put flow) s (Answered f 0x82 0 (State.msgTag m) [] u)) ∧
      (0 < n → n ≤ 2 ^ 24 → checks (.put flow) 0x82 a n false (State.msgTag m) [] ∧
        (sound a n false → n ≤ b.length →
          (¬ pages a n → Yields (.put flow) s fun t => ∃ v, Answered f 0x82 0 (State.msgTag m) [] v t ∧ (v.flow f).msgs = (s.flow f).msgs.drop 1 ∧
            ∀ i, v.memGet i = if a ≤ i ∧ i < a + n then nth b (i - a) % 256 else s.memGet i) ∧
          (pages a n → Yields (.put flow) s fun t => keeps t 0 ∧
            ∀ i, i < a ∨ a + n ≤ i ∨ s.protectedPage (State.pageOf i) = true → t.memGet i = s.memGet i)))) ∧
    (∀ m, s.headMsg f 3 = some m →
      let a := State.msgAddr m
      let n := State.msgLen m
      let y := s.hbmRead a n true
      (2 ^ 24 < n → Yields (.get flow) s (Answered f 0x83 2 (State.msgTag m) [] u)) ∧
      (n = 0 → Yields (.get flow) s (Answered f 0x83 0 (State.msgTag m) [] u)) ∧
      (0 < n → n ≤ 2 ^ 24 → checks (.get flow) 0x83 a n true (State.msgTag m) [] ∧
        (sound a n true → Yields (.get flow) s (Answered f 0x83 (State.hostStatus y.2.1) (State.msgTag m) y.2.2 (y.1.popMsg f)) ∧
          (y.2.1 = 0 → y.2.2 = s.peeks a n)))) ∧
    (∀ m, s.headMsg f 4 = some m → fresh →
      let a := State.msgAddr m
      let w := atomBytes (State.msgOp m)
      let y := s.atomic (State.msgOp m) a (blk (State.msgBody m) 0 8) (blk (State.msgBody m) 8 8)
      (w = 0 ∨ a % w ≠ 0 → Yields (.atomic flow) s (Answered f 0x84 8 (State.msgTag m) [] u)) ∧
      (w ≠ 0 → a % w = 0 → checks (.atomic flow) 0x84 a w true (State.msgTag m) [] ∧
        (sound a w true → (s.protectedPage (State.pageOf a) = false → Yields (.atomic flow) s
            (Answered f 0x84 (State.hostStatus y.2.1) (State.msgTag m) (if y.2.1 = 0 then toLe 8 y.2.2 else []) (y.1.popMsg f))) ∧
          (s.protectedPage (State.pageOf a) = true → Yields (.atomic flow) s fun t => keeps t 0 ∧ t.mem = s.mem)))) ∧
    ∀ m, s.headMsg f 5 = some m → fresh →
      let a := State.msgAddr m
      let n := State.msgLen m
      let op := State.msgOp m
      let b := State.msgBody m
      let w := atomBytes op
      let size := if op = 11 ∨ op = 12 then 2 * w else w
      let y := s.atomic op a (blk b 0 w) (blk b w w)
      let z := s.atomsRun (128 + f) (State.reduceAtoms op w size a b (n / size))
      let d := (z.flow f).done.getD (0, 0, 0)
      (2 ^ 24 < n → Yields (.reducePut flow) s (Answered f 0x85 2 (State.msgTag m) (toLe 4 0) u)) ∧
      (n ≤ 2 ^ 24 → (w = 0 ∨ a % w ≠ 0 ∨ n % size ≠ 0) → Yields (.reducePut flow) s (Answered f 0x85 8 (State.msgTag m) (toLe 4 0) u)) ∧
      (w ≠ 0 → a % w = 0 → n % size = 0 → n ≤ 2 ^ 24 →
        (n = 0 → Yields (.reducePut flow) s (Answered f 0x85 0 (State.msgTag m) (toLe 4 0) u)) ∧
        (n ≠ 0 → checks (.reducePut flow) 0x85 a (w * (n / size)) true (State.msgTag m) (toLe 4 0)) ∧
        (n ≠ 0 → sound a (w * (n / size)) true →
          (z.hostHeld f = false → Yields (.reducePut flow) s (Answered f 0x85 (State.hostStatus d.1) (State.msgTag m) (toLe 4 d.2.1) (z.popMsg f))) ∧
          (z.hostHeld f = true → Yields (.reducePut flow) s fun t => t.flow f = { z.flow f with done := some d } ∧ ∃ w ∈ t.heldw, w.src = 128 + f) ∧
          (n = size → ¬ pages a w → Yields (.reducePut flow) s
            (Answered f 0x85 (State.hostStatus y.2.1) (State.msgTag m) (if y.2.1 = 0 then [1, 0, 0, 0] else toLe 4 0) (y.1.popMsg f)))))

/-- Commands that arrive in a receive ring: the entry and its body are written at the head, which moves on; with no room the command is
withheld, and deposited and acknowledged once room frees; a message of a reserved type, or a CMD that is too long, is answered by
CMD_NACK; and a message that firmware writes leaves on the flow it names, where it can be read. -/
def Obligations.HostCommandRings : Prop :=
  ∀ (s : State) (flow : BitVec 8), s.awake = true →
    let f := flow.toNat
    let r := if s.rd (Reg.HTP_FLOW_MGMT f) = 1 then 0 else 1
    let size := s.rd (Reg.HTP_RING_SIZE_ENTRIES r)
    let head := s.rd (Reg.HTP_RING_HEAD_INDEX r)
    let full := size < 2 ∨ (head + 1) % size = s.rd (Reg.HTP_RING_TAIL_INDEX r)
    let withheld := (s.flow f).withheld = true
    let a := s.rd (Reg.HTP_RING_BASE_ADDR r) + 4096 * head
    let deposited := fun (m : Msg) (t : State) => t.rd (Reg.HTP_RING_HEAD_INDEX r) = (head + 1) % size ∧ (t.flow f).msgs = (s.flow f).msgs.drop 1 ∧
      (t.flow f).withheld = false ∧ (State.inStack a (32 + (State.msgBody m).length) = true → s.stackStatus (a / 2 ^ 36) = 0 →
        s.touchesProtected (at' a (List.replicate (32 + (State.msgBody m).length) 0)) = false →
        t.memGet a = f ∧ t.memGet (a + 1) = s.flowTenant f % 256 ∧ (∀ i < (State.msgBody m).length, t.memGet (a + 32 + i) = nth (State.msgBody m) i % 256) ∧
        ∀ i, i < a ∨ a + 32 + (State.msgBody m).length ≤ i → t.memGet i = s.memGet i)
    (s.headMsg f 1 = none → exec (.cmd flow) s = .next s ∧ exec (.cmdDepositResume flow) s = .next s) ∧
    (∀ m, s.headMsg f 1 = some m →
      (4064 < (State.msgBody m).length ∨ full ∧ withheld → exec (.cmd flow) s = .next s) ∧
      ((State.msgBody m).length ≤ 4064 → full → ¬ withheld → Yields (.cmd flow) s fun t => t.flow f = { s.flow f with withheld := true } ∧
        t.rd Reg.HTP_RING_FULL_COUNT = min (s.rd Reg.HTP_RING_FULL_COUNT + 1) (2 ^ 32 - 1) ∧ t.mem = s.mem) ∧
      ((State.msgBody m).length ≤ 4064 → ¬ full → Yields (.cmd flow) s (deposited m)) ∧
      (¬ withheld ∨ full → exec (.cmdDepositResume flow) s = .next s) ∧
      (withheld → ¬ full → Yields (.cmdDepositResume flow) s fun t => deposited m t ∧ (t.link 6).outq.length = (s.link 6).outq.length + 1)) ∧
    ((s.flow f).msgs = [] → exec (.cmdNack flow) s = .next s) ∧
    (∀ m l, (s.flow f).msgs = m :: l →
      (State.msgType m = 1 → 4064 < (State.msgBody m).length → Yields (.cmdNack flow) s (Answered f 0x81 2 (State.msgTag m) [] (s.popMsg f))) ∧
      (State.msgType m = 0 ∨ 5 < State.msgType m → Yields (.cmdNack flow) s (Answered f 0x81 1 (State.msgTag m) [] (s.popMsg f))) ∧
      (State.msgType m = 1 ∧ (State.msgBody m).length ≤ 4064 ∨ 2 ≤ State.msgType m ∧ State.msgType m ≤ 5 → exec (.cmdNack flow) s = .next s)) ∧
    let y := s.hbmRead (s.rd Reg.HTP_TXQ_ADDR_ADDR) 32 true
    let z := y.1.hbmRead (s.rd Reg.HTP_TXQ_ADDR_ADDR + 32) (blk y.2.2 8 4) true
    (y.2.1 ≠ 0 → exec (.htpTxqGo flow) s = .next y.1) ∧
    (y.2.1 = 0 → blk y.2.2 8 4 = 0 → Yields (.htpTxqGo flow) s (Sent f y.2.2 y.1)) ∧
    (y.2.1 = 0 → blk y.2.2 8 4 ≠ 0 → z.2.1 ≠ 0 → exec (.htpTxqGo flow) s = .next z.1) ∧
    (y.2.1 = 0 → blk y.2.2 8 4 ≠ 0 → z.2.1 = 0 → Yields (.htpTxqGo flow) s (Sent f (y.2.2 ++ z.2.2) z.1))

/-- Identity, measurement and attestation: the key derived appears in SEC_ID_PUB; an extension hashes the old value with SEC_MEAS_IN
unless the register is locked, and locks only ever close; a report carries the nonce, the measurements and the tenant's resources; the
signing engine signs the oldest request once the key is there. -/
def Obligations.AttestationAndMeasurement : Prop :=
  ∀ (s : State) (flow : BitVec 8) (tag : BitVec 32) (nonce : BitVec 512) (x : TenantId) (mask : BitVec 8) (i : Fin 8), s.awake = true →
    let f := flow.toNat
    let words := fun (t : State) (r : Nat → Fld) (b : List Nat) => ∀ w < 16, t.rd (r w) = blk b (4 * w) 4 % 2 ^ 32
    let keyed := s.rd In.idReady = 1
    let mixed := Config.shake256 (s.meas i.val ++ (List.range 16).flatMap fun w => toLe 4 (s.rd (Reg.SEC_MEAS_IN w))) 64
    (¬ Managed s f → ∀ c ∈ [Instr.attest flow tag nonce x, .certGet flow tag], Yields c s (Answered f 0x92 1 tag.toNat [] s)) ∧
    (Managed s f →
      Yields (.certGet flow tag) s (Answered f 0x92 0 tag.toNat
        ((List.range 3).flatMap fun n => toLe 4 (Config.certificate n).length ++ Config.certificate n) s) ∧
      Yields (.attest flow tag nonce x) s fun t => ∃ b, t = { s with signq := s.signq ++ [.report f tag.toNat b] } ∧ b.length = 704 ∧
        ofLe (b.take 4) = 0x49565841 ∧ nth b 6 = x.val ∧ (b.drop 64).take 64 = toLe 64 nonce.toNat ∧
        (b.drop 128).take 512 = (List.range 8).flatMap s.meas ∧
        (∀ r < 32, (blk b 640 4).testBit r = decide (x.val ≠ 0xFE ∧ s.rd (Reg.TEN_REGION_OWNER r) = x.val)) ∧
        ∀ k < 12, (blk b 644 4).testBit k = decide (x.val ≠ 0xFE ∧ s.rd (Reg.TEN_STACK_OWNER k) = x.val)) ∧
    Yields .identityDerivation s (fun t => OnlyRegs s t ∧ words t Reg.SEC_ID_PUB ((Config.ed448Public idKey).take 57) ∧ t.rd In.idReady = 1 ∧
      Untouched (In.idReady :: (List.range 16).map Reg.SEC_ID_PUB) s t) ∧
    ((s.rd Reg.SEC_MEAS_LOCK_LOCK).testBit i.val = true → Yields (.secMeasExtend i) s (Wrote [(Reg.SEC_MEAS_CTL_IDX, i.val), (Reg.SEC_MEAS_CTL_ERR, 1)] s)) ∧
    ((s.rd Reg.SEC_MEAS_LOCK_LOCK).testBit i.val = false → Yields (.secMeasExtend i) s fun t => OnlyRegs s t ∧ words t (Reg.SEC_MEAS i.val) mixed ∧
      t.rd Reg.SEC_MEAS_CTL_IDX = i.val ∧ Untouched (Reg.SEC_MEAS_CTL_IDX :: (List.range 16).map (Reg.SEC_MEAS i.val)) s t) ∧
    Yields (.secMeasLock mask) s (Wrote [(Reg.SEC_MEAS_LOCK_LOCK, s.rd Reg.SEC_MEAS_LOCK_LOCK ||| mask.toNat)] s) ∧
    (s.signq = [] ∨ ¬ keyed → exec .signRequest s = .next s) ∧
    ∀ (l : List SignReq) (g T : Nat) (b : List Nat), keyed →
      let u : State := { s with signq := l }
      let rec' := b ++ State.idSign "IVX-METER" b ++ List.replicate 14 0
      let h := s.rd Reg.TEN_MREC_HEAD_INDEX
      (s.signq = .report g T b :: l → Yields .signRequest s (Answered g 0x92 0 T (b ++ State.idSign "IVX-ATTEST" b ++ List.replicate 14 0) u)) ∧
      (s.signq = .receipt g T b :: l → Yields .signRequest s (Answered g 0x92 0 T (b ++ State.idSign "IVX-DEBUG-RCPT" b) u)) ∧
      (s.signq = .meter b :: l → s.meterFull = true → exec .signRequest s = .next { u with meterq := s.meterq ++ [rec'] }) ∧
      (s.signq = .meter b :: l → s.meterFull = false → s.meterq = [] → Yields .signRequest s fun t => t.signq = l ∧ t.meterq = [] ∧
        t.rd Reg.TEN_MREC_HEAD_INDEX = (h + 1) % s.rd Reg.TEN_MREC_SIZE_ENTRIES)

/-- Debug access: a challenge is random bytes with the serial number and a count; a password or a signed challenge that fits a fused
digest unlocks, with a signed record, an extension of SEC_MEAS[3] and a health entry; one that does not is counted, and from the third
on locks out for a doubling time; digests can be set once. -/
def Obligations.DebugUnlocking : Prop :=
  ∀ (s : State) (flow : BitVec 8) (tag : BitVec 32) (pwd : List Byte) (key : BitVec 456) (sig : BitVec 912) (slot : Fin 3) (digest : BitVec 512),
    s.awake = true →
    let f := flow.toNat
    let replies := fun (status : Nat) (u t : State) => Answered f 0x92 status tag.toNat [] u t
    let byPwd := Instr.dbgUnlockPwd flow tag pwd
    let byKey := Instr.dbgUnlockKey flow tag key sig
    let out := s.rd In.ms39 < s.rd In.lockEnd
    let n := s.rd Reg.SEC_DBG_FAIL_COUNT + 1
    let wait := min (2 ^ (n - 3)) 3600
    let record := fun kind k : Nat => [kind, k] ++ List.replicate 6 0 ++ toLe 8 s.mseq ++ toLe 8 (s.rd In.ms39) ++ List.replicate 40 0
    let logged := fun (kind k : Nat) (t : State) => t.signq = s.signq ++ [.receipt f tag.toNat (record kind k)] ∧
      (∀ w < 16, t.rd (Reg.SEC_MEAS 3 w) = blk (Config.shake256 (s.meas 3 ++ record kind k) 64) (4 * w) 4 % 2 ^ 32) ∧
      t.rd (Reg.HLT_LOG_KIND (s.rd Reg.HLT_LOG_HEAD_INDEX)) = 12 ∧ t.rd (Reg.HLT_LOG_DETAIL (s.rd Reg.HLT_LOG_HEAD_INDEX)) = kind + k * 2 ^ 8
    let opened := fun (kind k : Nat) (t : State) => logged kind k t ∧ t.rd Reg.SEC_DBG_STAT_STATE = 1 ∧ t.rd Reg.SEC_DBG_STAT_EVER = 1 ∧
      t.rd Reg.SEC_DBG_FAIL_COUNT = 0 ∧ ∀ x < 255, t.rd (In.dbgIntv x) = 1
    let failed := fun (more : List (Fld × Nat)) (t : State) => ∃ u, Wrote (more ++ [(Reg.SEC_DBG_FAIL_COUNT, min n 255)] ++
      if n < 3 then [] else [(In.lockEnd, (s.rd In.ms39 + 1000 * wait) % 2 ^ 64), (Reg.SEC_DBG_FAIL_WAIT_S, wait)]) s u ∧ replies 0x18 u t
    let fits := 16 ≤ pwd.length ∧ pwd.length ≤ 64 ∧
      ofLe (Config.shake256 (toLe 8 s.serial ++ pwd.map BitVec.toNat) 64) % 2 ^ 512 = s.rd In.dbgPwd
    let stale := s.rd In.chalOk = 0 ∨ 60000 < s.rd In.ms39 - s.rd In.chalMs
    let ours := fun k : Nat => (s.rd Reg.SEC_DBG_KEYSET_KEYS).testBit k = true ∧
      s.rd (In.dbgKey k) = ofLe (Config.shake256 (toLe 57 key.toNat) 64) % 2 ^ 512
    let signed := Config.ed448Verify (toLe 57 key.toNat) (ascii "IVX-DEBUG") (toLe 64 (s.rd In.chal)) (toLe 114 sig.toNat) = true
    let set := (s.rd Reg.SEC_DBG_KEYSET_KEYS).testBit (slot.val + 1) = true
    (¬ Managed s f → ∀ c ∈ [.dbgChallenge flow tag, byPwd, byKey, .dbgLock flow tag, .dbgPwdSet flow tag digest, .dbgKeySet flow tag slot digest],
      Yields c s (replies 1 s)) ∧
    (Managed s f →
      Yields (.dbgChallenge flow tag) s (fun t => ∃ v u, v < 2 ^ 384 ∧ bitsOf v 319 256 = s.serial ∧
        bitsOf v 383 320 = (s.rd In.chalCnt + 1) % 2 ^ 64 ∧ Wrote [(In.chal, v), (In.chalOk, 1), (In.chalMs, s.rd In.ms39),
          (In.chalCnt, (s.rd In.chalCnt + 1) % 2 ^ 64)] { s with free := s.free + 1 } u ∧ Answered f 0x92 0 tag.toNat (toLe 64 v) u t) ∧
      (s.rd Reg.SEC_DBG_KEYSET_PWD = 0 → Yields byPwd s (replies 0x19 s)) ∧
      (s.rd Reg.SEC_DBG_KEYSET_PWD = 1 → (out → Yields byPwd s (replies 0x1A s)) ∧ (¬ out → fits → Yields byPwd s (opened 1 0)) ∧
        (¬ out → ¬ fits → Yields byPwd s (failed []))) ∧
      (stale → Yields byKey s (replies 0x1B s)) ∧
      (¬ stale → (out → Yields byKey s (replies 0x1A s)) ∧
        (¬ out → (∀ k < 4, ¬ ours k) ∨ ¬ signed → Yields byKey s (failed [(In.chalOk, 0)])) ∧
        (¬ out → signed → ∀ k < 4, ours k → (∀ j < k, ¬ ours j) → Yields byKey s fun t => opened 2 k t ∧ t.rd In.chalOk = 0)) ∧
      Yields (.dbgLock flow tag) s (fun t => logged 3 0 t ∧ t.rd Reg.SEC_DBG_STAT_STATE = 0) ∧
      (s.rd Reg.SEC_DBG_KEYSET_PWD = 1 → Yields (.dbgPwdSet flow tag digest) s (replies 0x1C s)) ∧
      (s.rd Reg.SEC_DBG_KEYSET_PWD = 0 → Yields (.dbgPwdSet flow tag digest) s fun t =>
        ∃ u, Wrote [(In.dbgPwd, digest.toNat), (Reg.SEC_DBG_KEYSET_PWD, 1)] s u ∧ replies 0 u t) ∧
      (set → Yields (.dbgKeySet flow tag slot digest) s (replies 0x1C s)) ∧
      (¬ set → Yields (.dbgKeySet flow tag slot digest) s fun t => ∃ u, Wrote [(In.dbgKey (slot.val + 1), digest.toNat),
        (Reg.SEC_DBG_KEYSET_KEYS, s.rd Reg.SEC_DBG_KEYSET_KEYS + 2 ^ (slot.val + 1))] s u ∧ replies 0 u t))

/-- The partition table: an owner write of a busy resource is ignored with its status; an accepted one leaves the old owner in place
while the resource scrubs; the end of the scrub installs the new owner over cleared handles, event counters and memory. TEN_ASSIGN: only
on a management flow; an unchanged owner is answered at once, a refusal with its code, and an accepted owner write waits for the scrub;
a share is written at once; an index that names nothing changes nothing but is answered, with a status that the spec leaves open (log
141). -/
def Obligations.TenancyAndAssignment : Prop :=
  (∀ (s : State) (r : RegionId) (k : StackId) (o : BitVec 8), s.awake = true →
    let w := o.toNat
    let held := (∃ l, (s.seq r.val).launch = some l) ∨ (∃ h < 1024, s.rd (Reg.SP_HT_BUSY r.val h) = 1) ∨ s.rd (Reg.SP_ZERO_STAT_BUSY r.val) = 1 ∨
      s.rd (Reg.TEN_REGION_PEND r.val) = 1 ∨ s.testing r.val = true
    let used := s.stackInLaunch k.val = true ∨ s.stackInOp k.val = true ∨ s.rd (Reg.HBM_STAT_STATE k.val) = 4 ∨ s.rd (Reg.TEN_STACK_PEND k.val) = 1
    let fixed := s.stackProtected k.val = true
    let pooled := s.poolInUse k.val = true
    let sameR := s.rd (Reg.TEN_REGION_OWNER r.val) = w
    let sameK := s.rd (Reg.TEN_STACK_OWNER k.val) = w
    let region := fun n => Yields (.tenRegionWrite r o) s (Wrote [(Reg.TEN_REGION_STATUS r.val, n)] s)
    let stack := fun n => Yields (.tenStackWrite k o) s (Wrote [(Reg.TEN_STACK_STATUS k.val, n)] s)
    let newR := s.rd (In.asgOwner r.val)
    let newK := s.rd (In.asgOwner (32 + k.val))
    let done := Reg.TEN_ZERO_CNT_COUNT
    let more := min (s.rd done + 1) (2 ^ 32 - 1)
    (∀ (x : Fin 254) (v : BitVec 8), Yields (.tenShareWrite x v) s (Wrote [(Reg.TEN_SHARE_SHARE x.val, v.toNat)] s)) ∧
    (sameR → region 0) ∧ (¬ sameR → held → region 1) ∧ (¬ sameR → ¬ held → w = 0xFE → region 2) ∧
    (¬ sameR → ¬ held → w ≠ 0xFE → Yields (.tenRegionWrite r o) s fun t => t.rd (Reg.TEN_REGION_PEND r.val) = 1 ∧ t.rd (Reg.TEN_REGION_STATUS r.val) = 0 ∧
      t.rd (Reg.TEN_REGION_OWNER r.val) = s.rd (Reg.TEN_REGION_OWNER r.val) ∧ t.rd (In.asgOwner r.val) = w ∧ t.rd (Reg.SP_ZERO_STAT_BUSY r.val) = 1 ∧
      t.mem = s.mem) ∧
    (sameK → stack 0) ∧ (¬ sameK → used → stack 1) ∧ (¬ sameK → ¬ used → fixed → stack 3) ∧ (¬ sameK → ¬ used → ¬ fixed → pooled → stack 4) ∧
    (¬ sameK → ¬ used → ¬ fixed → ¬ pooled → Yields (.tenStackWrite k o) s fun t => t.rd (Reg.TEN_STACK_PEND k.val) = 1 ∧
      t.rd (Reg.TEN_STACK_STATUS k.val) = 0 ∧ t.rd (Reg.TEN_STACK_OWNER k.val) = s.rd (Reg.TEN_STACK_OWNER k.val) ∧ t.rd (In.asgOwner (32 + k.val)) = w ∧
      t.rd (Reg.HBM_STAT_STATE k.val) = if s.rd (Reg.HBM_STAT_STATE k.val) = 5 then 5 else 4) ∧
    (s.rd (Reg.TEN_REGION_PEND r.val) = 0 → exec (.reassignDone ⟨r.val, by omega⟩) s = .next s) ∧
    (s.rd (Reg.TEN_STACK_PEND k.val) = 0 → exec (.reassignDone ⟨32 + k.val, by omega⟩) s = .next s) ∧
    (s.rd (Reg.TEN_REGION_PEND r.val) = 1 → Yields (.reassignDone ⟨r.val, by omega⟩) s fun t =>
      t.rd (Reg.TEN_REGION_OWNER r.val) = newR ∧ t.rd (Reg.TEN_REGION_PEND r.val) = 0 ∧ t.rd done = more ∧
      (∀ h < 1024, t.rd (Reg.SP_HT_VALID r.val h) = 0 ∧ t.rd (Reg.SP_HT_TENANT r.val h) = 0xFF) ∧ (∀ n < 64, t.rd (Reg.SQ_EVT_VALUE r.val n) = 0) ∧
      (∀ n < 8, t.rd (Reg.ARB_REQ_CFG_TENANT (r.val / 8) (8 * (r.val % 8) + n)) = newR) ∧
      (∀ n < 2, t.rd (Reg.ARB_REQ_CFG_TENANT (r.val / 8) (64 + 2 * (r.val % 8) + n)) = newR) ∧
      (s.rd (Reg.SP_ZERO_STAT_BUSY r.val) = 1 → ∀ a, spBase + 8 * r.val * spWin ≤ a → a < spBase + 8 * (r.val + 1) * spWin → t.memGet a = 0) ∧
      (s.rd (In.asgWait r.val) = 0 → t.flows = s.flows) ∧
      (s.rd (In.asgWait r.val) = 1 → ∃ v, v.flows = s.flows ∧ v.links = s.links ∧ t.rd (In.asgWait r.val) = 0 ∧
        Answered (s.rd (In.asgFlow r.val)) 0x92 0 (s.rd (In.asgTag r.val)) [] v t)) ∧
    (s.rd (Reg.TEN_STACK_PEND k.val) = 1 → Yields (.reassignDone ⟨32 + k.val, by omega⟩) s fun t =>
      t.rd (Reg.TEN_STACK_OWNER k.val) = newK ∧ t.rd (Reg.TEN_STACK_PEND k.val) = 0 ∧ t.rd done = more ∧
      (s.rd (Reg.HBM_STAT_STATE k.val) = 4 → t.rd (Reg.HBM_STAT_STATE k.val) = 2 ∧
        ∀ a, 2 ^ 36 * k.val ≤ a → a < 2 ^ 36 * k.val + hbmSize → t.memGet a = 0) ∧
      (s.rd (In.asgWait (32 + k.val)) = 0 → t.flows = s.flows) ∧
      (s.rd (In.asgWait (32 + k.val)) = 1 → ∃ v, v.flows = s.flows ∧ v.links = s.links ∧ t.rd (In.asgWait (32 + k.val)) = 0 ∧
        Answered (s.rd (In.asgFlow (32 + k.val))) 0x92 0 (s.rd (In.asgTag (32 + k.val))) [] v t))) ∧
  (∀ (s : State) (flow : BitVec 8) (tag i v : BitVec 32), s.awake = true →
    let f := flow.toNat
    let replies := fun (status : Nat) (u t : State) => Answered f 0x92 status tag.toNat [] u t
    let n := i.toNat
    let w := v.toNat % 256
    let waits := fun (unit : Nat) (pend : Fld) (t : State) => t.rd pend = 1 ∧ t.rd (In.asgOwner unit) = w ∧ t.rd (In.asgWait unit) = 1 ∧
      t.rd (In.asgFlow unit) = f ∧ t.rd (In.asgTag unit) = tag.toNat ∧ t.flows = s.flows
    (¬ Managed s f → ∀ kind, Yields (.tenAssign flow tag kind i v) s (replies 1 s)) ∧
    (Managed s f →
      (∀ kind : Fin 3, (if kind = 0 then 32 else if kind = 1 then 12 else 254) ≤ n →
        Yields (.tenAssign flow tag kind i v) s (replies (Config.assignStatus kind n).toNat s)) ∧
      (n < 254 → Yields (.tenAssign flow tag 2 i v) s fun t => ∃ u, Wrote [(Reg.TEN_SHARE_SHARE n, w)] s u ∧ replies 0 u t) ∧
      (n < 32 →
        (s.rd (Reg.TEN_REGION_OWNER n) = w → Yields (.tenAssign flow tag 0 i v) s fun t => ∃ u, Wrote [(Reg.TEN_REGION_STATUS n, 0)] s u ∧ replies 0 u t) ∧
        (s.rd (Reg.TEN_REGION_OWNER n) ≠ w → s.regionBusy n w ≠ 0 → Yields (.tenAssign flow tag 0 i v) s fun t =>
          ∃ u, Wrote [(Reg.TEN_REGION_STATUS n, s.regionBusy n w)] s u ∧ replies (0x1F + s.regionBusy n w) u t) ∧
        (s.rd (Reg.TEN_REGION_OWNER n) ≠ w → s.regionBusy n w = 0 → Yields (.tenAssign flow tag 0 i v) s (waits n (Reg.TEN_REGION_PEND n)))) ∧
      (n < 12 →
        (s.rd (Reg.TEN_STACK_OWNER n) = w → Yields (.tenAssign flow tag 1 i v) s fun t => ∃ u, Wrote [(Reg.TEN_STACK_STATUS n, 0)] s u ∧ replies 0 u t) ∧
        (s.rd (Reg.TEN_STACK_OWNER n) ≠ w → s.stackBusy n ≠ 0 → Yields (.tenAssign flow tag 1 i v) s fun t =>
          ∃ u, Wrote [(Reg.TEN_STACK_STATUS n, s.stackBusy n)] s u ∧ replies (0x1F + s.stackBusy n) u t) ∧
        (s.rd (Reg.TEN_STACK_OWNER n) ≠ w → s.stackBusy n = 0 → Yields (.tenAssign flow tag 1 i v) s (waits (32 + n) (Reg.TEN_STACK_PEND n))))))

/-- Metering: an interval's end gives every metered tenant a record with the next numbers and starts its counters again, and waits while
the module sleeps or the ring is full; a freed entry takes a record that waited; each millisecond advances the clocks and charges
regions and stacks to their owners, and divides the energy: what a region or stack draws to its owner (to 0xFE while it scrubs), a wake
to the tenant that woke the region, link energy by bytes, the rest to 0xFE. -/
def Obligations.MeteringRecords : Prop :=
  ∀ s : State,
    let full := s.meterFull = true
    let whom := (List.range 255).filter s.metered
    let ms := s.rd In.ms39
    let owned := fun (n : Nat) (own pend : Nat → Fld) (x : Nat) => ((List.range n).filter fun i => decide (s.rd (own i) = x ∧ s.rd (pend i) = 0)).length
    let big := 2 ^ 64 - 1
    (s.awake = false ∨ full → Yields .meteringIntervalEnd s (Wrote [(In.meterDue, 1)] s)) ∧
    (s.awake = true → ¬ full → Yields .meteringIntervalEnd s fun t => t.rd In.meterDue = 0 ∧ t.mseq = (s.mseq + whom.length) % 2 ^ 64 ∧
      (∀ x < 255, t.rd (In.intStart x) = ms ∧ ∀ c < 7, t.rd (In.meter c x) = 0) ∧
      ∃ l, t.signq = s.signq ++ l ∧ l.length = whom.length ∧ ∀ i < l.length, ∃ b, l[i]? = some (.meter b) ∧ b.length = 128 ∧
        nth b 5 = nth whom i ∧ blk b 8 8 = (s.mseq + i) % 2 ^ 64) ∧
    (∀ i : BitVec 16, s.awake = true → s.rd In.meterDue = 0 →
      (s.meterq = [] → Yields (.meteringRingTail i) s (Wrote [(Reg.TEN_MREC_TAIL_INDEX, i.toNat)] s)) ∧
      (∀ q l, s.meterq = q :: l → (s.wr Reg.TEN_MREC_TAIL_INDEX i.toNat).meterFull = true → Yields (.meteringRingTail i) s (Wrote [(Reg.TEN_MREC_TAIL_INDEX, i.toNat)] s)) ∧
      (∀ q, s.meterq = [q] → (s.wr Reg.TEN_MREC_TAIL_INDEX i.toNat).meterFull = false → Yields (.meteringRingTail i) s fun t =>
        t.meterq = [] ∧ t.rd Reg.TEN_MREC_TAIL_INDEX = i.toNat ∧
        t.rd Reg.TEN_MREC_HEAD_INDEX = (s.rd Reg.TEN_MREC_HEAD_INDEX + 1) % s.rd Reg.TEN_MREC_SIZE_ENTRIES)) ∧
    ∀ (rs ks : List (BitVec 32)) (ws : List (RegionId × BitVec 32)) (links total : BitVec 32),
      let payer := fun (own pend : Fld) => if s.rd pend = 0 then s.rd own else 0xFE
      let bytes := fun x : Nat => s.rd (In.meter 4 x) + s.rd (In.meter 5 x) - s.rd (In.lastBytes x)
      let all := ((List.range 255).map bytes).sum
      let part := fun (l : List (BitVec 32)) (n : Nat) (who : Nat → Nat) (x : Nat) =>
        ((List.range n).map fun i => if who i = x then (l.getD i 0).toNat else 0).sum
      let link := fun x : Nat => if all = 0 ∨ 255 ≤ x then 0 else links.toNat * bytes x / all
      let due := fun x : Nat => part rs 32 (fun i => payer (Reg.TEN_REGION_OWNER i) (Reg.TEN_REGION_PEND i)) x +
        part ks 12 (fun i => payer (Reg.TEN_STACK_OWNER i) (Reg.TEN_STACK_PEND i)) x +
        (ws.map fun q => if s.rd (In.waker q.1.val) = x then q.2.toNat else 0).sum + link x
      Yields (.meterTick rs ks ws links total) s fun t => OnlyRegs s t ∧ t.rd In.ms39 = (ms + 1) % 2 ^ 64 ∧
        t.rd Reg.MOD_BOOT_MS = min (s.rd Reg.MOD_BOOT_MS + 1) (2 ^ 20 - 1) ∧
        (∀ x < 254, t.rd (In.meter 1 x) = min (s.rd (In.meter 1 x) + owned 32 Reg.TEN_REGION_OWNER Reg.TEN_REGION_PEND x) big ∧
          t.rd (In.meter 3 x) = min (s.rd (In.meter 3 x) + hbmSize * owned 12 Reg.TEN_STACK_OWNER Reg.TEN_STACK_PEND x) big ∧
          t.rd (In.meter 6 x) = min (s.rd (In.meter 6 x) + due x) big) ∧
        t.rd (In.meter 6 0xFE) = min (s.rd (In.meter 6 0xFE) + due 0xFE + due 0xFF + (total.toNat - ((List.range 256).map due).sum)) big ∧
        (∀ j < 8, t.rd (Reg.SNP_JOB_ELAPSED_MS j) = min (s.rd (Reg.SNP_JOB_ELAPSED_MS j) + 1) (2 ^ 32 - 1)) ∧
        (∀ c < 8, s.awake = true → s.rd (Reg.MOD_WDT_EN c) = 1 → (s.rd Reg.MOD_CC_RUN_RUN).testBit c = true →
          t.rd (Reg.MOD_WDT_LEFT_MS c) = s.rd (Reg.MOD_WDT_LEFT_MS c) - 1)

/-- Configuration, rate, orders and status of a job slot, and the reasons for a snapshot: a slot that is not idle, arguments that do not
fit, a step that has passed and a partner that does not qualify are refused with their codes; INTERVAL is the rounded square root of
R486 within its bounds; a member's request makes the manager order a snapshot at a later step than any reported; the timer makes a
snapshot due. The risk score: not taken without standby power or while the module probes; otherwise the bias and the points of Table
22.2, at most 255; a score that reaches the threshold while armed makes a snapshot due in every valid slot, once, until it has fallen
below the hysteresis. -/
def Obligations.SnapshotControlAndRisk : Prop :=
  (∀ (s : State) (flow : BitVec 8) (tag : BitVec 32) (j : Fin 8) (x : TenantId) (job m step : BitVec 32) (cursor loss : BitVec 48) (verify : Bool)
    (fmt feed : BitVec 4) (serial : BitVec 64) (force standby : Bool), s.awake = true →
    let f := flow.toNat
    let replies := fun (status : Nat) (u t : State) => Answered f 0x92 status tag.toNat [] u t
    let config := Instr.snapConfig flow tag j x job cursor loss verify fmt
    let order := Instr.snapOrder flow tag j step
    let partner := Instr.partnerSet flow tag serial feed force standby
    let idle := s.rd (Reg.SNP_JOB_STAT_STATE j.val) = 0
    let valid := s.rd (Reg.SNP_JOB_CFG_VALID j.val) = 1
    let bad := (∃ i < 8, i ≠ j.val ∧ s.rd (Reg.SNP_JOB_CFG_VALID i) = 1 ∧ s.rd (Reg.SNP_JOB_CFG_TENANT i) = x.val) ∨ cursor.toNat % 64 ≠ 0 ∨
      loss.toNat % 8 ≠ 0 ∨ s.ownRange x.val cursor.toNat 64 = false ∨ s.ownRange x.val loss.toNat 8 = false ∨ fmt.toNat ≠ 0 ∧ fmt.toNat ≠ 14
    let latest := s.latestArea j.val
    let now := s.rd (In.jobStep (s.jobTenant j.val))
    let B := s.imageBytes (s.jobTenant j.val)
    let W := 48 * 10 ^ 9
    let M := m.toNat
    let own := s.rd Reg.MOD_STRAP_FEED_ID
    let role := s.rd Reg.COL_ROLE_ROLE
    let shares := (own = feed.toNat ∨ own = 0xF ∨ feed.toNat = 0xF) ∧ force = false
    let foreign := role = 1 ∧ standby = false
    let pair := [(Reg.SNP_PARTNER_STATE, 1), (Reg.SNP_PARTNER_TIER2, b2n force), (Reg.SNP_PARTNER_FEED, feed.toNat),
      (Reg.SNP_PARTNER_SER_LO, serial.toNat % 2 ^ 32), (Reg.SNP_PARTNER_SER_HI, serial.toNat / 2 ^ 32)]
    let due := valid ∧ s.rd (Reg.SNP_JOB_INTERVAL_S j.val) ≠ 0 ∧ 1000 * s.rd (Reg.SNP_JOB_INTERVAL_S j.val) ≤ s.rd (Reg.SNP_JOB_ELAPSED_MS j.val) ∧
      s.rd (Reg.SNP_JOB_STAT_DUE j.val) = 0
    (¬ Managed s f → ∀ c ∈ [config, .snapRate flow tag j m, order, partner, .snapStatus flow tag j], Yields c s (replies 1 s)) ∧
    (Managed s f →
      (¬ idle → Yields config s (replies 0x28 s)) ∧ (idle → bad → Yields config s (replies 0x29 s)) ∧
      (idle → ¬ bad → Yields config s fun t => ∃ u, Wrote [(Reg.SNP_JOB_CFG_VALID j.val, 1), (Reg.SNP_JOB_CFG_VERIFY j.val, b2n verify),
        (Reg.SNP_JOB_CFG_LOSS_FMT j.val, fmt.toNat), (Reg.SNP_JOB_CFG_TENANT j.val, x.val), (Reg.SNP_JOB_CFG_JOB j.val, job.toNat),
        (Reg.SNP_JOB_CURSOR_ADDR j.val, cursor.toNat), (Reg.SNP_JOB_LOSS_ADDR j.val, loss.toNat), (Reg.SNP_JOB_STAT_LATEST j.val, latest),
        (Reg.SNP_JOB_SEQ_SEQ j.val, if latest = 0 then 0 else s.recSeq (recKey (areaB latest) j.val))] s u ∧ replies 0 u t) ∧
      Yields (.snapRate flow tag j m) s (fun t => ∃ u n, Wrote [(Reg.SNP_JOB_MTBF_S j.val, M), (Reg.SNP_JOB_INTERVAL_S j.val, n)] s u ∧ replies 0 u t ∧
        60 ≤ n ∧ n ≤ 86400 ∧ (n = 60 ∨ (2 * n - 1) * (2 * n - 1) * W ≤ 8 * B * M) ∧ (n = 86400 ∨ 8 * B * M < (2 * n + 1) * (2 * n + 1) * W)) ∧
      (¬ valid ∨ ¬ idle → Yields order s (replies 0x28 s)) ∧
      (valid → idle → step.toNat < now → Yields order s (Answered f 0x92 0x2F tag.toNat (toLe 4 now) s)) ∧
      (valid → idle → now ≤ step.toNat → Yields order s fun t => ∃ u, Wrote [(Reg.SNP_JOB_STEP_STEP j.val, step.toNat)] s u ∧ replies 0 u t) ∧
      (serial.toNat = s.serial → Yields partner s (replies 0x30 s)) ∧
      (serial.toNat ≠ s.serial → (shares → Yields partner s (replies 0x31 s)) ∧ (¬ shares → foreign → Yields partner s (replies 0x32 s)) ∧
        (¬ shares → ¬ foreign → force = false → Yields partner s fun t => ∃ u, Wrote pair s u ∧ replies 0 u t) ∧
        (¬ foreign → force = true → Yields partner s fun t => ∃ u, (∀ p ∈ pair, u.rd p.1 = p.2) ∧
          u.rd (Reg.HLT_LOG_KIND (s.rd Reg.HLT_LOG_HEAD_INDEX)) = 9 ∧ OnlyRegs s u ∧ replies 0 u t)) ∧
      Yields (.snapStatus flow tag j) s fun t => ∃ b, Answered f 0x92 0 tag.toNat b s t ∧ b.length = 56 ∧
        blk b 24 4 = s.rd (Reg.SNP_JOB_STEP_STEP j.val) ∧ blk b 28 4 = s.rd (Reg.SNP_JOB_MTBF_S j.val) ∧
        blk b 32 4 = s.rd (Reg.SNP_JOB_INTERVAL_S j.val) ∧ blk b 36 4 = s.rd (Reg.SNP_JOB_ELAPSED_MS j.val) ∧
        bitsOf (blk b 40 4) 2 0 = s.rd (Reg.SNP_JOB_STAT_STATE j.val) ∧ bitsOf (blk b 40 4) 15 12 = s.rd (Reg.SNP_JOB_STAT_ERR j.val) ∧
        blk b 44 4 = s.rd (Reg.SNP_JOB_SEQ_SEQ j.val) ∧ blk b 48 4 = s.rd (Reg.SNP_JOB_LEFT_UNITS j.val)) ∧
    (role ≠ 1 → exec (.snapRequest j step) s = .next s) ∧
    (role = 1 → Yields (.snapRequest j step) s fun t => t.rd (In.stepSeen j.val) = max step.toNat (s.rd (In.stepSeen j.val)) ∧
      ∃ gap, t.colOut = s.colOut ++ [.snapOrder j.val ((max step.toNat (s.rd (In.stepSeen j.val)) + 1 + gap) % 2 ^ 32)]) ∧
    (¬ due → exec (.snapshotTimer j) s = .next s) ∧
    (due → Yields (.snapshotTimer j) s (Wrote [(Reg.SNP_JOB_STAT_DUE j.val, 1), (Reg.SNP_JOB_STAT_CAUSE j.val, 1)] s))) ∧
  (∀ s : State,
    let u := s.takeBuckets
    let v := min 255 (u.riskPoints.foldl (· + ·) (s.rd Reg.HLT_RISK_BIAS_BIAS))
    let th := s.rd Reg.SNP_RISK_THRESH
    let armed := s.rd Reg.SNP_RISK_ARMED
    let rests := s.standby = false ∨ s.rd Reg.PWR_STAT_STATE = 3
    let fires := armed = 1 ∧ th ≤ v
    let head := s.rd Reg.HLT_LOG_HEAD_INDEX
    (rests → exec .riskScoreTick s = .next s) ∧
    (¬ rests → Yields .riskScoreTick s fun t => t = { u with regs := t.regs } ∧ t.rd Reg.HLT_RISK_SCORE = v ∧
      (∀ k < 3, t.rd (In.riskEv k) = 0) ∧
      (s.rd Reg.HLT_RISK_SCORE < th → th ≤ v → t.rd (Reg.HLT_LOG_KIND head) = 11 ∧ t.rd (Reg.HLT_LOG_DETAIL head) % 256 = v) ∧
      (s.awake = true → t.rd Reg.SNP_RISK_SCORE = v ∧ (fires → t.rd Reg.SNP_RISK_ARMED = 0 ∧ ∀ j < 8, s.rd (Reg.SNP_JOB_CFG_VALID j) = 1 →
          t.rd (Reg.SNP_JOB_STAT_DUE j) = 1 ∧ t.rd (Reg.SNP_JOB_STAT_CAUSE j) = 2) ∧
        (v + s.rd Reg.SNP_RISK_HYST < th → t.rd Reg.SNP_RISK_ARMED = 1) ∧
        (¬ fires → th ≤ v + s.rd Reg.SNP_RISK_HYST → t.rd Reg.SNP_RISK_ARMED = armed) ∧
        (¬ fires → ∀ j < 8, t.rd (Reg.SNP_JOB_STAT_DUE j) = s.rd (Reg.SNP_JOB_STAT_DUE j))) ∧
      (s.awake = false → t.rd Reg.SNP_RISK_SCORE = s.rd Reg.SNP_RISK_SCORE)))

/-- The course of a snapshot: its start is refused with a code, or invalidates the target's record, protects the job's pages and handles
and begins copying; the writer takes the slots in turn, a staged page before a handle chunk (of a handle that a held launch names first)
before a protected page; the commit makes the record valid with the next number; an abort, a page that fails to program and a stack that
serves no access end it without one. -/
def Obligations.SnapshotRun : Prop :=
  ∀ (s : State) (j : Fin 8), s.awake = true →
    let state := Reg.SNP_JOB_STAT_STATE j.val
    let answer := fun c : Nat => Wrote [(Reg.SNP_CTL_STAT_CODE, c), (Reg.SNP_CTL_STAT_PEND, 0)] s
    let ten := s.jobTenant j.val
    let mine := fun k : Nat => k < 12 ∧ s.rd (Reg.TEN_STACK_OWNER k) = ten
    let busy := s.rd (Reg.SNP_JOB_CFG_VALID j.val) = 0 ∨ s.rd state ≠ 0 ∨ s.tenantBusy ten = true
    let pooled := ∃ k, mine k ∧ s.poolInUse k = true
    let unstaged := ∃ k, mine k ∧ ((s.stagingOf k).2 = 0 ∨ 18432 < (s.stagingOf k).1 + (s.stagingOf k).2 ∨
      s.rd (Reg.HC_WP_SLOT_BASE_ADDR (k / 3) (k % 3)) / 2 ^ 36 ≠ k)
    let area := if s.latestArea j.val = 1 then 2 else 1
    let step := s.rd (Reg.SNP_JOB_STEP_STEP j.val)
    let flash := fun t : State => t.rd Reg.SNP_FLASH_LO + 2 ^ 32 * t.rd Reg.SNP_FLASH_HI
    let stopped := fun (err : Nat) (t : State) => t.rd state = 0 ∧ t.rd (Reg.SNP_JOB_STAT_ERR j.val) = err ∧
      t.rd (Reg.SNP_JOB_STAT_TARGET j.val) = 0 ∧ t.rd (Reg.SNP_JOB_LEFT_UNITS j.val) = 0 ∧ t.snap j.val = none ∧ t.markedOf j.val = []
    let freed := fun (x : Snap) (t : State) => t.rd Reg.SNP_FAIL_CNT_COUNT = min (s.rd Reg.SNP_FAIL_CNT_COUNT + 1) (2 ^ 32 - 1) ∧
      ∀ k < 12, x.stackSet.testBit k = true → (∀ p ∈ t.staged, p.1 / 2 ^ 36 ≠ k) ∧ ∀ p < 18432, t.protectedPage (18432 * k + p) = false
    (busy → Yields (.snpStart j) s (answer 1)) ∧ (¬ busy → pooled → Yields (.snpStart j) s (answer 3)) ∧
    (¬ busy → ¬ pooled → unstaged → Yields (.snpStart j) s (answer 4)) ∧
    (¬ busy → ¬ pooled → ¬ unstaged → Yields (.snpStart j) s fun t => t.rd state = 2 ∧ t.rd Reg.SNP_CTL_STAT_CODE = 0 ∧
      t.rd Reg.SNP_CTL_STAT_PEND = 0 ∧ t.rd (Reg.SNP_JOB_STAT_DUE j.val) = 0 ∧ t.rd (Reg.SNP_JOB_STAT_ERR j.val) = 0 ∧
      t.rd (Reg.SNP_JOB_ELAPSED_MS j.val) = 0 ∧ t.rd (Reg.SNP_JOB_STAT_TARGET j.val) = area ∧ t.recValid (recKey (areaB area) j.val) = false ∧
      (∀ k p, mine k → p < 18432 → p < (s.stagingOf k).1 ∨ (s.stagingOf k).1 + (s.stagingOf k).2 ≤ p → t.protectedPage (18432 * k + p) = true) ∧
      (∀ q ∈ s.persistent ten, s.rd (Reg.SP_HT_EXTENT q.1 q.2) ≠ 0 → Tbl.get 0 t.protH (1024 * q.1 + q.2) = j.val + 1) ∧
      t.rd (In.jobStep ten) = (step + 1) % 2 ^ 32 ∧
      ∃ x, t.snap j.val = some x ∧ x.tenant = ten ∧ x.step = step ∧ x.stackSet = s.ownStacks ten ∧ x.regions = s.ownRegions ten) ∧
    (s.snap j.val = none ∨ s.rd state ≠ 2 → Yields (.snpCommit j) s (answer 1)) ∧
    (s.snap j.val = none → Yields (.snpAbort j) s (answer 1)) ∧
    (s.snap j.val = none ∨ s.rd state ≠ 3 ∨ s.hasWork j.val = true → exec (.snapshotRecordCommit j) s = .next s) ∧
    (∀ x, s.snap j.val = some x → x.tenant < 256 → x.stackSet < 2 ^ 12 →
      (s.rd state = 2 → Yields (.snpCommit j) s fun t => t.rd state = 3 ∧ t.rd Reg.SNP_CTL_STAT_CODE = 0 ∧
        t.rd (In.jobStep x.tenant) = (x.step + 2) % 2 ^ 32 ∧
        t.snap j.val = some { x with loss := ofLe (s.hbmRead (s.rd (Reg.SNP_JOB_LOSS_ADDR j.val)) 8 true).2.2 }) ∧
      (Yields (.snpAbort j) s fun t => stopped 1 t ∧ t.rd Reg.SNP_CTL_STAT_CODE = 0 ∧ (s.heldw = [] → freed x t)) ∧
      (s.rd state = 3 → s.hasWork j.val = false → Yields (.snapshotRecordCommit j) s fun t =>
        let target := s.rd (Reg.SNP_JOB_STAT_TARGET j.val)
        let seq := (s.rd (Reg.SNP_JOB_SEQ_SEQ j.val) + 1) % 2 ^ 32
        t.rd state = 0 ∧ t.rd (Reg.SNP_JOB_STAT_LATEST j.val) = target ∧ t.rd (Reg.SNP_JOB_SEQ_SEQ j.val) = seq ∧ t.snap j.val = none ∧
        t.rd Reg.SNP_DONE_CNT_COUNT = min (s.rd Reg.SNP_DONE_CNT_COUNT + 1) (2 ^ 32 - 1) ∧
        t.recValid (recKey (areaB target) j.val) = true ∧ t.recSeq (recKey (areaB target) j.val) = seq ∧
        t.rd Reg.SNP_PARTNER_STATE = if s.rd Reg.SNP_PARTNER_STATE = 0 then 0 else 2) ∧
      ∀ i < 8, (s.rd In.flashLast + 1 + i) % 8 = j.val → (∀ m < i, s.hasWork ((s.rd In.flashLast + 1 + m) % 8) = false) → s.hasWork j.val = true →
        let base := areaB (s.rd (Reg.SNP_JOB_STAT_TARGET j.val))
        let sound := s.hbmErr = [] ∧ s.lineErr = [] ∧ s.poison = []
        let copied := fun (src p : Nat) (t : State) => (∀ b < 2 ^ 21, t.memGet (pageKey base p + b) = s.memGet (src + b)) ∧
          flash t = min (flash s + 2 ^ 21) (2 ^ 48 - 1) ∧ t.rd In.flashLast = j.val
        let ended := fun t : State => stopped 2 t ∧ (s.heldw = [] → freed x t)
        let named := fun q : Nat × Nat => ∃ l ∈ s.launches, l.2.held = true ∧ 1024 * q.1 + q.2 ∈ l.2.whandles
        Yields (.flashWriteUnit false) s ended ∧
        (∀ a p l, s.stagedOf x.stackSet = (a, p) :: l →
          (s.stackStatus (a / 2 ^ 36) ≠ 0 → Yields (.flashWriteUnit true) s ended) ∧
          (s.stackStatus (a / 2 ^ 36) = 0 → sound → Tbl.wf (0 : BitVec 8) s.mem = true → Yields (.flashWriteUnit true) s fun t => copied a p t ∧
            ∀ q ∈ t.staged, q.1 ≠ a)) ∧
        (s.stagedOf x.stackSet = [] → ∀ pre r h post, s.markedOf j.val = pre ++ (r, h) :: post → (∀ q ∈ pre, ¬ named q) →
          (named (r, h) ∨ pre = [] ∧ ∀ q ∈ post, ¬ named q) → r < 32 → Yields (.flashWriteUnit true) s fun t =>
            let n := s.rd (In.hNext r h)
            (∀ c, (s.chunksOf r h)[n]? = some c → ∀ b < c.2.2, t.memGet (winKey base c.1 c.2.1 + b) = s.peek (spBase + spWin * c.1 + c.2.1 + b) % 256) ∧
            if n + 1 < (s.chunksOf r h).length then t.rd (In.hNext r h) = n + 1 ∧ t.protH = s.protH
            else t.rd (In.hNext r h) = 0 ∧ Tbl.get 0 t.protH (1024 * r + h) = 0) ∧
        (s.stagedOf x.stackSet = [] → s.markedOf j.val = [] → ∀ p l, s.protectedOf x.stackSet = p :: l →
          (s.stackStatus (p / 18432) ≠ 0 → Yields (.flashWriteUnit true) s ended) ∧
          (s.stackStatus (p / 18432) = 0 → sound → s.heldw = [] → Tbl.wf (0 : BitVec 8) s.mem = true → Yields (.flashWriteUnit true) s fun t =>
            copied (2 ^ 36 * (p / 18432) + 2 ^ 21 * (p % 18432)) p t ∧ t.protectedPage p = false))) ∧
    ((∀ k < 8, s.hasWork k = false) → ∀ ok, exec (.flashWriteUnit ok) s = .next s)

/-- Partner copies: without a partner or a committed snapshot a copy and its confirmation change nothing; otherwise the job's sections
leave, and a confirmation makes the partner's copy current and ends the lag. Bytes of another module's image go to this module's partner
area: where CAP gives it P0 and P1, to the one that does not hold the latest complete copy; until the last of them the record there is
not complete, and no other byte of the store or of memory changes. Restores and replays: a restore is refused with its code, ends with
the index of a page or handle chunk whose CRC differs, or puts every imaged page back (of the stacks that serve accesses) and leaves the
slot waiting for the replay with the job's steps from S + 1 on; the replay's loss is compared with the record's, a second mismatch is
told apart from a first, and the job's step moves on. The image of a partner's copy, source 2, comes with the command. -/
def Obligations.RestoresAndReplays : Prop :=
  (∀ (s : State) (j : Fin 8) (image : List (BitVec 44 × Byte)) (last : Bool), s.awake = true →
    let idle := s.rd Reg.SNP_PARTNER_STATE = 0 ∨ s.rd (Reg.SNP_JOB_STAT_LATEST j.val) = 0
    let p0 := recKey (areaB 3) j.val
    let p1 := recKey (areaB 4) j.val
    let base := areaB (if s.rd Reg.MOD_ID_CAP = 2 ∧ s.recValid p0 = true ∧ (s.recValid p1 = true → s.recSeq p1 ≤ s.recSeq p0) then 4 else 3)
    let bytes := (image.filter fun q => decide (q.1.toNat < 0x7440000000)).map fun q => (q.1.toNat, q.2.toNat)
    let commit := recKey base j.val + 5
    (idle → ∀ e ∈ [PartnerEvent.sent, .confirmed], exec (.partnerCopy j e) s = .next s) ∧
    (¬ idle →
      Yields (.partnerCopy j .confirmed) s (Wrote [(Reg.SNP_PARTNER_STATE, 3), (Reg.SNP_PARTNER_LAG_S, 0), (In.lagOn, 0)] s) ∧
      Yields (.partnerCopy j .sent) s fun t => ∃ u, Wrote [(Reg.SNP_PARTNER_STATE, 2)] s u ∧ t = { u with colOut := s.colOut ++ [.sections j.val] }) ∧
    Yields (.partnerCopy j (.arrived image last)) s fun t => t = { s with mem := t.mem } ∧
      (∀ o < 0x7440000000, (t.memGet (base + o)) = overlay bytes o
        (if base + o = commit ∧ last = false then s.memGet commit - s.memGet commit % 2 else s.memGet (base + o))) ∧
      ∀ a, a < base ∨ base + 0x7440000000 ≤ a → t.memGet a = s.memGet a) ∧
  (∀ (s : State) (flow : BitVec 8) (tag : BitVec 32) (j : Fin 8) (src : Fin 3) (image : List (BitVec 44 × Byte)), s.awake = true →
    let f := flow.toNat
    let ten := s.jobTenant j.val
    let v := (image.filter fun q => decide (q.1.toNat < 0x7440000000)).foldl (fun (t : State) q => t.memSet (partnerB + q.1.toNat) q.2.toNat) s
    let e : State := { v with mem := Tbl.cut v.mem partnerB (2 * partnerB) }
    let base := v.sourceBase j.val src.val
    let k := recKey base j.val
    let state := Reg.SNP_JOB_STAT_STATE j.val
    let cmd := Instr.restore flow tag j src image
    let write := Instr.snpRestore j src image
    let busy := s.rd (Reg.SNP_JOB_CFG_VALID j.val) = 0 ∨ s.rd state ≠ 0 ∨ s.tenantBusy ten = true
    let none' := v.recValid k = false ∨ src = 0 ∧ s.latestArea j.val = 0
    let other := v.keyN (k + 32) 2 % 2 ^ 12 ≠ s.ownStacks ten ∨ v.keyN (k + 36) 4 ≠ s.ownRegions ten ∨
      ∃ i < v.keyN (k + 50) 2 % 2 ^ 13, s.rd (Reg.STREAM_OWNER (v.keyN (k + 0x1000 + 32 * i) 2 % 4096)) ≠ ten ∨
        s.rd (Reg.STREAM_BUSY (v.keyN (k + 0x1000 + 32 * i) 2 % 4096)) = 1
    let answer := fun c : Nat => Wrote [(In.restDue j.val, 0), (Reg.SNP_CTL_STAT_CODE, c), (Reg.SNP_CTL_STAT_PEND, 0)] e
    let pages := State.imagedPages (s.ownStacks ten) (s.stagings (s.ownStacks ten))
    let good := fun p : Nat => crc32c (v.cellar (pageKey base p) (2 ^ 21)) = v.keyN (k + 0x800000 + 4 * p) 4
    let chunks := (v.recHandles k).flatMap fun q => State.entryChunks q.1 q.2.2
    let sound := fun (i : Nat) (c : Nat × Nat × Nat) => crc32c (v.cellar (winKey base c.1 c.2.1) c.2.2) = v.keyN (k + 0x8E0000 + 4 * i) 4
    let bad := fun (n : Nat) (t : State) => t.rd state = 0 ∧ t.rd (Reg.SNP_JOB_STAT_ERR j.val) = 3 ∧
      ∃ u, u.flows = s.flows ∧ Answered f 0x92 0x2E tag.toNat (toLe 4 n) u t
    let passes := ¬ busy ∧ ¬ none' ∧ ¬ other
    let all := (∀ p ∈ pages, good p) ∧ ∀ i c, chunks[i]? = some c → sound i c
    let back := fun t : State => t.rd state = 5 ∧ t.rd (Reg.SNP_JOB_STAT_ERR j.val) = 0 ∧ t.rd (In.jobStep ten) = (v.keyN (k + 16) 4 + 1) % 2 ^ 32 ∧
      t.rd (In.restLoss j.val) = v.keyN (k + 40) 8 ∧
      t.rd (In.restCheck j.val) = if (v.keyN (k + 4) 2).testBit 9 = true ∧ (v.keyN (k + 4) 2).testBit 10 = false then 1 else 0
    let w := s.wr (In.jobStep ten) (s.rd (In.jobStep ten) + 1)
    let loss := w.hbmRead (s.rd (Reg.SNP_JOB_LOSS_ADDR j.val)) 8 true
    let checked := s.rd (In.restCheck j.val) = 1 ∧ s.rd (Reg.SNP_JOB_CFG_VERIFY j.val) = 1
    let same := loss.2.1 = 0 ∧ ofLe loss.2.2 = s.rd (In.restLoss j.val)
    let told := fun (status : Nat) (fs : List (Fld × Nat)) (u0 t : State) => ∃ u, Wrote ((state, 0) :: (In.restDue j.val, 0) :: fs) u0 u ∧
      if s.rd (In.restDue j.val) = 1 then Answered (s.rd (In.restFlow j.val)) 0x92 status (s.rd (In.restTag j.val)) [] u t else t = u
    (¬ Managed s f → Yields cmd s (Answered f 0x92 1 tag.toNat [] s)) ∧
    (Managed s f → (busy → Yields cmd s (Answered f 0x92 0x28 tag.toNat [] e)) ∧
      (¬ busy → none' → Yields cmd s (Answered f 0x92 0x2D tag.toNat [] e)) ∧
      (¬ busy → ¬ none' → other → Yields cmd s (Answered f 0x92 0x2C tag.toNat [] e)) ∧
      (passes → ∀ p, pages.find? (fun p => !decide (good p)) = some p → Yields cmd s (bad p)) ∧
      (passes → (∀ p ∈ pages, good p) → ∀ i c, chunks[i]? = some c → ¬ sound i c → (∀ m < i, ∀ d, chunks[m]? = some d → sound m d) → Yields cmd s (bad i)) ∧
      (passes → all → Yields cmd s fun t => back t ∧ t.rd (In.restDue j.val) = 1 ∧ t.rd (In.restFlow j.val) = f ∧ t.rd (In.restTag j.val) = tag.toNat ∧
        ((∀ g ∈ s.stagings (s.ownStacks ten), g.2.1 + g.2.2 ≤ 18432) → Tbl.wf (0 : BitVec 8) s.mem = true → ∀ p ∈ pages, s.stackStatus (p / 18432) = 0 →
          ∀ b < 2 ^ 21, t.memGet (2 ^ 36 * (p / 18432) + 2 ^ 21 * (p % 18432) + b) = v.memGet (pageKey base p + b)) ∧
        ∃ u, u.flows = s.flows ∧ Answered f 0x92 0x38 tag.toNat (v.cellar (k + 16) 4 ++ v.cellar (k + 64) 64) u t)) ∧
    (busy → Yields write s (answer 1)) ∧ (¬ busy → none' → Yields write s (answer 6)) ∧ (¬ busy → ¬ none' → other → Yields write s (answer 5)) ∧
    (passes → all → Yields write s fun t => back t ∧ t.rd Reg.SNP_CTL_STAT_CODE = 0 ∧ t.rd (In.restDue j.val) = 0) ∧
    (s.rd state ≠ 5 → exec (.replayCompare j) s = .next s) ∧
    (s.rd state = 5 → (¬ checked → Yields (.replayCompare j) s (told 0x3B [] w)) ∧
      (checked → same → Yields (.replayCompare j) s
        (told 0x39 [(In.misses j.val, 0), (Reg.SNP_REPLAY_OK_COUNT, min (s.rd Reg.SNP_REPLAY_OK_COUNT + 1) (2 ^ 32 - 1))] loss.1)) ∧
      (checked → ¬ same → s.rd (In.misses j.val) = 0 → Yields (.replayCompare j) s (told 0x3A
        [(In.misses j.val, 1), (Reg.SNP_JOB_STAT_ERR j.val, 4), (Reg.SNP_REPLAY_BAD_COUNT, min (s.rd Reg.SNP_REPLAY_BAD_COUNT + 1) (2 ^ 32 - 1))] loss.1)) ∧
      (checked → ¬ same → s.rd (In.misses j.val) ≠ 0 → Yields (.replayCompare j) s (told 0x3C
        [(In.misses j.val, 0), (Reg.SNP_JOB_STAT_ERR j.val, 5), (Reg.SNP_REPLAY_BAD_COUNT, min (s.rd Reg.SNP_REPLAY_BAD_COUNT + 1) (2 ^ 32 - 1))] loss.1))))

/-- Entry of a module-wide power state: nothing while the request or the wait is not that of the state; a refusal that names the
refuser; a drain while a bank has a writer; and then the state, with what it keeps. Wake sources and the drain's timeout: an entry in
progress aborts, Cold frame begins its exit, and elsewhere nothing happens; a wake pin's edge is latched in every state but off. The
exit from Cold frame starts once a source is due: the clocks run, the ports leave SLEEP and the boot chain begins (R515). A probe in
Soil probe samples every comparator that is on; with no match and no enabled source seen the module stays, and memory with it; otherwise
it goes to Cold frame with nothing retained and ALERT_N asserted, and from there on through the lowest source seen, or through PROBE
where that is enabled, or it waits (R516, R517). Gating of regions: the requests of a mask are checked one by one, a region without
writers powers down and loses its unretained banks and its clusters' state, and wakes again where an access is held at its crossing; a
drain that does not end aborts and names the writer; a wake request marks the gated regions of a mask, and a region wakes (R506 to
R509). -/
def Obligations.PowerStatesAndGating : Prop :=
  (∀ (s : State) (c : CoreId), s.awake = true →
    let asked := fun q : Nat => s.rd Reg.PWR_MODE_REQ = q ∧ s.rd (In.ccWait c.val) = 2
    let enters := [(Instr.enterColdFrame c, 1), (Instr.enterSoilProbe c, 2), (Instr.enterOff c, 3)]
    let clear := fun q : Nat => asked q ∧ (s.rd Reg.PWR_STAT_STATE = 1 ∨ s.entryRefuser c.val q = none)
    let u := s.wrs [(Reg.PWR_STAT_STATE, 1), (In.pwrCore, c.val)]
    (∀ p ∈ enters, ¬ asked p.2 → exec p.1 s = .next s) ∧
    (∀ p ∈ enters, ∀ w, asked p.2 → s.rd Reg.PWR_STAT_STATE ≠ 1 → s.entryRefuser c.val p.2 = some w → Yields p.1 s fun t => OnlyRegs s t ∧
      t.rd Reg.PWR_MODE_REQ = 0 ∧ t.rd Reg.PWR_STAT_STATE = 0 ∧ t.rd (In.ccWait c.val) = 0 ∧ t.rd (Reg.MOD_CC_WAITCAUSE c.val) = 16 ∧
      t.rd Reg.PWR_REFUSED_COUNT = min (s.rd Reg.PWR_REFUSED_COUNT + 1) (2 ^ Reg.PWR_REFUSED_COUNT.w - 1) ∧
      t.rd (Reg.PWR_REFUSE_LOG_KIND 0) = w.1 % 16 ∧ t.rd (Reg.PWR_REFUSE_LOG_INDEX 0) = w.2.1 % 4096 ∧
      t.rd (Reg.PWR_REFUSE_LOG_STATE 0) = p.2 ∧ t.rd (Reg.PWR_REFUSE_LOG_ABORTED 0) = 0) ∧
    (∀ p ∈ enters, clear p.2 → u.anyWriter.isSome = true → Yields p.1 s (Wrote [(Reg.PWR_STAT_STATE, 1), (In.pwrCore, c.val)] s)) ∧
    (u.anyWriter = none →
      (clear 1 → Yields (.enterColdFrame c) s fun t => t.rd Reg.PWR_STAT_STATE = 2 ∧ t.rd Reg.PWR_STAT_LAST = 1 ∧ t.rd Reg.PWR_MODE_REQ = 0 ∧
        t.rd Reg.CLK_DOM_STAT_RUN = 0x80 ∧ t.launches = [] ∧ t.flows = [] ∧ (∀ p < 6, t.rd (Reg.OZL_STAT_STATE p) = 1) ∧
        (∀ k < 12, (s.rd Reg.PWR_RET_STACK_MASK).testBit k = true → t.rd (Reg.HBM_STAT_STATE k) = 3) ∧
        (∀ a < 12 * 2 ^ 36, t.memGet a = if (s.rd Reg.PWR_RET_STACK_MASK).testBit (a / 2 ^ 36) then s.memGet a else 0) ∧
        (∀ (k : ClusterId) (b : Fin 64) (o : Nat), o < 0x200000 → t.memGet (State.rowKey k.val b.val 0 + o) =
          if s.retained k.val b.val then s.memGet (State.rowKey k.val b.val 0 + o) else 0) ∧
        ∀ a, flashB ≤ a → t.memGet a = s.memGet a) ∧
      (clear 2 → Yields (.enterSoilProbe c) s fun t => t.rd Reg.PWR_STAT_STATE = 3 ∧ t.rd Reg.PWR_STAT_LAST = 2 ∧ t.rd Reg.PWR_MODE_REQ = 0 ∧
        t.rd Reg.CLK_DOM_STAT_RUN = 0x80 ∧ t.rd Reg.SEC_DBG_STAT_STATE = 0 ∧ t.launches = [] ∧ t.flows = [] ∧
        ∀ a, t.memGet a = if flashB ≤ a then s.memGet a else 0) ∧
      (clear 3 → Yields (.enterOff c) s fun t => t.rd In.hold = 8 ∧ t.rd In.pwrGood = 0 ∧ t.rd Reg.CLK_DOM_STAT_RUN = 0 ∧ t.standby = false ∧
        t.launches = [] ∧ t.flows = [] ∧ ∀ a, t.memGet a = if flashB ≤ a then s.memGet a else 0))) ∧
  (∀ (s : State) (b : Fin 26) (pin : Fin 2),
    let armed := (s.rd Reg.PWR_WAKE_EN).testBit b.val = true ∧ s.rd In.hold = 0
    let state := s.rd Reg.PWR_STAT_STATE
    let c := s.rd In.pwrCore
    let aborted := fun (kind : Nat) (t : State) => OnlyRegs s t ∧ t.rd Reg.PWR_MODE_REQ = 0 ∧ t.rd Reg.PWR_STAT_STATE = 0 ∧
      t.rd (In.ccWait c) = 0 ∧ t.rd (Reg.MOD_CC_WAITCAUSE c) = 16 ∧
      t.rd Reg.PWR_ABORTED_COUNT = min (s.rd Reg.PWR_ABORTED_COUNT + 1) (2 ^ Reg.PWR_ABORTED_COUNT.w - 1) ∧
      t.rd (Reg.PWR_REFUSE_LOG_KIND 0) = kind % 16 ∧ t.rd (Reg.PWR_REFUSE_LOG_ABORTED 0) = 1
    (¬ armed ∨ state ≠ 1 ∧ state ≠ 2 → exec (.wakeSource b) s = .next s) ∧
    (armed → state = 1 → Yields (.wakeSource b) s fun t => aborted 12 t ∧ (t.rd Reg.PWR_WAKE_SRC).testBit b.val = true) ∧
    (armed → state = 2 → s.rd In.wakeDue = 0 → Yields (.wakeSource b) s fun t => OnlyRegs s t ∧ t.rd In.wakeDue = 1 ∧
      t.rd Reg.PWR_STAT_WAKE_BIT = b.val ∧ ∀ k < 25, (t.rd Reg.PWR_WAKE_SRC).testBit k = (k == b.val || (s.rd Reg.PWR_WAKE_SRC).testBit k)) ∧
    (armed → state = 2 → s.rd In.wakeDue ≠ 0 → Yields (.wakeSource b) s fun t => OnlyRegs s t ∧ Untouched [Reg.PWR_WAKE_SRC] s t ∧
      ∀ k < 25, (t.rd Reg.PWR_WAKE_SRC).testBit k = (k == b.val || (s.rd Reg.PWR_WAKE_SRC).testBit k)) ∧
    ((s.rd In.hold).testBit 3 = true → exec (.wakePinEdge pin) s = .next s) ∧
    ((s.rd In.hold).testBit 3 = false → Yields (.wakePinEdge pin) s fun t => OnlyRegs s t ∧
      ∀ k < 25, (t.rd Reg.PWR_WAKE_SRC).testBit k = (k == 20 + pin.val || (s.rd Reg.PWR_WAKE_SRC).testBit k)) ∧
    (s.awake = true → (state ≠ 1 ∨ s.anyWriter = none → exec .entryDrainTimeout s = .next s) ∧
      (state = 1 → ∀ w, s.anyWriter = some w → Yields .entryDrainTimeout s (aborted w.1)))) ∧
  (∀ s : State,
    let state := s.rd Reg.PWR_STAT_STATE
    (state = 2 → s.rd In.wakeDue = 1 → s.rd In.hold = 0 → Yields .coldFrameExit s fun t => OnlyRegs s t ∧ t.rd Reg.CLK_DOM_STAT_RUN = 0xFF ∧
      t.rd Reg.PWR_STAT_STATE = 4 ∧ t.rd Reg.MOD_BOOT_STAGE = 0 ∧ t.awake = true ∧ (∀ p < 6, t.rd (Reg.OZL_STAT_STATE p) = 0) ∧
      ∀ r < 32, t.rd (Reg.CLK_ISL_STATE r) = b2n (s.gated r)) ∧
    (state ≠ 2 ∨ s.rd In.wakeDue = 0 ∨ s.rd In.hold ≠ 0 → exec .coldFrameExit s = .next s) ∧
    ∀ (values : Vector (BitVec 16) 8) (seen : BitVec 32),
      let i := Instr.soilProbe values seen
      let runs := state = 3 ∧ s.rd In.hold = 0
      let value := fun k : Fin 8 => values.get k
      let limit := fun k : Fin 8 => (BitVec.ofNat 16 (s.rd (Reg.PWR_PROBE_CMP_THRESH k.val))).toInt
      let op := fun k : Fin 8 => s.rd (Reg.PWR_PROBE_CMP_OP k.val)
      let hit := fun k : Fin 8 => op k = 1 ∧ limit k < (value k).toInt ∨ op k = 2 ∧ (value k).toInt < limit k
      let enabled := fun b : Nat => (s.rd Reg.PWR_WAKE_EN).testBit b = true
      let found := fun b : Nat => enabled b ∧ (b < 6 ∧ seen.toNat.testBit b = true ∨ b = 16 ∧ seen.toNat.testBit b = true ∨
        (b = 20 ∨ b = 21) ∧ (seen.toNat.testBit b = true ∨ (s.rd Reg.PWR_WAKE_SRC).testBit b = true))
      let sampled := fun t : State => ∀ k : Fin 8, (op k = 1 ∨ op k = 2 → t.rd (Reg.PWR_PROBE_VAL_VALUE k.val) = (value k).toNat) ∧
        (hit k → t.rd (Reg.PWR_PROBE_VAL_MATCH k.val) = 1)
      let frame := fun t : State => sampled t ∧ t.rd Reg.PWR_STAT_STATE = 2 ∧ t.rd (In.alert 2) = 1 ∧ ∀ a, t.memGet a = if flashB ≤ a then s.memGet a else 0
      (¬ runs → exec i s = .next s) ∧
      (runs → (∀ k, ¬ hit k) → (∀ b, ¬ found b) → Yields i s fun t => sampled t ∧ t.rd Reg.PWR_STAT_STATE = 3 ∧ t.mem = s.mem ∧
        t.rd Reg.PWR_WAKE_SRC = s.rd Reg.PWR_WAKE_SRC) ∧
      (∀ b, runs → found b → (∀ c < b, ¬ found c) → Yields i s fun t => frame t ∧ t.rd In.wakeDue = 1 ∧ t.rd Reg.PWR_STAT_WAKE_BIT = b ∧
        ∀ c, found c → (t.rd Reg.PWR_WAKE_SRC).testBit c = true) ∧
      (runs → (∃ k, hit k) → (∀ b, ¬ found b) → Yields i s fun t => frame t ∧ (t.rd Reg.PWR_WAKE_SRC).testBit 24 = true ∧
        (enabled 24 → t.rd In.wakeDue = 1 ∧ t.rd Reg.PWR_STAT_WAKE_BIT = 24) ∧ (¬ enabled 24 → t.rd In.wakeDue = 0))) ∧
  (∀ (s : State) (r : RegionId), s.awake = true →
    let count := fun (f : Fld) (n : Nat) => min (s.rd f + n) (2 ^ f.w - 1)
    let bit := fun (t : State) (f : Fld) (k : Nat) => (t.rd f).testBit k
    let may := fun k : Nat => s.gated k = false ∧ (s.seq k).launch = none ∧ s.rd (Reg.SP_ZERO_STAT_BUSY k) = 0 ∧ s.testing k = false
    let drains := s.rd (In.gateDrain r.val) = 1
    (∀ m : BitVec 32, Yields (.pwrRgate m) s fun t => OnlyRegs s t ∧ ∀ k : RegionId,
      (bit t Reg.PWR_RGATE_REQ k.val = true ↔ bit s Reg.PWR_RGATE_REQ k.val = true ∨ m.toNat.testBit k.val = true ∧ may k.val) ∧
      (t.rd (In.gateDrain k.val) = 1 ↔ s.rd (In.gateDrain k.val) = 1 ∨ m.toNat.testBit k.val = true ∧ may k.val ∧ s.regionProtected k.val = false)) ∧
    (bit s Reg.PWR_RGATE_REQ r.val = true → s.regionProtected r.val = false → Yields (.gatingDeferredStart r) s (Wrote [(In.gateDrain r.val, 1), (In.gateFrom r.val, s.wid % 2 ^ 64)] s)) ∧
    (bit s Reg.PWR_RGATE_REQ r.val = false ∨ s.regionProtected r.val = true → exec (.gatingDeferredStart r) s = .next s) ∧
    (drains → s.bankWriter r.val = none → Yields (.gatingDone r) s fun t =>
      bit t Reg.PWR_RSTATE_GATED r.val = true ∧ bit t Reg.PWR_RGATE_REQ r.val = false ∧ t.rd (In.gateDrain r.val) = 0 ∧
      t.rd (Reg.CLK_ISL_STATE r.val) = 1 ∧ t.seq r.val = Seq.idle ∧ t.rd Reg.PWR_GATE_CNT_COUNT = count Reg.PWR_GATE_CNT_COUNT 1 ∧
      t.rd Reg.PWR_MSG_CODE = 3 ∧ t.rd Reg.PWR_MSG_REGION = r.val ∧
      (bit t Reg.PWR_RWAKE_WAKE r.val = true ↔ bit s Reg.PWR_RWAKE_WAKE r.val = true ∨ (s.heldAccess r.val).isSome = true) ∧
      (∀ k : ClusterId, t.clu k.val = if k.val / 8 = r.val then Clu.empty else s.clu k.val) ∧
      ∀ (k : ClusterId) (b : Fin 64) (o : Nat), o < 0x200000 → t.memGet (State.rowKey k.val b.val 0 + o) =
        if k.val / 8 = r.val ∧ s.retained k.val b.val = false then 0 else s.memGet (State.rowKey k.val b.val 0 + o)) ∧
    (¬ drains ∨ s.bankWriter r.val ≠ none → exec (.gatingDone r) s = .next s) ∧
    (drains → ∀ w, s.bankWriter r.val = some w → Yields (.gatingDrainTimeout r) s fun t => OnlyRegs s t ∧ t.rd (In.gateDrain r.val) = 0 ∧
      bit t Reg.PWR_RGATE_REQ r.val = false ∧ t.rd Reg.PWR_ABORTED_COUNT = count Reg.PWR_ABORTED_COUNT 1 ∧
      t.rd (Reg.PWR_REFUSE_LOG_KIND 0) = w.1 % 16 ∧ t.rd (Reg.PWR_REFUSE_LOG_REGION 0) = r.val ∧ t.rd Reg.PWR_MSG_CODE = 4) ∧
    (¬ drains ∨ s.bankWriter r.val = none → exec (.gatingDrainTimeout r) s = .next s) ∧
    (∀ m : BitVec 32, Yields (.pwrRwake m) s fun t => OnlyRegs s t ∧ Untouched (Reg.PWR_RWAKE_WAKE :: (List.range 32).map In.waker) s t ∧ ∀ k : RegionId,
      (bit t Reg.PWR_RWAKE_WAKE k.val = true ↔ bit s Reg.PWR_RWAKE_WAKE k.val = true ∨ m.toNat.testBit k.val = true ∧ s.gated k.val = true)) ∧
    (s.gated r.val = false → exec (.regionWake r) s = .next s) ∧
    (s.gated r.val = true → Yields (.regionWake r) s fun t => OnlyRegs s t ∧ t.gated r.val = false ∧ bit t Reg.PWR_RWAKE_WAKE r.val = false ∧
      t.rd (Reg.CLK_ISL_STATE r.val) = 0 ∧ t.rd Reg.PWR_WAKE_CNT_COUNT = count Reg.PWR_WAKE_CNT_COUNT 1 ∧
      ∀ k : RegionId, k ≠ r → t.gated k.val = s.gated k.val))

/-- The supply feeds (Table 21.1): each condition sets which feed is used, in range and isolated, and its sticky bit; a feed rejoins.
What takes the module down, and its return: after an emergency shutdown, a rail fault or a module trip nothing but domain 39 holds
state; the third rail fault within 60 s keeps it down; POWER_UP is a cold reset with cause POR. -/
def Obligations.SupplyAndShutdown : Prop :=
  (∀ (s : State) (x : Fin 2), s.standby = true →
    let f := x.val
    let becomes := fun (used inr iso sticky : Nat) (t : State) => OnlyRegs s t ∧ t.rd (feedUsed f) = used ∧ t.rd (feedIn f) = inr ∧
      t.rd (feedIso f) = iso ∧ t.rd (feedSticky sticky f) = 1 ∧ t.rd (feedUsed (1 - f)) = s.rd (feedUsed (1 - f))
    let iso := s.rd (feedIso f)
    Yields (.feedReversed x) s (becomes 0 0 0 0) ∧ Yields (.feedAbsent x) s (becomes 0 0 iso 1) ∧
    Yields (.feedOutOfRange x) s (becomes (if iso = 0 then 1 else 0) 0 iso 2) ∧ Yields (.feedOvervoltage x) s (becomes 0 0 1 3) ∧
    (s.rd (feedUsed f) = 1 → Yields (.feedOvercurrent x) s (becomes 0 (s.rd (feedIn f)) 2 3)) ∧
    (s.rd (feedUsed f) = 0 → exec (.feedOvercurrent x) s = .next s) ∧
    Yields (.feedRejoin x) s (Wrote [(feedUsed f, 1), (feedIn f, 1), (feedIso f, 0)] s) ∧
    Yields .presNAssert s (Wrote [(Reg.HLT_FEED_PRES, 1)] s)) ∧
  (∀ s : State, s.standby = true →
    let h := s.rd In.hold
    let down := fun (fs : List Fld) (t : State) => t.rd In.hold = h ||| 4 ∧ t.rd Reg.CLK_DOM_STAT_RUN = 0x80 ∧ t.rd In.pwrGood = 0 ∧
      t.awake = false ∧ t.standby = true ∧ t.launches = [] ∧ t.seqs = [] ∧ t.flows = [] ∧
      (∀ a, t.memGet a = if flashB ≤ a then s.memGet a else 0) ∧
      ∀ f : Fld, (∀ g ∈ In.hold :: Reg.CLK_DOM_STAT_RUN :: In.pwrGood :: In.wakeDue :: fs, f.bit ≠ g.bit) →
        t.rd f = if keepWarm f.bit then s.rd f else f.rst % 2 ^ f.w
    let used := s.rd (feedUsed 0) = 1 ∨ s.rd (feedUsed 1) = 1
    Yields (.emergencyShutdown true) s (fun t => down [Reg.HLT_FEED_PRES] t ∧ t.rd Reg.HLT_FEED_PRES = 0) ∧
    (used → exec (.emergencyShutdown false) s = .next s) ∧ (¬ used → Yields (.emergencyShutdown false) s (down [])) ∧
    (∀ reading : BitVec 8, (reading.toNat < 110 → exec (.moduleTrip reading) s = .next s) ∧
      (110 ≤ reading.toNat → Yields (.moduleTrip reading) s fun t => down [In.alert 7, In.railRec 0, In.railRec 1, In.railRec 2] t ∧
        t.rd (In.alert 7) = 1 ∧ t.rd (In.railRec 0) = 0x3E ∧ t.rd (In.railRec 1) = 3)) ∧
    (∀ (rail : BitVec 8) (up : Bool), (h.testBit 2 = true → exec (.railFault rail up) s = .next s) ∧
      (h.testBit 2 = false → Yields (.railFault rail up) s fun t =>
        down [In.railRec 0, In.railRec 1, In.railRec 2, In.railAt 0, In.railAt 1, In.railAt 2, In.stuck] t ∧
        t.rd (In.railRec 0) = rail.toNat ∧ t.rd (In.railRec 1) = (if up then 2 else 1) ∧ t.rd (In.railRec 2) = 1 ∧
        t.rd (In.railAt 2) = s.rd (In.railAt 1) ∧ t.rd (In.railAt 1) = s.rd (In.railAt 0) ∧
        (s.rd (In.railAt 0) ≠ 0 → s.rd (In.railAt 1) ≠ 0 → s.rd In.wall + 2 < 2 ^ 64 → s.rd In.wall + 1 < s.rd (In.railAt 0) + 60000 →
          s.rd In.wall + 1 < s.rd (In.railAt 1) + 60000 → t.rd In.stuck = 1) ∧
        (s.rd (In.railAt 1) = 0 → t.rd In.stuck = s.rd In.stuck))) ∧
    ∀ (slotId slotOpen : BitVec 6) (feedId feedOpen : BitVec 4) (mgrEn mgrOpen : Bool),
      let i := Instr.powerUp slotId slotOpen feedId feedOpen mgrEn mgrOpen
      let fed := s.rd (feedUsed 0) = 1 ∧ s.rd (feedIn 0) = 1 ∨ s.rd (feedUsed 1) = 1 ∧ s.rd (feedIn 1) = 1
      let may := h.testBit 2 = true ∧ fed ∧ s.rd Reg.HLT_FEED_PRES = 1 ∧ s.rd In.stuck = 0
      (¬ may → exec i s = .next s) ∧
      (may → Yields i s fun t => t.rd In.hold = h % 4 ∧ t.rd In.pwrGood = 1 ∧ t.rd Reg.MOD_RESET_CAUSE_POR = 1 ∧ t.launches = [] ∧
        (∀ a, t.memGet a = if flashB ≤ a then s.memGet a else 0) ∧
        t.rd Reg.HLT_RAIL_FAULT_VALID = (if s.rd (In.railRec 2) = 0 then 0 else 1) ∧
        (h % 2 = 0 → t.rd Reg.MOD_STRAP_SLOT_ID = slotId.toNat ||| slotOpen.toNat ∧ t.rd Reg.MOD_STRAP_FEED_ID = feedId.toNat ||| feedOpen.toNat ∧
          t.rd Reg.MOD_STRAP_MGR_EN = b2n (mgrEn && !mgrOpen))))

/-- The power loops: a sample above 2,300 W steps every busy island down by four, a mean above 2,000 W by one, a mean below 1,950 W up
by one, within 0 to 14; at the floor the alert is raised once and stays until the mean is below 2,000 W. The thermal controller: the
readings are kept; with a junction or a stack of a die at 95 °C or above every island's THERM falls by one, with all below 92 °C it
rises by one, within 0 to 14. A die trip stops the die: its islands, its stacks, its banks; the thermal trip is asserted. -/
def Obligations.PowerLoopsAndTrips : Prop :=
  (∀ (s : State) (va vb w : BitVec 16), s.awake = true →
    let busy := fun r : Nat => (s.seq r).launch.isSome = true
    let pwr := fun (t : State) (r : Nat) => t.rd (Reg.CLK_ISL_PWR r)
    let floor := ∀ r < 32, busy r → s.rd (Reg.CLK_ISL_CUR r) = 0
    let stepped := fun (down up : Nat) (t : State) => ∀ r < 32, pwr t r = if busy r then min 14 (pwr s r - down + up) else pwr s r
    Yields (.powerSample va vb w) s (fun t => OnlyRegs s t ∧ t.rd (In.meas 0) = va.toNat ∧ t.rd (In.meas 1) = vb.toNat ∧
      t.rd (In.meas 2) = w.toNat ∧ (2300 < w.toNat → stepped 4 0 t) ∧ (w.toNat ≤ 2300 → ∀ r < 32, pwr t r = pwr s r)) ∧
    (2000 < w.toNat → ¬ floor → Yields (.powerSlowLoop w) s fun t => OnlyRegs s t ∧ stepped 1 0 t) ∧
    (2000 < w.toNat → floor → s.rd (In.alert 1) = 1 → exec (.powerSlowLoop w) s = .next s) ∧
    (2000 < w.toNat → floor → s.rd (In.alert 1) = 0 → Yields (.powerSlowLoop w) s fun t => OnlyRegs s t ∧ t.rd (In.alert 1) = 1 ∧
      t.rd Reg.PWR_MSG_CODE = 5 ∧ t.rd Reg.PWR_MSG_PEND = 1 ∧ ∀ r < 32, pwr t r = pwr s r) ∧
    (w.toNat = 2000 → exec (.powerSlowLoop w) s = .next s) ∧
    (w.toNat < 2000 → 1950 ≤ w.toNat → Yields (.powerSlowLoop w) s (Wrote [(In.alert 1, 0)] s)) ∧
    (w.toNat < 1950 → Yields (.powerSlowLoop w) s fun t => OnlyRegs s t ∧ t.rd (In.alert 1) = 0 ∧ stepped 0 1 t)) ∧
  (∀ (s : State) (dies : Vector (BitVec 8) 4) (iod : BitVec 8) (temps : Vector (BitVec 8) 12), s.awake = true →
    Yields (.thermalControlTick dies iod temps) s fun t => OnlyRegs s t ∧
      (∀ k : Fin 12, t.rd (Reg.HBM_STAT_TEMP k.val) = (temps.get k).toNat) ∧
      (∀ d : Fin 4, t.hot d.val = (dies.get d).toInt) ∧ t.hot 4 = iod.toInt ∧
      ∀ (d : Fin 4) (i : Fin 8),
        let th := fun u : State => u.rd (Reg.CLK_ISL_THERM (8 * d.val + i.val))
        let stack := fun k : Fin 3 => (temps.toList.getD (3 * d.val + k.val) 0).toNat
        (95 ≤ (dies.get d).toInt ∨ (∃ k, 95 ≤ stack k) → th t = th s - 1) ∧
        ((dies.get d).toInt < 92 → (∀ k, stack k < 92) → th t = min 14 (th s + 1)) ∧
        (92 ≤ (dies.get d).toInt ∨ (∃ k, 92 ≤ stack k) → (dies.get d).toInt < 95 → (∀ k, stack k < 95) → th t = th s)) ∧
  (∀ (s : State) (d : DieId) (sensor : Fin 67) (reading : BitVec 8), s.awake = true →
    let limit := if sensor.val < 64 then 110 else 105
    (reading.toNat < limit ∨ s.rd (In.dieOff d.val) = 1 → exec (.dieTrip d sensor reading) s = .next s) ∧
    (limit ≤ reading.toNat → s.rd (In.dieOff d.val) = 0 → Yields (.dieTrip d sensor reading) s fun t =>
      t.rd (In.dieOff d.val) = 1 ∧ t.rd (In.alert 7) = 1 ∧ (∀ k < 3, t.rd (Reg.HBM_STAT_STATE (3 * d.val + k)) = 5) ∧
      (∀ i < 8, t.rd (Reg.CLK_ISL_STATE (8 * d.val + i)) = 2) ∧
      ∀ a, spBase + 64 * d.val * spWin ≤ a → a < spBase + 64 * (d.val + 1) * spWin → t.memGet a = 0))

/-- The instructions of the test access port: what each loads, drives and holds. Those that leave the module its pins end the hold in
cold reset; the others reset the module and hold it. With the module off none does anything. DBG_MEM, DBG_SCAN and the debug registers
do nothing while debug is locked: the two TAP instructions act as BYPASS, and a write of DBG_HALT, DBG_STEP, DBG_DATA or DBG_INJ is
lost; every register of the DBG_ block reads 0 and ignores writes. The debug commands while debug is unlocked: one privileged access,
the halt mask with the periods of the regions it held, a step of a halted region by its next bundle, the scan register of a halted
region and a write of its state, and an armed injection. -/
def Obligations.BoundaryScanAndDebugPort : Prop :=
  (∀ (s : State) (pins cells : BitVec 242) (w : Bool) (addr : BitVec 48) (data : BitVec 64) (din : BitVec 544),
    let held := (s.rd In.hold).testBit 1
    let id := s.rd Reg.MOD_ID_STEP * 2 ^ 28 + 0x9A71 * 2 ^ 12 + 0x179 * 2 + 1
    let plain := [Instr.tapReset, .idcode, .bypass, .samplePreload pins cells, .dbgMem w addr data, .dbgScan din]
    let holding := [(Instr.clamp, 3), (.highz, 4), (.extest pins cells, 0), (.extestPulse pins cells, 5), (.extestTrain pins cells, 6)]
    (s.standby = false → (∀ i ∈ plain, exec i s = .next s) ∧ ∀ p ∈ holding, exec p.1 s = .next s) ∧
    (s.standby = true → held = false →
      Yields .tapReset s (Wrote [(In.tapIr, 2), (In.tapOut, id)] s) ∧ Yields .idcode s (Wrote [(In.tapIr, 2), (In.tapOut, id)] s) ∧
      Yields .bypass s (Wrote [(In.tapIr, 0xFF), (In.tapOut, 0)] s) ∧
      Yields (.samplePreload pins cells) s (Wrote [(In.tapIr, 1), (In.tapOut, s.bsCapture pins.toNat), (In.tapCells, cells.toNat)] s)) ∧
    (s.standby = true → held = true → ∀ i ∈ plain.take 4, Yields i s fun t => OnlyRegs s t ∧
      t.rd In.hold = s.rd In.hold - 2 ∧ t.rd Reg.MOD_RESET_CAUSE_PIN = 1) ∧
    (s.standby = true → ∀ p ∈ holding,
      Yields p.1 s fun t => t.rd In.tapIr = p.2 ∧ (t.rd In.hold).testBit 1 = true ∧ t.awake = false ∧ t.launches = [] ∧
        (∀ a, t.memGet a = if flashB ≤ a then s.memGet a else 0) ∧ t.rd In.tapCells = if p.2 = 3 ∨ p.2 = 4 then s.rd In.tapCells else cells.toNat)) ∧
  (∀ (s : State) (w two : Bool) (addr : BitVec 48) (data : BitVec 64) (din : BitVec 544) (r : RegionId) (mask periods lo hi : BitVec 32)
    (target : BitVec 3), s.rd Reg.SEC_DBG_STAT_STATE = 0 →
    (∀ i ∈ [Instr.dbgHalt mask periods, .dbgStep r, .dbgDataWrite lo hi, .dbgInj target two addr], exec i s = .next s) ∧
    (s.standby = true → (s.rd In.hold).testBit 1 = false →
      Yields (.dbgMem w addr data) s (Wrote [(In.tapIr, 0x80), (In.tapOut, 0)] s) ∧
      Yields (.dbgScan din) s (Wrote [(In.tapIr, 0x81), (In.tapOut, 0)] s)) ∧
    ∀ o ∈ [0x00, 0x04, 0x08, 0x10, 0x18, 0x1C, 0x20, 0x28, 0x2C], let a := Reg.iodB + 0x60000 + o
      s.regRead a 4 = (s, 0) ∧ ∀ v : BitVec 64, exec (.registerWrite (BitVec.ofNat 48 a) 2 v) s = .next s) ∧
  (∀ (s : State) (two : Bool) (addr : BitVec 48) (data : BitVec 64) (din : BitVec 544) (r : RegionId) (mask periods lo hi : BitVec 32)
    (target : BitVec 3), s.awake = true → s.rd Reg.SEC_DBG_STAT_STATE = 1 →
    let x := s.busLoad addr.toNat 8
    let y := s.busStore 255 addr.toNat 8 data.toNat
    let region := s.rd Reg.DBG_ADDR_REGION
    let scan := s.rd Reg.DBG_CTL_SCAN_REGION
    let q := s.seq r.val
    let steps := s.dbgHalted r.val = true ∧ s.active r.val = true ∧ q.halted = false ∧ q.stopped = false ∧ q.holds = []
    let words := [(Reg.DBG_DATA_LO, lo.toNat), (Reg.DBG_DATA_HI, hi.toNat)]
    (addr.toNat % 8 ≠ 0 → ∀ w, Yields (.dbgMem w addr data) s (Wrote [(In.tapIr, 0x80), (In.tapOut, 0)] s)) ∧
    (addr.toNat % 8 = 0 → Yields (.dbgMem false addr data) s (Wrote [(In.tapIr, 0x80),
      (In.tapOut, if x.2.1 = 0 then x.2.2 % 2 ^ 64 + 2 ^ 113 else 0)] x.1)) ∧
    (addr.toNat % 8 = 0 → Yields (.dbgMem true addr data) s fun t => t.mem = y.1.mem ∧
      t.rd In.tapOut = if y.2 = 0 then data.toNat + 2 ^ 113 else data.toNat) ∧
    (s.dbgHalted scan = false → Yields (.dbgScan din) s (Wrote [(In.tapIr, 0x81), (In.tapOut, s.scanWord scan)] s)) ∧
    (s.dbgHalted scan = true → Yields (.dbgScan din) s fun t => t.rd In.tapIr = 0x81 ∧ t.rd In.tapOut = s.scanWord scan ∧
      (t.seq scan).next = bitsOf din.toNat 527 512 ∧ t.rd (Reg.SQ_STAT_STATE scan) = bitsOf din.toNat 531 528 ∧
      t.rd (Reg.SQ_STAT_PHASE scan) = bitsOf din.toNat 543 532 ∧
      ∀ i, 1 ≤ i → i < 16 → i < (s.seq scan).ix.length → t.ixv scan i = bitsOf din.toNat (32 * i + 31) (32 * i)) ∧
    Yields (.dbgHalt mask periods) s (fun t => OnlyRegs s t ∧ ∀ k < 32,
      (t.rd Reg.DBG_HALT_MASK).testBit k = (if s.testing k then (s.rd Reg.DBG_HALT_MASK).testBit k else mask.toNat.testBit k) ∧
      t.rd (Reg.CLK_HELD_COUNT k) = if s.dbgHalted k = true ∧ s.active k = true then min (s.rd (Reg.CLK_HELD_COUNT k) + periods.toNat) (2 ^ 32 - 1)
        else s.rd (Reg.CLK_HELD_COUNT k)) ∧
    (steps → exec (.dbgStep r) s = .next (s.issueKernel r.val)) ∧ (¬ steps → exec (.dbgStep r) s = .next s) ∧
    (s.dbgHalted region = false → Yields (.dbgDataWrite lo hi) s (Wrote words s)) ∧
    (s.dbgHalted region = true → Yields (.dbgDataWrite lo hi) s fun t => ∃ u, Wrote words s u ∧
      t = (u.archPut region (s.rd Reg.DBG_ADDR_CLUSTER) (s.rd Reg.DBG_ADDR_SPACE) (s.rd Reg.DBG_ADDR_OFFSET) (lo.toNat + hi.toNat * 2 ^ 32)).touchRegion region) ∧
    (s.dbgHalted region = true → s.rd Reg.DBG_ADDR_SPACE = 1 → s.rd Reg.DBG_ADDR_OFFSET < 4096 → Yields (.dbgDataWrite lo hi) s fun t =>
      let k := 8 * region + s.rd Reg.DBG_ADDR_CLUSTER
      let n := 2 * s.rd Reg.DBG_ADDR_OFFSET
      ∀ c i, Tbl.get 0 (t.clu c).vregs i = if c = k ∧ i = n then lo.toNat else if c = k ∧ i = n + 1 then hi.toNat else Tbl.get 0 (s.clu c).vregs i) ∧
    Yields (.dbgInj target two addr) s (Wrote [(Reg.DBG_INJ_ADDR_LO, addr.toNat % 2 ^ 32), (Reg.DBG_INJ_ADDR_HI, addr.toNat / 2 ^ 32),
      (Reg.DBG_INJ_TARGET, target.toNat), (Reg.DBG_INJ_BITS, b2n two), (Reg.DBG_INJ_ARM, 1)] s))

/-- Region self-test: a request starts the test of an idle region, waits for one in use, changes nothing for one under test, and is
refused where FULL meets an assigned region; the test clears what its content clears; an abort ends it as ABORTED; the end of a test
records the result and frees the region. -/
def Obligations.RegionSelfTests : Prop :=
  ∀ (s : State) (r : RegionId), s.awake = true →
    let run := (s.rd Reg.HLT_STEST_STAT_RUN).testBit r.val
    let pend := (s.rd Reg.HLT_STEST_STAT_PEND).testBit r.val
    let waits := (s.seq r.val).launch ≠ none ∨ s.rd (Reg.SP_ZERO_STAT_BUSY r.val) = 1 ∨ s.rd (Reg.TEN_REGION_PEND r.val) = 1
    let runs := fun t : State => (t.rd Reg.HLT_STEST_STAT_RUN).testBit r.val
    let pends := fun t : State => (t.rd Reg.HLT_STEST_STAT_PEND).testBit r.val
    (s.rd (Reg.TEN_REGION_OWNER r.val) ≠ 0xFF → Yields (.stestFull r) s (Wrote [(Reg.HLT_STEST_ERR_ASSIGNED, 1)] s)) ∧
    (run = true ∨ pend = true → exec (.stestLogic r) s = .next s ∧ (s.rd (Reg.TEN_REGION_OWNER r.val) = 0xFF → exec (.stestFull r) s = .next s)) ∧
    (run = false → pend = false →
      (s.rd (Reg.TEN_REGION_OWNER r.val) = 0xFF → waits → Yields (.stestFull r) s fun t => pends t = true ∧ runs t = false ∧ t.rd (In.testMode r.val) = 1) ∧
      (s.rd (Reg.TEN_REGION_OWNER r.val) = 0xFF → ¬ waits → Yields (.stestFull r) s fun t => pends t = false ∧ runs t = true ∧ t.rd (In.testMode r.val) = 1) ∧
      (waits → Yields (.stestLogic r) s fun t => pends t = true ∧ runs t = false ∧ t.rd (In.testMode r.val) = 0) ∧
      (¬ waits → Yields (.stestLogic r) s fun t => pends t = false ∧ runs t = true ∧ t.rd (In.testMode r.val) = 0) ∧
      exec (.stestAbort r) s = .next s) ∧
    (pend = true → ¬ waits → Yields (.stestDeferredStart r) s fun t => pends t = false ∧ runs t = true) ∧
    (pend = false ∨ waits → exec (.stestDeferredStart r) s = .next s) ∧
    (run = true ∨ pend = true → Yields (.stestAbort r) s fun t => pends t = false ∧ runs t = false ∧ t.rd (Reg.HLT_STEST_RES_RESULT r.val) = 3) ∧
    (run = false → exec (.regionSelfTest r) s = .next s) ∧
    (run = true → Yields (.regionSelfTest r) s fun t =>
      (∀ c < 8, (t.clu (8 * r.val + c)).mus = [] ∧ (t.clu (8 * r.val + c)).vregs = []) ∧ (t.seq r.val).kern = [] ∧ if s.rd (In.testMode r.val) = 1 then
        ∀ a, spBase + 8 * r.val * spWin ≤ a → a < spBase + 8 * (r.val + 1) * spWin → t.memGet a = 0 else t.mem = s.mem) ∧
    ∀ (unit : Fin 7) (cl : Fin 8) (rows : List (Fin 8 × Fin 64 × Fin 8192)) (periods : BitVec 48),
      (run = false → exec (.selfTestDone r unit cl rows periods) s = .next s) ∧
      (run = true → s.rd (In.testMode r.val) = 0 → Yields (.selfTestDone r unit cl rows periods) s fun t => runs t = false ∧
        t.rd (Reg.HLT_STEST_RES_RESULT r.val) = (if unit.val = 0 then 1 else 2) ∧ t.rd (Reg.HLT_STEST_RES_UNIT r.val) = unit.val ∧
        t.rd (Reg.HLT_STEST_RES_CLUSTER r.val) = (if unit.val = 0 then 0 else cl.val) ∧
        t.rd (In.testBad r.val) = if unit.val = 0 then s.rd (In.testBad r.val) else 1) ∧
      (run = true → s.rd (In.testMode r.val) = 1 → Yields (.selfTestDone r unit cl rows periods) s fun t => runs t = false ∧
        (unit.val ≠ 0 → t.rd (Reg.HLT_STEST_RES_RESULT r.val) = 2 ∧ t.rd (Reg.HLT_STEST_RES_UNIT r.val) = unit.val ∧
          t.rd (Reg.HLT_STEST_RES_CLUSTER r.val) = cl.val ∧ t.rd (In.testBad r.val) = 1) ∧
        (unit.val = 0 → t.rd (Reg.HLT_STEST_RES_RESULT r.val) = 1 ∧ t.rd (In.testBad r.val) = 0 ∨
          t.rd (Reg.HLT_STEST_RES_RESULT r.val) = 2 ∧ t.rd (Reg.HLT_STEST_RES_UNIT r.val) = 1 ∧ t.rd (In.testBad r.val) = 1) ∧
        ∀ a, spBase + 8 * r.val * spWin ≤ a → a < spBase + 8 * (r.val + 1) * spWin → t.memGet a = 0) ∧
      (run = true → s.rd (In.testMode r.val) = 1 → rows = [] → Yields (.selfTestDone r unit cl rows periods) s fun t => runs t = false ∧
        t.rd (Reg.HLT_STEST_RES_RESULT r.val) = (if unit.val = 0 then 1 else 2) ∧ t.rd (Reg.HLT_STEST_RES_ROWS r.val) = 0 ∧
        t.rd (In.testBad r.val) = if unit.val = 0 then 0 else 1)
end

