-- ==== Sys2Proof/Laws/Tbl.lean ====
section
/-!
SUPPORT. Sparse tables: what a key reads as after each operation, and that every operation keeps the canonical form.
-/

namespace Sys2Proof.Machine.Tbl

variable {α : Type}

@[simp] theorem get_nil (d : α) (k : Nat) : get d [] k = d := rfl

@[simp] theorem get_cons (d : α) (p : Nat × α) (t : Tbl α) (k : Nat) :
    get d (p :: t) k = if p.1 = k then p.2 else get d t k := by cases p; rfl

theorem get_put_self (d : α) (t : Tbl α) (k : Nat) (v : α) : get d (put t k v) k = v := by
  induction t with
  | nil => simp [put]
  | cons p t ih =>
    obtain ⟨j, x⟩ := p
    simp only [put]
    split
    · simp
    · split
      · simp
      · simp only [get_cons]
        rw [if_neg (by omega), ih]

theorem get_put_ne (d : α) (t : Tbl α) {k j : Nat} (v : α) (h : j ≠ k) : get d (put t k v) j = get d t j := by
  induction t with
  | nil => simp [put, Ne.symm h]
  | cons p t ih =>
    obtain ⟨i, x⟩ := p
    simp only [put]
    split
    · simp [Ne.symm h]
    · split
      · next h2 => subst h2; simp [Ne.symm h]
      · simp only [get_cons, ih]

theorem get_filter (d : α) (t : Tbl α) (p : Nat → Bool) (k : Nat) :
    get d (t.filter fun q => p q.1) k = if p k then get d t k else d := by
  induction t with
  | nil => simp
  | cons q t ih =>
    simp only [List.filter_cons]
    by_cases hq : p q.1 = true
    · by_cases hk : q.1 = k
      · subst hk; simp [hq]
      · simp [hq, hk, ih]
    · by_cases hk : q.1 = k
      · subst hk; simp_all
      · simp [hq, hk, ih]

theorem get_del_self (d : α) (t : Tbl α) (k : Nat) : get d (del t k) k = d := by
  simp [del, get_filter d t fun j => j != k]

theorem get_del_ne (d : α) (t : Tbl α) {k j : Nat} (h : j ≠ k) : get d (del t k) j = get d t j := by
  simp [del, get_filter d t fun j => j != k, h]

/-- A key reads as it was written. -/
@[simp] theorem get_set_self [DecidableEq α] (d : α) (t : Tbl α) (k : Nat) (v : α) : get d (set d t k v) k = v := by
  unfold set
  split
  · next hv => rw [hv, get_del_self]
  · exact get_put_self d t k v

/-- Every other key reads as before, whatever the default. -/
theorem get_set_ne [DecidableEq α] (d e : α) (t : Tbl α) {k j : Nat} (v : α) (hj : j ≠ k) :
    get e (set d t k v) j = get e t j := by
  unfold set
  split
  · exact get_del_ne e t hj
  · exact get_put_ne e t v hj

theorem get_set [DecidableEq α] (d : α) (t : Tbl α) (k j : Nat) (v : α) :
    get d (set d t k v) j = if j = k then v else get d t j := by
  split
  · next h => rw [h, get_set_self]
  · next h => exact get_set_ne d d t v h

/-! ### The canonical form -/

theorem wfFrom_le {bad : Nat → α → Bool} {t : Tbl α} {a b : Nat} (hab : a ≤ b) (h : wfFrom bad b t = true) :
    wfFrom bad a t = true := by
  cases t with
  | nil => rfl
  | cons p t =>
    obtain ⟨j, x⟩ := p
    simp only [wfFrom, Bool.and_eq_true, decide_eq_true_eq] at h ⊢
    exact ⟨⟨by omega, h.1.2⟩, h.2⟩

theorem wfFrom_put {bad : Nat → α → Bool} {t : Tbl α} {lo k : Nat} {v : α} (h : wfFrom bad lo t = true) (hk : lo ≤ k)
    (hv : bad k v = false) : wfFrom bad lo (put t k v) = true := by
  induction t generalizing lo with
  | nil => simp [put, wfFrom, hk, hv]
  | cons p t ih =>
    obtain ⟨i, x⟩ := p
    simp only [wfFrom, Bool.and_eq_true, decide_eq_true_eq] at h
    simp only [put]
    split
    · next hki =>
      simp only [wfFrom, Bool.and_eq_true, decide_eq_true_eq]
      exact ⟨⟨hk, by simp [hv]⟩, ⟨⟨by omega, h.1.2⟩, h.2⟩⟩
    · split
      · next h1 h2 =>
        subst h2
        simp only [wfFrom, Bool.and_eq_true, decide_eq_true_eq]
        exact ⟨⟨hk, by simp [hv]⟩, h.2⟩
      · simp only [wfFrom, Bool.and_eq_true, decide_eq_true_eq]
        exact ⟨h.1, ih h.2 (by omega)⟩

theorem wfFrom_filter {bad : Nat → α → Bool} {t : Tbl α} {lo : Nat} (p : Nat × α → Bool) (h : wfFrom bad lo t = true) :
    wfFrom bad lo (t.filter p) = true := by
  induction t generalizing lo with
  | nil => rfl
  | cons q t ih =>
    obtain ⟨i, x⟩ := q
    simp only [wfFrom, Bool.and_eq_true, decide_eq_true_eq] at h
    simp only [List.filter]
    split
    · simp only [wfFrom, Bool.and_eq_true, decide_eq_true_eq]
      exact ⟨h.1, ih h.2⟩
    · exact wfFrom_le (by omega) (ih h.2)

theorem wf_nil [DecidableEq α] (d : α) : wf d [] = true := rfl

theorem wf_filter [DecidableEq α] {d : α} {t : Tbl α} (h : wf d t = true) (p : Nat × α → Bool) :
    wf d (t.filter p) = true := wfFrom_filter p h

/-- Writing a key keeps the canonical form. -/
theorem wf_set [DecidableEq α] {d : α} {t : Tbl α} (h : wf d t = true) (k : Nat) (v : α) : wf d (set d t k v) = true := by
  unfold set
  split
  · exact wf_filter h _
  · next hv => exact wfFrom_put h (Nat.zero_le _) (by simp [hv])

/-- Removing a range keeps the canonical form. -/
theorem wf_cut [DecidableEq α] {d : α} {t : Tbl α} (h : wf d t = true) (lo hi : Nat) : wf d (cut t lo hi) = true :=
  wf_filter h _

theorem wf_foldl_set [DecidableEq α] {β : Type} {d : α} (l : List β) (key : β → Nat) (val : β → α) :
    ∀ {t : Tbl α}, wf d t = true → wf d (l.foldl (fun u p => set d u (key p) (val p)) t) = true := by
  induction l with
  | nil => intro t h; exact h
  | cons a l ih => intro t h; exact ih (wf_set h _ _)

/-- Copying a range keeps the canonical form. -/
theorem wf_copy [DecidableEq α] {d : α} {t : Tbl α} (h : wf d t = true) (src dst n : Nat) :
    wf d (copy d t src dst n) = true :=
  wf_foldl_set (between t src (src + n)) (fun p : Nat × α => p.1 - src + dst) (fun p : Nat × α => p.2) (wf_cut h _ _)

end Sys2Proof.Machine.Tbl
end

