-- ==== Sys2Proof/Laws/State.lean ====
section
/-!
SUPPORT. The updates of one field of the state: what every other field reads as after each, and what the named reads answer.
-/

namespace Sys2Proof.Machine.State

variable (s : State)

/-! ### Every update leaves the other fields alone -/

@[simp] theorem wr_pending (f : Fld) (v : Nat) : (s.wr f v).pending = s.pending := rfl
@[simp] theorem wr_mem (f : Fld) (v : Nat) : (s.wr f v).mem = s.mem := rfl
@[simp] theorem wr_clus (f : Fld) (v : Nat) : (s.wr f v).clus = s.clus := rfl
@[simp] theorem wr_seqs (f : Fld) (v : Nat) : (s.wr f v).seqs = s.seqs := rfl
@[simp] theorem wr_launches (f : Fld) (v : Nat) : (s.wr f v).launches = s.launches := rfl
@[simp] theorem wr_remotes (f : Fld) (v : Nat) : (s.wr f v).remotes = s.remotes := rfl
@[simp] theorem wr_events (f : Fld) (v : Nat) : (s.wr f v).events = s.events := rfl
@[simp] theorem wr_dmaq (f : Fld) (v : Nat) : (s.wr f v).dmaq = s.dmaq := rfl
@[simp] theorem wr_stashq (f : Fld) (v : Nat) : (s.wr f v).stashq = s.stashq := rfl
@[simp] theorem wr_spErr (f : Fld) (v : Nat) : (s.wr f v).spErr = s.spErr := rfl
@[simp] theorem wr_spPoison (f : Fld) (v : Nat) : (s.wr f v).spPoison = s.spPoison := rfl
@[simp] theorem wr_cache (f : Fld) (v : Nat) : (s.wr f v).cache = s.cache := rfl
@[simp] theorem wr_hbmErr (f : Fld) (v : Nat) : (s.wr f v).hbmErr = s.hbmErr := rfl
@[simp] theorem wr_lineErr (f : Fld) (v : Nat) : (s.wr f v).lineErr = s.lineErr := rfl
@[simp] theorem wr_poison (f : Fld) (v : Nat) : (s.wr f v).poison = s.poison := rfl
@[simp] theorem wr_copyq (f : Fld) (v : Nat) : (s.wr f v).copyq = s.copyq := rfl
@[simp] theorem wr_heldw (f : Fld) (v : Nat) : (s.wr f v).heldw = s.heldw := rfl
@[simp] theorem wr_staged (f : Fld) (v : Nat) : (s.wr f v).staged = s.staged := rfl
@[simp] theorem wr_csErr (f : Fld) (v : Nat) : (s.wr f v).csErr = s.csErr := rfl
@[simp] theorem wr_protH (f : Fld) (v : Nat) : (s.wr f v).protH = s.protH := rfl
@[simp] theorem wr_pendRecs (f : Fld) (v : Nat) : (s.wr f v).pendRecs = s.pendRecs := rfl
@[simp] theorem wr_arbs (f : Fld) (v : Nat) : (s.wr f v).arbs = s.arbs := rfl
@[simp] theorem wr_links (f : Fld) (v : Nat) : (s.wr f v).links = s.links := rfl
@[simp] theorem wr_flows (f : Fld) (v : Nat) : (s.wr f v).flows = s.flows := rfl
@[simp] theorem wr_cols (f : Fld) (v : Nat) : (s.wr f v).cols = s.cols := rfl
@[simp] theorem wr_colQueue (f : Fld) (v : Nat) : (s.wr f v).colQueue = s.colQueue := rfl
@[simp] theorem wr_readys (f : Fld) (v : Nat) : (s.wr f v).readys = s.readys := rfl
@[simp] theorem wr_colOut (f : Fld) (v : Nat) : (s.wr f v).colOut = s.colOut := rfl
@[simp] theorem wr_signq (f : Fld) (v : Nat) : (s.wr f v).signq = s.signq := rfl
@[simp] theorem wr_meterq (f : Fld) (v : Nat) : (s.wr f v).meterq = s.meterq := rfl
@[simp] theorem wr_snaps (f : Fld) (v : Nat) : (s.wr f v).snaps = s.snaps := rfl
@[simp] theorem wr_buckets (f : Fld) (v : Nat) : (s.wr f v).buckets = s.buckets := rfl
@[simp] theorem wr_aliased (f : Fld) (v : Nat) : (s.wr f v).aliased = s.aliased := rfl
@[simp] theorem wr_wid (f : Fld) (v : Nat) : (s.wr f v).wid = s.wid := rfl
@[simp] theorem wr_free (f : Fld) (v : Nat) : (s.wr f v).free = s.free := rfl

@[simp] theorem memSet_pending (k v : Nat) : (s.memSet k v).pending = s.pending := rfl
@[simp] theorem memSet_regs (k v : Nat) : (s.memSet k v).regs = s.regs := rfl
@[simp] theorem memSet_clus (k v : Nat) : (s.memSet k v).clus = s.clus := rfl
@[simp] theorem memSet_seqs (k v : Nat) : (s.memSet k v).seqs = s.seqs := rfl
@[simp] theorem memSet_launches (k v : Nat) : (s.memSet k v).launches = s.launches := rfl
@[simp] theorem memSet_remotes (k v : Nat) : (s.memSet k v).remotes = s.remotes := rfl
@[simp] theorem memSet_events (k v : Nat) : (s.memSet k v).events = s.events := rfl
@[simp] theorem memSet_dmaq (k v : Nat) : (s.memSet k v).dmaq = s.dmaq := rfl
@[simp] theorem memSet_stashq (k v : Nat) : (s.memSet k v).stashq = s.stashq := rfl
@[simp] theorem memSet_spErr (k v : Nat) : (s.memSet k v).spErr = s.spErr := rfl
@[simp] theorem memSet_spPoison (k v : Nat) : (s.memSet k v).spPoison = s.spPoison := rfl
@[simp] theorem memSet_cache (k v : Nat) : (s.memSet k v).cache = s.cache := rfl
@[simp] theorem memSet_hbmErr (k v : Nat) : (s.memSet k v).hbmErr = s.hbmErr := rfl
@[simp] theorem memSet_lineErr (k v : Nat) : (s.memSet k v).lineErr = s.lineErr := rfl
@[simp] theorem memSet_poison (k v : Nat) : (s.memSet k v).poison = s.poison := rfl
@[simp] theorem memSet_copyq (k v : Nat) : (s.memSet k v).copyq = s.copyq := rfl
@[simp] theorem memSet_heldw (k v : Nat) : (s.memSet k v).heldw = s.heldw := rfl
@[simp] theorem memSet_staged (k v : Nat) : (s.memSet k v).staged = s.staged := rfl
@[simp] theorem memSet_csErr (k v : Nat) : (s.memSet k v).csErr = s.csErr := rfl
@[simp] theorem memSet_protH (k v : Nat) : (s.memSet k v).protH = s.protH := rfl
@[simp] theorem memSet_pendRecs (k v : Nat) : (s.memSet k v).pendRecs = s.pendRecs := rfl
@[simp] theorem memSet_arbs (k v : Nat) : (s.memSet k v).arbs = s.arbs := rfl
@[simp] theorem memSet_links (k v : Nat) : (s.memSet k v).links = s.links := rfl
@[simp] theorem memSet_flows (k v : Nat) : (s.memSet k v).flows = s.flows := rfl
@[simp] theorem memSet_cols (k v : Nat) : (s.memSet k v).cols = s.cols := rfl
@[simp] theorem memSet_colQueue (k v : Nat) : (s.memSet k v).colQueue = s.colQueue := rfl
@[simp] theorem memSet_readys (k v : Nat) : (s.memSet k v).readys = s.readys := rfl
@[simp] theorem memSet_colOut (k v : Nat) : (s.memSet k v).colOut = s.colOut := rfl
@[simp] theorem memSet_signq (k v : Nat) : (s.memSet k v).signq = s.signq := rfl
@[simp] theorem memSet_meterq (k v : Nat) : (s.memSet k v).meterq = s.meterq := rfl
@[simp] theorem memSet_snaps (k v : Nat) : (s.memSet k v).snaps = s.snaps := rfl
@[simp] theorem memSet_buckets (k v : Nat) : (s.memSet k v).buckets = s.buckets := rfl
@[simp] theorem memSet_aliased (k v : Nat) : (s.memSet k v).aliased = s.aliased := rfl
@[simp] theorem memSet_wid (k v : Nat) : (s.memSet k v).wid = s.wid := rfl
@[simp] theorem memSet_free (k v : Nat) : (s.memSet k v).free = s.free := rfl

@[simp] theorem setClu_pending (c : Nat) (x : Clu) : (s.setClu c x).pending = s.pending := rfl
@[simp] theorem setClu_regs (c : Nat) (x : Clu) : (s.setClu c x).regs = s.regs := rfl
@[simp] theorem setClu_mem (c : Nat) (x : Clu) : (s.setClu c x).mem = s.mem := rfl
@[simp] theorem setClu_seqs (c : Nat) (x : Clu) : (s.setClu c x).seqs = s.seqs := rfl
@[simp] theorem setClu_launches (c : Nat) (x : Clu) : (s.setClu c x).launches = s.launches := rfl
@[simp] theorem setClu_remotes (c : Nat) (x : Clu) : (s.setClu c x).remotes = s.remotes := rfl
@[simp] theorem setClu_events (c : Nat) (x : Clu) : (s.setClu c x).events = s.events := rfl
@[simp] theorem setClu_dmaq (c : Nat) (x : Clu) : (s.setClu c x).dmaq = s.dmaq := rfl
@[simp] theorem setClu_stashq (c : Nat) (x : Clu) : (s.setClu c x).stashq = s.stashq := rfl
@[simp] theorem setClu_spErr (c : Nat) (x : Clu) : (s.setClu c x).spErr = s.spErr := rfl
@[simp] theorem setClu_spPoison (c : Nat) (x : Clu) : (s.setClu c x).spPoison = s.spPoison := rfl
@[simp] theorem setClu_cache (c : Nat) (x : Clu) : (s.setClu c x).cache = s.cache := rfl
@[simp] theorem setClu_hbmErr (c : Nat) (x : Clu) : (s.setClu c x).hbmErr = s.hbmErr := rfl
@[simp] theorem setClu_lineErr (c : Nat) (x : Clu) : (s.setClu c x).lineErr = s.lineErr := rfl
@[simp] theorem setClu_poison (c : Nat) (x : Clu) : (s.setClu c x).poison = s.poison := rfl
@[simp] theorem setClu_copyq (c : Nat) (x : Clu) : (s.setClu c x).copyq = s.copyq := rfl
@[simp] theorem setClu_heldw (c : Nat) (x : Clu) : (s.setClu c x).heldw = s.heldw := rfl
@[simp] theorem setClu_staged (c : Nat) (x : Clu) : (s.setClu c x).staged = s.staged := rfl
@[simp] theorem setClu_csErr (c : Nat) (x : Clu) : (s.setClu c x).csErr = s.csErr := rfl
@[simp] theorem setClu_protH (c : Nat) (x : Clu) : (s.setClu c x).protH = s.protH := rfl
@[simp] theorem setClu_pendRecs (c : Nat) (x : Clu) : (s.setClu c x).pendRecs = s.pendRecs := rfl
@[simp] theorem setClu_arbs (c : Nat) (x : Clu) : (s.setClu c x).arbs = s.arbs := rfl
@[simp] theorem setClu_links (c : Nat) (x : Clu) : (s.setClu c x).links = s.links := rfl
@[simp] theorem setClu_flows (c : Nat) (x : Clu) : (s.setClu c x).flows = s.flows := rfl
@[simp] theorem setClu_cols (c : Nat) (x : Clu) : (s.setClu c x).cols = s.cols := rfl
@[simp] theorem setClu_colQueue (c : Nat) (x : Clu) : (s.setClu c x).colQueue = s.colQueue := rfl
@[simp] theorem setClu_readys (c : Nat) (x : Clu) : (s.setClu c x).readys = s.readys := rfl
@[simp] theorem setClu_colOut (c : Nat) (x : Clu) : (s.setClu c x).colOut = s.colOut := rfl
@[simp] theorem setClu_signq (c : Nat) (x : Clu) : (s.setClu c x).signq = s.signq := rfl
@[simp] theorem setClu_meterq (c : Nat) (x : Clu) : (s.setClu c x).meterq = s.meterq := rfl
@[simp] theorem setClu_snaps (c : Nat) (x : Clu) : (s.setClu c x).snaps = s.snaps := rfl
@[simp] theorem setClu_buckets (c : Nat) (x : Clu) : (s.setClu c x).buckets = s.buckets := rfl
@[simp] theorem setClu_aliased (c : Nat) (x : Clu) : (s.setClu c x).aliased = s.aliased := rfl
@[simp] theorem setClu_wid (c : Nat) (x : Clu) : (s.setClu c x).wid = s.wid := rfl
@[simp] theorem setClu_free (c : Nat) (x : Clu) : (s.setClu c x).free = s.free := rfl

@[simp] theorem setSeq_pending (r : Nat) (x : Seq) : (s.setSeq r x).pending = s.pending := rfl
@[simp] theorem setSeq_regs (r : Nat) (x : Seq) : (s.setSeq r x).regs = s.regs := rfl
@[simp] theorem setSeq_mem (r : Nat) (x : Seq) : (s.setSeq r x).mem = s.mem := rfl
@[simp] theorem setSeq_clus (r : Nat) (x : Seq) : (s.setSeq r x).clus = s.clus := rfl
@[simp] theorem setSeq_launches (r : Nat) (x : Seq) : (s.setSeq r x).launches = s.launches := rfl
@[simp] theorem setSeq_remotes (r : Nat) (x : Seq) : (s.setSeq r x).remotes = s.remotes := rfl
@[simp] theorem setSeq_events (r : Nat) (x : Seq) : (s.setSeq r x).events = s.events := rfl
@[simp] theorem setSeq_dmaq (r : Nat) (x : Seq) : (s.setSeq r x).dmaq = s.dmaq := rfl
@[simp] theorem setSeq_stashq (r : Nat) (x : Seq) : (s.setSeq r x).stashq = s.stashq := rfl
@[simp] theorem setSeq_spErr (r : Nat) (x : Seq) : (s.setSeq r x).spErr = s.spErr := rfl
@[simp] theorem setSeq_spPoison (r : Nat) (x : Seq) : (s.setSeq r x).spPoison = s.spPoison := rfl
@[simp] theorem setSeq_cache (r : Nat) (x : Seq) : (s.setSeq r x).cache = s.cache := rfl
@[simp] theorem setSeq_hbmErr (r : Nat) (x : Seq) : (s.setSeq r x).hbmErr = s.hbmErr := rfl
@[simp] theorem setSeq_lineErr (r : Nat) (x : Seq) : (s.setSeq r x).lineErr = s.lineErr := rfl
@[simp] theorem setSeq_poison (r : Nat) (x : Seq) : (s.setSeq r x).poison = s.poison := rfl
@[simp] theorem setSeq_copyq (r : Nat) (x : Seq) : (s.setSeq r x).copyq = s.copyq := rfl
@[simp] theorem setSeq_heldw (r : Nat) (x : Seq) : (s.setSeq r x).heldw = s.heldw := rfl
@[simp] theorem setSeq_staged (r : Nat) (x : Seq) : (s.setSeq r x).staged = s.staged := rfl
@[simp] theorem setSeq_csErr (r : Nat) (x : Seq) : (s.setSeq r x).csErr = s.csErr := rfl
@[simp] theorem setSeq_protH (r : Nat) (x : Seq) : (s.setSeq r x).protH = s.protH := rfl
@[simp] theorem setSeq_pendRecs (r : Nat) (x : Seq) : (s.setSeq r x).pendRecs = s.pendRecs := rfl
@[simp] theorem setSeq_arbs (r : Nat) (x : Seq) : (s.setSeq r x).arbs = s.arbs := rfl
@[simp] theorem setSeq_links (r : Nat) (x : Seq) : (s.setSeq r x).links = s.links := rfl
@[simp] theorem setSeq_flows (r : Nat) (x : Seq) : (s.setSeq r x).flows = s.flows := rfl
@[simp] theorem setSeq_cols (r : Nat) (x : Seq) : (s.setSeq r x).cols = s.cols := rfl
@[simp] theorem setSeq_colQueue (r : Nat) (x : Seq) : (s.setSeq r x).colQueue = s.colQueue := rfl
@[simp] theorem setSeq_readys (r : Nat) (x : Seq) : (s.setSeq r x).readys = s.readys := rfl
@[simp] theorem setSeq_colOut (r : Nat) (x : Seq) : (s.setSeq r x).colOut = s.colOut := rfl
@[simp] theorem setSeq_signq (r : Nat) (x : Seq) : (s.setSeq r x).signq = s.signq := rfl
@[simp] theorem setSeq_meterq (r : Nat) (x : Seq) : (s.setSeq r x).meterq = s.meterq := rfl
@[simp] theorem setSeq_snaps (r : Nat) (x : Seq) : (s.setSeq r x).snaps = s.snaps := rfl
@[simp] theorem setSeq_buckets (r : Nat) (x : Seq) : (s.setSeq r x).buckets = s.buckets := rfl
@[simp] theorem setSeq_aliased (r : Nat) (x : Seq) : (s.setSeq r x).aliased = s.aliased := rfl
@[simp] theorem setSeq_wid (r : Nat) (x : Seq) : (s.setSeq r x).wid = s.wid := rfl
@[simp] theorem setSeq_free (r : Nat) (x : Seq) : (s.setSeq r x).free = s.free := rfl

@[simp] theorem setLaunch_pending (n : Nat) (x : Launch) : (s.setLaunch n x).pending = s.pending := rfl
@[simp] theorem setLaunch_regs (n : Nat) (x : Launch) : (s.setLaunch n x).regs = s.regs := rfl
@[simp] theorem setLaunch_mem (n : Nat) (x : Launch) : (s.setLaunch n x).mem = s.mem := rfl
@[simp] theorem setLaunch_clus (n : Nat) (x : Launch) : (s.setLaunch n x).clus = s.clus := rfl
@[simp] theorem setLaunch_seqs (n : Nat) (x : Launch) : (s.setLaunch n x).seqs = s.seqs := rfl
@[simp] theorem setLaunch_remotes (n : Nat) (x : Launch) : (s.setLaunch n x).remotes = s.remotes := rfl
@[simp] theorem setLaunch_events (n : Nat) (x : Launch) : (s.setLaunch n x).events = s.events := rfl
@[simp] theorem setLaunch_dmaq (n : Nat) (x : Launch) : (s.setLaunch n x).dmaq = s.dmaq := rfl
@[simp] theorem setLaunch_stashq (n : Nat) (x : Launch) : (s.setLaunch n x).stashq = s.stashq := rfl
@[simp] theorem setLaunch_spErr (n : Nat) (x : Launch) : (s.setLaunch n x).spErr = s.spErr := rfl
@[simp] theorem setLaunch_spPoison (n : Nat) (x : Launch) : (s.setLaunch n x).spPoison = s.spPoison := rfl
@[simp] theorem setLaunch_cache (n : Nat) (x : Launch) : (s.setLaunch n x).cache = s.cache := rfl
@[simp] theorem setLaunch_hbmErr (n : Nat) (x : Launch) : (s.setLaunch n x).hbmErr = s.hbmErr := rfl
@[simp] theorem setLaunch_lineErr (n : Nat) (x : Launch) : (s.setLaunch n x).lineErr = s.lineErr := rfl
@[simp] theorem setLaunch_poison (n : Nat) (x : Launch) : (s.setLaunch n x).poison = s.poison := rfl
@[simp] theorem setLaunch_copyq (n : Nat) (x : Launch) : (s.setLaunch n x).copyq = s.copyq := rfl
@[simp] theorem setLaunch_heldw (n : Nat) (x : Launch) : (s.setLaunch n x).heldw = s.heldw := rfl
@[simp] theorem setLaunch_staged (n : Nat) (x : Launch) : (s.setLaunch n x).staged = s.staged := rfl
@[simp] theorem setLaunch_csErr (n : Nat) (x : Launch) : (s.setLaunch n x).csErr = s.csErr := rfl
@[simp] theorem setLaunch_protH (n : Nat) (x : Launch) : (s.setLaunch n x).protH = s.protH := rfl
@[simp] theorem setLaunch_pendRecs (n : Nat) (x : Launch) : (s.setLaunch n x).pendRecs = s.pendRecs := rfl
@[simp] theorem setLaunch_arbs (n : Nat) (x : Launch) : (s.setLaunch n x).arbs = s.arbs := rfl
@[simp] theorem setLaunch_links (n : Nat) (x : Launch) : (s.setLaunch n x).links = s.links := rfl
@[simp] theorem setLaunch_flows (n : Nat) (x : Launch) : (s.setLaunch n x).flows = s.flows := rfl
@[simp] theorem setLaunch_cols (n : Nat) (x : Launch) : (s.setLaunch n x).cols = s.cols := rfl
@[simp] theorem setLaunch_colQueue (n : Nat) (x : Launch) : (s.setLaunch n x).colQueue = s.colQueue := rfl
@[simp] theorem setLaunch_readys (n : Nat) (x : Launch) : (s.setLaunch n x).readys = s.readys := rfl
@[simp] theorem setLaunch_colOut (n : Nat) (x : Launch) : (s.setLaunch n x).colOut = s.colOut := rfl
@[simp] theorem setLaunch_signq (n : Nat) (x : Launch) : (s.setLaunch n x).signq = s.signq := rfl
@[simp] theorem setLaunch_meterq (n : Nat) (x : Launch) : (s.setLaunch n x).meterq = s.meterq := rfl
@[simp] theorem setLaunch_snaps (n : Nat) (x : Launch) : (s.setLaunch n x).snaps = s.snaps := rfl
@[simp] theorem setLaunch_buckets (n : Nat) (x : Launch) : (s.setLaunch n x).buckets = s.buckets := rfl
@[simp] theorem setLaunch_aliased (n : Nat) (x : Launch) : (s.setLaunch n x).aliased = s.aliased := rfl
@[simp] theorem setLaunch_wid (n : Nat) (x : Launch) : (s.setLaunch n x).wid = s.wid := rfl
@[simp] theorem setLaunch_free (n : Nat) (x : Launch) : (s.setLaunch n x).free = s.free := rfl

@[simp] theorem setLink_pending (p : Nat) (x : Link) : (s.setLink p x).pending = s.pending := rfl
@[simp] theorem setLink_regs (p : Nat) (x : Link) : (s.setLink p x).regs = s.regs := rfl
@[simp] theorem setLink_mem (p : Nat) (x : Link) : (s.setLink p x).mem = s.mem := rfl
@[simp] theorem setLink_clus (p : Nat) (x : Link) : (s.setLink p x).clus = s.clus := rfl
@[simp] theorem setLink_seqs (p : Nat) (x : Link) : (s.setLink p x).seqs = s.seqs := rfl
@[simp] theorem setLink_launches (p : Nat) (x : Link) : (s.setLink p x).launches = s.launches := rfl
@[simp] theorem setLink_remotes (p : Nat) (x : Link) : (s.setLink p x).remotes = s.remotes := rfl
@[simp] theorem setLink_events (p : Nat) (x : Link) : (s.setLink p x).events = s.events := rfl
@[simp] theorem setLink_dmaq (p : Nat) (x : Link) : (s.setLink p x).dmaq = s.dmaq := rfl
@[simp] theorem setLink_stashq (p : Nat) (x : Link) : (s.setLink p x).stashq = s.stashq := rfl
@[simp] theorem setLink_spErr (p : Nat) (x : Link) : (s.setLink p x).spErr = s.spErr := rfl
@[simp] theorem setLink_spPoison (p : Nat) (x : Link) : (s.setLink p x).spPoison = s.spPoison := rfl
@[simp] theorem setLink_cache (p : Nat) (x : Link) : (s.setLink p x).cache = s.cache := rfl
@[simp] theorem setLink_hbmErr (p : Nat) (x : Link) : (s.setLink p x).hbmErr = s.hbmErr := rfl
@[simp] theorem setLink_lineErr (p : Nat) (x : Link) : (s.setLink p x).lineErr = s.lineErr := rfl
@[simp] theorem setLink_poison (p : Nat) (x : Link) : (s.setLink p x).poison = s.poison := rfl
@[simp] theorem setLink_copyq (p : Nat) (x : Link) : (s.setLink p x).copyq = s.copyq := rfl
@[simp] theorem setLink_heldw (p : Nat) (x : Link) : (s.setLink p x).heldw = s.heldw := rfl
@[simp] theorem setLink_staged (p : Nat) (x : Link) : (s.setLink p x).staged = s.staged := rfl
@[simp] theorem setLink_csErr (p : Nat) (x : Link) : (s.setLink p x).csErr = s.csErr := rfl
@[simp] theorem setLink_protH (p : Nat) (x : Link) : (s.setLink p x).protH = s.protH := rfl
@[simp] theorem setLink_pendRecs (p : Nat) (x : Link) : (s.setLink p x).pendRecs = s.pendRecs := rfl
@[simp] theorem setLink_arbs (p : Nat) (x : Link) : (s.setLink p x).arbs = s.arbs := rfl
@[simp] theorem setLink_flows (p : Nat) (x : Link) : (s.setLink p x).flows = s.flows := rfl
@[simp] theorem setLink_cols (p : Nat) (x : Link) : (s.setLink p x).cols = s.cols := rfl
@[simp] theorem setLink_colQueue (p : Nat) (x : Link) : (s.setLink p x).colQueue = s.colQueue := rfl
@[simp] theorem setLink_readys (p : Nat) (x : Link) : (s.setLink p x).readys = s.readys := rfl
@[simp] theorem setLink_colOut (p : Nat) (x : Link) : (s.setLink p x).colOut = s.colOut := rfl
@[simp] theorem setLink_signq (p : Nat) (x : Link) : (s.setLink p x).signq = s.signq := rfl
@[simp] theorem setLink_meterq (p : Nat) (x : Link) : (s.setLink p x).meterq = s.meterq := rfl
@[simp] theorem setLink_snaps (p : Nat) (x : Link) : (s.setLink p x).snaps = s.snaps := rfl
@[simp] theorem setLink_buckets (p : Nat) (x : Link) : (s.setLink p x).buckets = s.buckets := rfl
@[simp] theorem setLink_aliased (p : Nat) (x : Link) : (s.setLink p x).aliased = s.aliased := rfl
@[simp] theorem setLink_wid (p : Nat) (x : Link) : (s.setLink p x).wid = s.wid := rfl
@[simp] theorem setLink_free (p : Nat) (x : Link) : (s.setLink p x).free = s.free := rfl

@[simp] theorem setFlow_pending (f : Nat) (x : Flow) : (s.setFlow f x).pending = s.pending := rfl
@[simp] theorem setFlow_regs (f : Nat) (x : Flow) : (s.setFlow f x).regs = s.regs := rfl
@[simp] theorem setFlow_mem (f : Nat) (x : Flow) : (s.setFlow f x).mem = s.mem := rfl
@[simp] theorem setFlow_clus (f : Nat) (x : Flow) : (s.setFlow f x).clus = s.clus := rfl
@[simp] theorem setFlow_seqs (f : Nat) (x : Flow) : (s.setFlow f x).seqs = s.seqs := rfl
@[simp] theorem setFlow_launches (f : Nat) (x : Flow) : (s.setFlow f x).launches = s.launches := rfl
@[simp] theorem setFlow_remotes (f : Nat) (x : Flow) : (s.setFlow f x).remotes = s.remotes := rfl
@[simp] theorem setFlow_events (f : Nat) (x : Flow) : (s.setFlow f x).events = s.events := rfl
@[simp] theorem setFlow_dmaq (f : Nat) (x : Flow) : (s.setFlow f x).dmaq = s.dmaq := rfl
@[simp] theorem setFlow_stashq (f : Nat) (x : Flow) : (s.setFlow f x).stashq = s.stashq := rfl
@[simp] theorem setFlow_spErr (f : Nat) (x : Flow) : (s.setFlow f x).spErr = s.spErr := rfl
@[simp] theorem setFlow_spPoison (f : Nat) (x : Flow) : (s.setFlow f x).spPoison = s.spPoison := rfl
@[simp] theorem setFlow_cache (f : Nat) (x : Flow) : (s.setFlow f x).cache = s.cache := rfl
@[simp] theorem setFlow_hbmErr (f : Nat) (x : Flow) : (s.setFlow f x).hbmErr = s.hbmErr := rfl
@[simp] theorem setFlow_lineErr (f : Nat) (x : Flow) : (s.setFlow f x).lineErr = s.lineErr := rfl
@[simp] theorem setFlow_poison (f : Nat) (x : Flow) : (s.setFlow f x).poison = s.poison := rfl
@[simp] theorem setFlow_copyq (f : Nat) (x : Flow) : (s.setFlow f x).copyq = s.copyq := rfl
@[simp] theorem setFlow_heldw (f : Nat) (x : Flow) : (s.setFlow f x).heldw = s.heldw := rfl
@[simp] theorem setFlow_staged (f : Nat) (x : Flow) : (s.setFlow f x).staged = s.staged := rfl
@[simp] theorem setFlow_csErr (f : Nat) (x : Flow) : (s.setFlow f x).csErr = s.csErr := rfl
@[simp] theorem setFlow_protH (f : Nat) (x : Flow) : (s.setFlow f x).protH = s.protH := rfl
@[simp] theorem setFlow_pendRecs (f : Nat) (x : Flow) : (s.setFlow f x).pendRecs = s.pendRecs := rfl
@[simp] theorem setFlow_arbs (f : Nat) (x : Flow) : (s.setFlow f x).arbs = s.arbs := rfl
@[simp] theorem setFlow_links (f : Nat) (x : Flow) : (s.setFlow f x).links = s.links := rfl
@[simp] theorem setFlow_cols (f : Nat) (x : Flow) : (s.setFlow f x).cols = s.cols := rfl
@[simp] theorem setFlow_colQueue (f : Nat) (x : Flow) : (s.setFlow f x).colQueue = s.colQueue := rfl
@[simp] theorem setFlow_readys (f : Nat) (x : Flow) : (s.setFlow f x).readys = s.readys := rfl
@[simp] theorem setFlow_colOut (f : Nat) (x : Flow) : (s.setFlow f x).colOut = s.colOut := rfl
@[simp] theorem setFlow_signq (f : Nat) (x : Flow) : (s.setFlow f x).signq = s.signq := rfl
@[simp] theorem setFlow_meterq (f : Nat) (x : Flow) : (s.setFlow f x).meterq = s.meterq := rfl
@[simp] theorem setFlow_snaps (f : Nat) (x : Flow) : (s.setFlow f x).snaps = s.snaps := rfl
@[simp] theorem setFlow_buckets (f : Nat) (x : Flow) : (s.setFlow f x).buckets = s.buckets := rfl
@[simp] theorem setFlow_aliased (f : Nat) (x : Flow) : (s.setFlow f x).aliased = s.aliased := rfl
@[simp] theorem setFlow_wid (f : Nat) (x : Flow) : (s.setFlow f x).wid = s.wid := rfl
@[simp] theorem setFlow_free (f : Nat) (x : Flow) : (s.setFlow f x).free = s.free := rfl

@[simp] theorem colPut_pending (k : Nat) (o : Option ColOp) : (s.colPut k o).pending = s.pending := rfl
@[simp] theorem colPut_regs (k : Nat) (o : Option ColOp) : (s.colPut k o).regs = s.regs := rfl
@[simp] theorem colPut_mem (k : Nat) (o : Option ColOp) : (s.colPut k o).mem = s.mem := rfl
@[simp] theorem colPut_clus (k : Nat) (o : Option ColOp) : (s.colPut k o).clus = s.clus := rfl
@[simp] theorem colPut_seqs (k : Nat) (o : Option ColOp) : (s.colPut k o).seqs = s.seqs := rfl
@[simp] theorem colPut_launches (k : Nat) (o : Option ColOp) : (s.colPut k o).launches = s.launches := rfl
@[simp] theorem colPut_remotes (k : Nat) (o : Option ColOp) : (s.colPut k o).remotes = s.remotes := rfl
@[simp] theorem colPut_events (k : Nat) (o : Option ColOp) : (s.colPut k o).events = s.events := rfl
@[simp] theorem colPut_dmaq (k : Nat) (o : Option ColOp) : (s.colPut k o).dmaq = s.dmaq := rfl
@[simp] theorem colPut_stashq (k : Nat) (o : Option ColOp) : (s.colPut k o).stashq = s.stashq := rfl
@[simp] theorem colPut_spErr (k : Nat) (o : Option ColOp) : (s.colPut k o).spErr = s.spErr := rfl
@[simp] theorem colPut_spPoison (k : Nat) (o : Option ColOp) : (s.colPut k o).spPoison = s.spPoison := rfl
@[simp] theorem colPut_cache (k : Nat) (o : Option ColOp) : (s.colPut k o).cache = s.cache := rfl
@[simp] theorem colPut_hbmErr (k : Nat) (o : Option ColOp) : (s.colPut k o).hbmErr = s.hbmErr := rfl
@[simp] theorem colPut_lineErr (k : Nat) (o : Option ColOp) : (s.colPut k o).lineErr = s.lineErr := rfl
@[simp] theorem colPut_poison (k : Nat) (o : Option ColOp) : (s.colPut k o).poison = s.poison := rfl
@[simp] theorem colPut_copyq (k : Nat) (o : Option ColOp) : (s.colPut k o).copyq = s.copyq := rfl
@[simp] theorem colPut_heldw (k : Nat) (o : Option ColOp) : (s.colPut k o).heldw = s.heldw := rfl
@[simp] theorem colPut_staged (k : Nat) (o : Option ColOp) : (s.colPut k o).staged = s.staged := rfl
@[simp] theorem colPut_csErr (k : Nat) (o : Option ColOp) : (s.colPut k o).csErr = s.csErr := rfl
@[simp] theorem colPut_protH (k : Nat) (o : Option ColOp) : (s.colPut k o).protH = s.protH := rfl
@[simp] theorem colPut_pendRecs (k : Nat) (o : Option ColOp) : (s.colPut k o).pendRecs = s.pendRecs := rfl
@[simp] theorem colPut_arbs (k : Nat) (o : Option ColOp) : (s.colPut k o).arbs = s.arbs := rfl
@[simp] theorem colPut_links (k : Nat) (o : Option ColOp) : (s.colPut k o).links = s.links := rfl
@[simp] theorem colPut_flows (k : Nat) (o : Option ColOp) : (s.colPut k o).flows = s.flows := rfl
@[simp] theorem colPut_colQueue (k : Nat) (o : Option ColOp) : (s.colPut k o).colQueue = s.colQueue := rfl
@[simp] theorem colPut_readys (k : Nat) (o : Option ColOp) : (s.colPut k o).readys = s.readys := rfl
@[simp] theorem colPut_colOut (k : Nat) (o : Option ColOp) : (s.colPut k o).colOut = s.colOut := rfl
@[simp] theorem colPut_signq (k : Nat) (o : Option ColOp) : (s.colPut k o).signq = s.signq := rfl
@[simp] theorem colPut_meterq (k : Nat) (o : Option ColOp) : (s.colPut k o).meterq = s.meterq := rfl
@[simp] theorem colPut_snaps (k : Nat) (o : Option ColOp) : (s.colPut k o).snaps = s.snaps := rfl
@[simp] theorem colPut_buckets (k : Nat) (o : Option ColOp) : (s.colPut k o).buckets = s.buckets := rfl
@[simp] theorem colPut_aliased (k : Nat) (o : Option ColOp) : (s.colPut k o).aliased = s.aliased := rfl
@[simp] theorem colPut_wid (k : Nat) (o : Option ColOp) : (s.colPut k o).wid = s.wid := rfl
@[simp] theorem colPut_free (k : Nat) (o : Option ColOp) : (s.colPut k o).free = s.free := rfl

@[simp] theorem setSnap_pending (j : Nat) (x : Option Snap) : (s.setSnap j x).pending = s.pending := rfl
@[simp] theorem setSnap_regs (j : Nat) (x : Option Snap) : (s.setSnap j x).regs = s.regs := rfl
@[simp] theorem setSnap_mem (j : Nat) (x : Option Snap) : (s.setSnap j x).mem = s.mem := rfl
@[simp] theorem setSnap_clus (j : Nat) (x : Option Snap) : (s.setSnap j x).clus = s.clus := rfl
@[simp] theorem setSnap_seqs (j : Nat) (x : Option Snap) : (s.setSnap j x).seqs = s.seqs := rfl
@[simp] theorem setSnap_launches (j : Nat) (x : Option Snap) : (s.setSnap j x).launches = s.launches := rfl
@[simp] theorem setSnap_remotes (j : Nat) (x : Option Snap) : (s.setSnap j x).remotes = s.remotes := rfl
@[simp] theorem setSnap_events (j : Nat) (x : Option Snap) : (s.setSnap j x).events = s.events := rfl
@[simp] theorem setSnap_dmaq (j : Nat) (x : Option Snap) : (s.setSnap j x).dmaq = s.dmaq := rfl
@[simp] theorem setSnap_stashq (j : Nat) (x : Option Snap) : (s.setSnap j x).stashq = s.stashq := rfl
@[simp] theorem setSnap_spErr (j : Nat) (x : Option Snap) : (s.setSnap j x).spErr = s.spErr := rfl
@[simp] theorem setSnap_spPoison (j : Nat) (x : Option Snap) : (s.setSnap j x).spPoison = s.spPoison := rfl
@[simp] theorem setSnap_cache (j : Nat) (x : Option Snap) : (s.setSnap j x).cache = s.cache := rfl
@[simp] theorem setSnap_hbmErr (j : Nat) (x : Option Snap) : (s.setSnap j x).hbmErr = s.hbmErr := rfl
@[simp] theorem setSnap_lineErr (j : Nat) (x : Option Snap) : (s.setSnap j x).lineErr = s.lineErr := rfl
@[simp] theorem setSnap_poison (j : Nat) (x : Option Snap) : (s.setSnap j x).poison = s.poison := rfl
@[simp] theorem setSnap_copyq (j : Nat) (x : Option Snap) : (s.setSnap j x).copyq = s.copyq := rfl
@[simp] theorem setSnap_heldw (j : Nat) (x : Option Snap) : (s.setSnap j x).heldw = s.heldw := rfl
@[simp] theorem setSnap_staged (j : Nat) (x : Option Snap) : (s.setSnap j x).staged = s.staged := rfl
@[simp] theorem setSnap_csErr (j : Nat) (x : Option Snap) : (s.setSnap j x).csErr = s.csErr := rfl
@[simp] theorem setSnap_protH (j : Nat) (x : Option Snap) : (s.setSnap j x).protH = s.protH := rfl
@[simp] theorem setSnap_pendRecs (j : Nat) (x : Option Snap) : (s.setSnap j x).pendRecs = s.pendRecs := rfl
@[simp] theorem setSnap_arbs (j : Nat) (x : Option Snap) : (s.setSnap j x).arbs = s.arbs := rfl
@[simp] theorem setSnap_links (j : Nat) (x : Option Snap) : (s.setSnap j x).links = s.links := rfl
@[simp] theorem setSnap_flows (j : Nat) (x : Option Snap) : (s.setSnap j x).flows = s.flows := rfl
@[simp] theorem setSnap_cols (j : Nat) (x : Option Snap) : (s.setSnap j x).cols = s.cols := rfl
@[simp] theorem setSnap_colQueue (j : Nat) (x : Option Snap) : (s.setSnap j x).colQueue = s.colQueue := rfl
@[simp] theorem setSnap_readys (j : Nat) (x : Option Snap) : (s.setSnap j x).readys = s.readys := rfl
@[simp] theorem setSnap_colOut (j : Nat) (x : Option Snap) : (s.setSnap j x).colOut = s.colOut := rfl
@[simp] theorem setSnap_signq (j : Nat) (x : Option Snap) : (s.setSnap j x).signq = s.signq := rfl
@[simp] theorem setSnap_meterq (j : Nat) (x : Option Snap) : (s.setSnap j x).meterq = s.meterq := rfl
@[simp] theorem setSnap_buckets (j : Nat) (x : Option Snap) : (s.setSnap j x).buckets = s.buckets := rfl
@[simp] theorem setSnap_aliased (j : Nat) (x : Option Snap) : (s.setSnap j x).aliased = s.aliased := rfl
@[simp] theorem setSnap_wid (j : Nat) (x : Option Snap) : (s.setSnap j x).wid = s.wid := rfl
@[simp] theorem setSnap_free (j : Nat) (x : Option Snap) : (s.setSnap j x).free = s.free := rfl

/-! ### Register fields -/

/-- A field reads within its width. -/
theorem rd_lt (f : Fld) : s.rd f < 2 ^ f.w := Nat.mod_lt _ (Nat.two_pow_pos _)

/-- A field reads as it was written, cut to its width. -/
@[simp] theorem rd_wr_self (f : Fld) (v : Nat) : (s.wr f v).rd f = v % 2 ^ f.w := by
  unfold rd wr
  dsimp only
  rw [Tbl.get_set_self, Nat.mod_mod]

/-- Every other field reads as before. -/
theorem rd_wr_ne {f g : Fld} (v : Nat) (h : f.bit ≠ g.bit) : (s.wr g v).rd f = s.rd f := by
  unfold rd wr
  dsimp only
  rw [Tbl.get_set_ne _ _ _ _ h]

/-- A read of a field after a write of any. -/
theorem rd_wr {f g : Fld} (v : Nat) (hr : f.bit = g.bit → f.rst = g.rst ∧ f.w = g.w) :
    (s.wr g v).rd f = if f.bit = g.bit then v % 2 ^ g.w else s.rd f := by
  split
  · next h =>
    unfold rd wr
    dsimp only
    rw [h, (hr h).1, (hr h).2, Tbl.get_set_self, Nat.mod_mod]
  · next h => exact rd_wr_ne s v h

@[simp] theorem rd_memSet (f : Fld) (k v : Nat) : (s.memSet k v).rd f = s.rd f := rfl
@[simp] theorem rd_setClu (f : Fld) (c : Nat) (x : Clu) : (s.setClu c x).rd f = s.rd f := rfl
@[simp] theorem rd_setSeq (f : Fld) (r : Nat) (x : Seq) : (s.setSeq r x).rd f = s.rd f := rfl
@[simp] theorem rd_setLaunch (f : Fld) (n : Nat) (x : Launch) : (s.setLaunch n x).rd f = s.rd f := rfl
@[simp] theorem rd_setLink (f : Fld) (p : Nat) (x : Link) : (s.setLink p x).rd f = s.rd f := rfl
@[simp] theorem rd_setFlow (f : Fld) (p : Nat) (x : Flow) : (s.setFlow p x).rd f = s.rd f := rfl
@[simp] theorem rd_colPut (f : Fld) (k : Nat) (o : Option ColOp) : (s.colPut k o).rd f = s.rd f := rfl
@[simp] theorem rd_setSnap (f : Fld) (j : Nat) (x : Option Snap) : (s.setSnap j x).rd f = s.rd f := rfl

/-- Writing a field changes nothing but the registers. -/
theorem wr_eq (f : Fld) (v : Nat) : s.wr f v = { s with regs := (s.wr f v).regs } := rfl

/-! ### The named reads -/

@[simp] theorem seq_setSeq_self (r : Nat) (x : Seq) : (s.setSeq r x).seq r = x := Tbl.get_set_self _ _ _ _
theorem seq_setSeq_ne {r q : Nat} (x : Seq) (h : q ≠ r) : (s.setSeq r x).seq q = s.seq q := Tbl.get_set_ne _ _ _ _ h
@[simp] theorem seq_wr (f : Fld) (v r : Nat) : (s.wr f v).seq r = s.seq r := rfl
@[simp] theorem clu_setClu_self (c : Nat) (x : Clu) : (s.setClu c x).clu c = x := Tbl.get_set_self _ _ _ _
theorem clu_setClu_ne {c d : Nat} (x : Clu) (h : d ≠ c) : (s.setClu c x).clu d = s.clu d := Tbl.get_set_ne _ _ _ _ h
@[simp] theorem clu_wr (f : Fld) (v c : Nat) : (s.wr f v).clu c = s.clu c := rfl
@[simp] theorem clu_setSeq (r : Nat) (x : Seq) (c : Nat) : (s.setSeq r x).clu c = s.clu c := rfl
@[simp] theorem seq_setClu (c : Nat) (x : Clu) (r : Nat) : (s.setClu c x).seq r = s.seq r := rfl
@[simp] theorem launch_setLaunch_self (n : Nat) (x : Launch) : (s.setLaunch n x).launch n = x := Tbl.get_set_self _ _ _ _
@[simp] theorem launch_wr (f : Fld) (v n : Nat) : (s.wr f v).launch n = s.launch n := rfl
@[simp] theorem launch_setSeq (r : Nat) (x : Seq) (n : Nat) : (s.setSeq r x).launch n = s.launch n := rfl

/-- A byte of memory reads as it was written. -/
@[simp] theorem memGet_memSet_self (k v : Nat) : (s.memSet k v).memGet k = v % 2 ^ 8 := by
  unfold memGet memSet
  dsimp only
  rw [Tbl.get_set_self, BitVec.toNat_ofNat]

/-- Every other byte of memory reads as before. -/
theorem memGet_memSet_ne {k j : Nat} (v : Nat) (h : j ≠ k) : (s.memSet k v).memGet j = s.memGet j := by
  unfold memGet memSet
  dsimp only
  rw [Tbl.get_set_ne _ _ _ _ h]

/-! ### Lists of fields -/

@[simp] theorem wrs_nil : s.wrs [] = s := rfl
@[simp] theorem wrs_cons (p : Fld × Nat) (l : List (Fld × Nat)) : s.wrs (p :: l) = (s.wr p.1 p.2).wrs l := rfl
@[simp] theorem zeros_nil : s.zeros [] = s := rfl
@[simp] theorem zeros_cons (f : Fld) (l : List Fld) : s.zeros (f :: l) = (s.wr f 0).zeros l := rfl

/-- Clearing fields writes zeros. -/
theorem zeros_eq_wrs (l : List Fld) : s.zeros l = s.wrs (l.map fun f => (f, 0)) := by
  induction l generalizing s with
  | nil => rfl
  | cons f l ih => exact ih (s.wr f 0)

/-- Writing fields changes nothing but the registers. -/
theorem wrs_eq (l : List (Fld × Nat)) : s.wrs l = { s with regs := (s.wrs l).regs } := by
  induction l generalizing s with
  | nil => rfl
  | cons p l ih => exact ih (s.wr p.1 p.2)

/-- A field that a list of writes does not name reads as before. -/
theorem rd_wrs_ne {f : Fld} (l : List (Fld × Nat)) (h : ∀ p ∈ l, f.bit ≠ p.1.bit) : (s.wrs l).rd f = s.rd f := by
  induction l generalizing s with
  | nil => rfl
  | cons p l ih =>
    rw [wrs_cons, ih _ fun q hq => h q (List.mem_cons_of_mem p hq), rd_wr_ne s _ (h p List.mem_cons_self)]

/-- A field reads what the last write that names it wrote. -/
theorem rd_wrs_mem {p : Fld × Nat} {l : List (Fld × Nat)} (hp : p ∈ l) (hd : l.Pairwise fun a b => a.1.bit ≠ b.1.bit) :
    (s.wrs l).rd p.1 = p.2 % 2 ^ p.1.w := by
  induction l generalizing s with
  | nil => cases hp
  | cons q l ih =>
    rw [wrs_cons]
    cases hp with
    | head => rw [rd_wrs_ne _ _ fun r hr => (List.pairwise_cons.mp hd).1 r hr, rd_wr_self]
    | tail _ hp => exact ih _ hp (List.pairwise_cons.mp hd).2

/-- A field among those cleared reads 0. -/
theorem rd_zeros {f : Fld} {l : List Fld} (hf : f ∈ l ∨ s.rd f = 0) (h0 : ∀ g ∈ l, g.rst = 0) (hr : f.rst = 0) :
    (s.zeros l).rd f = 0 := by
  induction l generalizing s with
  | nil => exact hf.resolve_left (by simp)
  | cons g l ih =>
    rw [zeros_cons]
    refine ih _ ?_ fun x hx => h0 x (List.mem_cons_of_mem g hx)
    by_cases hb : f.bit = g.bit
    · right
      unfold rd wr
      dsimp only
      rw [hb, hr, ← h0 g List.mem_cons_self, h0 g List.mem_cons_self, ← h0 g List.mem_cons_self, Tbl.get_set_self, h0 g List.mem_cons_self,
        Nat.zero_mod, Nat.zero_mod]
    · cases hf with
      | inl hf =>
        cases hf with
        | head => exact absurd rfl hb
        | tail _ h => exact .inl h
      | inr hf => exact .inr (by rw [rd_wr_ne s 0 hb, hf])

end Sys2Proof.Machine.State
end

