-- ==== Sys2Proof/Laws/Wrote.lean ====
section
/-!
SUPPORT. What writing register fields changes, in the words of the statements.
-/

namespace Sys2Proof.Machine

theorem OnlyRegs.refl (s : State) : OnlyRegs s s := rfl

theorem OnlyRegs.trans {s t u : State} (h : OnlyRegs s t) (k : OnlyRegs t u) : OnlyRegs s u := by
  unfold OnlyRegs at *
  rw [h] at k
  exact k

theorem OnlyRegs.wr (s : State) (f : Fld) (v : Nat) : OnlyRegs s (s.wr f v) := rfl

theorem OnlyRegs.wrs (s : State) (l : List (Fld × Nat)) : OnlyRegs s (s.wrs l) := State.wrs_eq s l

theorem Untouched.refl (fs : List Fld) (s : State) : Untouched fs s s := fun _ _ => rfl

theorem Untouched.trans {fs : List Fld} {s t u : State} (h : Untouched fs s t) (k : Untouched fs t u) : Untouched fs s u :=
  fun f hf => (k f hf).trans (h f hf)

theorem Untouched.mono {fs gs : List Fld} {s t : State} (h : Untouched fs s t) (hs : ∀ f ∈ fs, f ∈ gs) : Untouched gs s t :=
  fun f hf => h f fun g hg => hf g (hs g hg)

theorem Untouched.wr {fs : List Fld} (s : State) {f : Fld} (v : Nat) (hf : f ∈ fs) : Untouched fs s (s.wr f v) :=
  fun _ hg => State.rd_wr_ne s v (hg f hf)

theorem Untouched.wrs (s : State) (l : List (Fld × Nat)) : Untouched (l.map Prod.fst) s (s.wrs l) :=
  fun _ hf => State.rd_wrs_ne s l fun p hp => hf p.1 (List.mem_map_of_mem hp)

/-- Writing distinct fields with values that fit writes exactly those. -/
theorem wrote_wrs (s : State) {l : List (Fld × Nat)} (hd : l.Pairwise fun a b => a.1.bit ≠ b.1.bit)
    (hv : ∀ p ∈ l, p.2 < 2 ^ p.1.w) : Wrote l s (s.wrs l) :=
  ⟨OnlyRegs.wrs s l, fun p hp => by rw [State.rd_wrs_mem s hp hd, Nat.mod_eq_of_lt (hv p hp)], Untouched.wrs s l⟩

/-- Writing one field with a value that fits. -/
theorem wrote_wr (s : State) {f : Fld} {v : Nat} (hv : v < 2 ^ f.w) : Wrote [(f, v)] s (s.wr f v) :=
  ⟨rfl, fun p hp => by simp only [List.mem_singleton] at hp; subst hp; simp [Nat.mod_eq_of_lt hv],
    Untouched.wr s v (by simp)⟩

theorem wrote_nil (s : State) : Wrote [] s s := ⟨rfl, by simp, Untouched.refl _ s⟩

/-- Clearing fields whose reset value is 0 leaves 0 in each and changes nothing else. -/
theorem cleared_zeros (s : State) {l : List Fld} (h0 : ∀ f ∈ l, f.rst = 0) : Cleared l s (s.zeros l) := by
  refine ⟨?_, fun f hf => State.rd_zeros s (.inl hf) h0 (h0 f hf), fun f hf => ?_⟩
  · rw [State.zeros_eq_wrs]; exact OnlyRegs.wrs s _
  · rw [State.zeros_eq_wrs]
    exact State.rd_wrs_ne s _ fun p hp => by
      obtain ⟨g, hg, rfl⟩ := List.mem_map.mp hp
      exact hf g hg

/-- What domain 36 carries out happens while the block is awake. -/
theorem clocked_awake {s t : State} (h : s.awake = true) : s.clocked t = t := by unfold State.clocked; rw [if_pos h]

end Sys2Proof.Machine
end

