-- ==== Sys2Proof/Laws/Core.lean ====
section
/-!
SUPPORT. One instruction of a control core: what it does once it is fetched, what writing its destination changes, and what taking an
exception leaves.
-/

namespace Sys2Proof.Machine

/-- The words of the ALU functions are legal (Table 10.17), -/
theorem legal_alu {fn : Nat} (h : fn < 14) (d s1 s2 : Fin 32) : illegalWord (aluWord fn d.val s1.val s2.val) = false := by
  have := d.isLt; have := s1.isLt; have := s2.isLt
  unfold illegalWord aluWord
  exact decide_eq_false (by omega)

/-- and those with a 16-bit immediate, -/
theorem legal_imm {m : Nat} (h : 2 ≤ m) (h2 : m < 28) (a b : Fin 32) (i : BitVec 16) :
    illegalWord (immWord m a.val b.val i) = false := by
  have := a.isLt; have := b.isLt; have := i.isLt
  unfold illegalWord immWord
  exact decide_eq_false (by omega)

/-- and those with a 21-bit immediate, -/
theorem legal_long {m : Nat} (h : 2 ≤ m) (h2 : m < 28) (d : Fin 32) (i : BitVec 21) :
    illegalWord (longWord m d.val i) = false := by
  have := d.isLt; have := i.isLt
  unfold illegalWord longWord
  exact decide_eq_false (by omega)

/-- and those of the SYS functions. -/
theorem legal_sys {fn : Nat} (h : fn < 7) (d s1 mid top : Nat) : illegalWord (sysWord fn d s1 mid top).toNat = false := by
  unfold illegalWord sysWord
  rw [BitVec.toNat_ofNat]
  exact decide_eq_false (by omega)

theorem legal_plain {fn : Nat} (h : fn < 7) (rest : BitVec 23) : illegalWord (plainWord fn rest).toNat = false :=
  legal_sys h _ _ _ _

/-- Once fetched, an instruction goes on to the next one, -/
theorem coreStep_next {s u t : State} {c : CoreId} {w : Nat} {f : State → CcOut} (hw : illegalWord w = false) (h : Fetched s c w u) (hf : f u = .next t) :
    s.clocked (s.coreStep c.val w f) = t.setPc c.val (s.pcOf c.val + 4) := by
  obtain ⟨ha, hr, hg⟩ := h
  rw [clocked_awake ha]
  unfold State.coreStep
  rw [hr, hg]
  dsimp only
  rw [if_neg (by decide), if_neg (by decide), hw, if_neg (by decide), if_neg (by simp), hf]

/-- or jumps to a target that is a multiple of 4, and takes exception 3 for any other, -/
theorem coreStep_jump {s u t : State} {c : CoreId} {a : Word64} {w : Nat} {f : State → CcOut} (hw : illegalWord w = false) (h : Fetched s c w u) (hf : f u = .jump t a) :
    s.clocked (s.coreStep c.val w f) = if a.toNat % 4 = 0 then t.setPc c.val a else u.ccTrap c.val 3 a := by
  obtain ⟨ha, hr, hg⟩ := h
  rw [clocked_awake ha]
  unfold State.coreStep
  rw [hr, hg]
  dsimp only
  rw [if_neg (by decide), if_neg (by decide), hw, if_neg (by decide), if_neg (by simp), hf]

/-- or takes an exception, -/
theorem coreStep_trap {s u t : State} {c : CoreId} {cause : Nat} {v : Word64} {w : Nat} {f : State → CcOut} (hw : illegalWord w = false) (h : Fetched s c w u)
    (hf : f u = .trap t cause v) : s.clocked (s.coreStep c.val w f) = t.ccTrap c.val cause v := by
  obtain ⟨ha, hr, hg⟩ := h
  rw [clocked_awake ha]
  unfold State.coreStep
  rw [hr, hg]
  dsimp only
  rw [if_neg (by decide), if_neg (by decide), hw, if_neg (by decide), if_neg (by simp), hf]

/-- or waits with nothing changed. -/
theorem coreStep_stall {s u : State} {c : CoreId} {w : Nat} {f : State → CcOut} (hw : illegalWord w = false) (h : Fetched s c w u) (hf : f u = .stall) :
    s.clocked (s.coreStep c.val w f) = s := by
  obtain ⟨ha, hr, hg⟩ := h
  rw [clocked_awake ha]
  unfold State.coreStep
  rw [hr, hg]
  dsimp only
  rw [if_neg (by decide), if_neg (by decide), hw, if_neg (by decide), if_neg (by simp), hf]

theorem gpr_setGpr (s : State) (c d : Nat) (v : Word64) (hd : d ≠ 0) : (s.setGpr c d v).gpr c d = v := by
  unfold State.setGpr State.gpr
  rw [if_neg hd, if_neg hd, State.rd_wr_self, show (In.gpr c d).w = 64 from rfl, Nat.mod_eq_of_lt v.isLt, BitVec.ofNat_toNat,
    BitVec.setWidth_eq]

theorem pcOf_setPc (s : State) (c : Nat) (a : Word64) : (s.setPc c a).pcOf c = a := by
  unfold State.setPc State.pcOf
  rw [State.rd_wr_self, show (In.pc c).w = 64 from rfl, Nat.mod_eq_of_lt a.isLt, BitVec.ofNat_toNat, BitVec.setWidth_eq]

/-- Writing D and the program counter changes these alone; G0 takes nothing. -/
theorem coreWrote_set (u : State) (c : CoreId) (d : Fin 32) (v a : Word64) :
    CoreWrote c d v a u ((u.setGpr c.val d.val v).setPc c.val a) := by
  refine ⟨?_, pcOf_setPc _ _ _, ?_, ?_⟩
  · unfold State.setGpr; split <;> rfl
  · intro hd
    have e := gpr_setGpr u c.val d.val v hd
    unfold State.gpr State.setPc at *
    have hb : (In.gpr c.val d.val).bit ≠ (In.pc c.val).bit := by
      have := c.isLt
      have := d.isLt
      simp only [In.gpr, In.pc, In.fld, Reg.intB]
      omega
    rw [State.rd_wr_ne _ _ hb]
    exact e
  · unfold State.setGpr
    split
    · exact Untouched.wr _ _ (by simp)
    · exact (Untouched.wr (fs := [In.gpr c.val d.val, In.pc c.val]) _ _ (by simp)).trans (Untouched.wr _ _ (by simp))

/-- Taking an exception (R309). -/
theorem trapped_of (u : State) (c : CoreId) {cause : Nat} (v : Word64) (hc : cause < 16) :
    Trapped c cause v u (u.ccTrap c.val cause v) := by
  unfold Trapped State.ccTrap State.setPc
  rw [BitVec.toNat_ofNat, Nat.mod_eq_of_lt (show u.rd (Reg.MOD_CC_TVEC c.val) < 2 ^ 64 from State.rd_lt _ _)]
  refine wrote_wrs u (l := [_, _, _, _, _, _]) ?_ ?_
  · have := c.isLt
    simp only [List.pairwise_cons, List.forall_mem_cons, List.not_mem_nil, IsEmpty.forall_iff, implies_true, List.Pairwise.nil, and_true,
      Reg.MOD_CC_EPC, Reg.MOD_CC_CAUSE, Reg.MOD_CC_TVAL, Reg.MOD_CC_MODE_PREV, Reg.MOD_CC_MODE_CUR, In.pc, In.fld, Reg.intB, Reg.coreB]
    omega
  · simp only [List.forall_mem_cons, List.not_mem_nil, IsEmpty.forall_iff, implies_true, and_true]
    exact ⟨BitVec.isLt _, hc, BitVec.isLt _, State.rd_lt _ _, (by show 1 < 2 ^ 1; omega), State.rd_lt _ _⟩

end Sys2Proof.Machine
end

