-- ==== Sys2Proof/Laws/Host.lean ====
section
/-!
SUPPORT. What sending a message on a flow does: one lemma for every reply of the host engine and of firmware.
-/

namespace Sys2Proof.Machine.State

/-- What pushing packets of flow `f` leaves: the flow's bytes in order, and everything but the flow and the egress queue. -/
def Pushed (f : Nat) (u t : State) : Prop :=
  t = { u with flows := t.flows, links := t.links } ∧ (∀ k, k ≠ f → t.flow k = u.flow k) ∧ (∀ p, p ≠ 6 → t.link p = u.link p) ∧
    ((t.flow f).unacked ++ (t.flow f).unsent).flatMap Pkt.pay = ((u.flow f).unacked ++ (u.flow f).unsent).flatMap Pkt.pay ∧
    (t.flow f).msgs = (u.flow f).msgs ∧ (t.flow f).rx = (u.flow f).rx ∧ (t.flow f).broken = (u.flow f).broken

theorem Pushed.refl (f : Nat) (u : State) : Pushed f u u := ⟨rfl, fun _ _ => rfl, fun _ _ => rfl, rfl, rfl, rfl, rfl⟩

theorem Pushed.trans {f : Nat} {u v t : State} (h : Pushed f u v) (k : Pushed f v t) : Pushed f u t := by
  obtain ⟨a, b, c, d, e, g, i⟩ := h
  obtain ⟨a', b', c', d', e', g', i'⟩ := k
  refine ⟨?_, fun q hq => (b' q hq).trans (b q hq), fun q hq => (c' q hq).trans (c q hq), d'.trans d, e'.trans e, g'.trans g, i'.trans i⟩
  rw [a] at a'
  exact a'

@[simp] theorem flow_setLink (s : State) (p : Nat) (x : Link) (f : Nat) : (s.setLink p x).flow f = s.flow f := rfl
@[simp] theorem link_setFlow (s : State) (f : Nat) (x : Flow) (p : Nat) : (s.setFlow f x).link p = s.link p := rfl
@[simp] theorem flow_setFlow_self (s : State) (f : Nat) (x : Flow) : (s.setFlow f x).flow f = x := by
  unfold setFlow flow; simp
theorem flow_setFlow_ne (s : State) {f k : Nat} (x : Flow) (h : k ≠ f) : (s.setFlow f x).flow k = s.flow k := by
  unfold setFlow flow
  rw [Tbl.get_set_ne _ _ _ _ h]
theorem link_setLink_ne (s : State) {p k : Nat} (x : Link) (h : k ≠ p) : (s.setLink p x).link k = s.link k := by
  unfold setLink link
  rw [Tbl.get_set_ne _ _ _ _ h]

theorem egressPkt_pushed (s : State) (f pt : Nat) (a b : Bool) (seq : Nat) (pay : List Nat) : Pushed f s (s.egressPkt f pt a b seq pay) := by
  unfold egressPkt egress
  exact ⟨rfl, fun _ _ => rfl, fun p hp => link_setLink_ne _ _ hp, rfl, rfl, rfl, rfl⟩

theorem flowPush_pushed (f n : Nat) : ∀ s : State, Pushed f s (s.flowPush f n) := by
  induction n with
  | zero => exact fun s => Pushed.refl f s
  | succ n ih =>
    intro s
    unfold flowPush
    dsimp only
    cases hu : (s.flow f).unsent with
    | nil => exact Pushed.refl f s
    | cons p l =>
      dsimp only
      have go : ∀ c : Bool, Pushed f s (if c = true then s else
          (((s.setFlow f { s.flow f with unsent := l, unacked := (s.flow f).unacked ++ [{ p with lastTx := (s.flow f).clock }] }).egressPkt
            f 0 p.first p.last p.seq p.pay).flowPush f n)) := by
        intro c
        cases c with
        | true => exact Pushed.refl f s
        | false =>
          rw [if_neg Bool.false_ne_true]
          refine Pushed.trans ?_ ((egressPkt_pushed _ f 0 p.first p.last p.seq p.pay).trans (ih _))
          refine ⟨rfl, fun k hk => flow_setFlow_ne s _ hk, fun _ _ => rfl, ?_, ?_, ?_, ?_⟩
          all_goals rw [flow_setFlow_self]
          simp [hu]
      exact go _

theorem setFlow_shape (u : State) (f : Nat) (x : Flow) : u.setFlow f x = { u with flows := (u.setFlow f x).flows } := rfl

theorem cdiv_le (m k : Nat) (h : 0 < m) : k ≤ m * max 1 (cdiv k m) := by
  have e : k ≤ m * cdiv k m := by
    unfold cdiv
    have := Nat.div_add_mod (k + m - 1) m
    have := Nat.mod_lt (k + m - 1) h
    omega
  exact e.trans (Nat.mul_le_mul_left m (Nat.le_max_right 1 _))

theorem chunks_flat (m : Nat) : ∀ (n : Nat) (l : List Nat), l.length ≤ m * n → (chunks m l n).flatten = l := by
  intro n
  induction n with
  | zero =>
    intro l h
    rw [Nat.mul_zero, Nat.le_zero, List.length_eq_zero_iff] at h
    rw [h]
    rfl
  | succ n ih =>
    intro l h
    unfold chunks
    rw [List.flatten_cons, ih _ (by rw [List.length_drop]; rw [Nat.mul_succ] at h; omega), List.take_append_drop]

/-- Sending with packets of `m` bytes and sequence numbers below `w`. -/
def sendWith (m w : Nat) (s : State) (f : Nat) (bytes : List Nat) : State :=
  let x := s.flow f
  if x.broken || !s.on (Reg.HTP_FLOW_VALID f) then s
  else
    let n := max 1 (cdiv bytes.length m)
    let ps := (chunks m bytes n).zipIdx.map fun q =>
      (⟨(x.tx + q.2) % w, q.2 == 0, q.2 + 1 == n, q.1, 0⟩ : Pkt)
    let s1 := s.setFlow f { x with unsent := x.unsent ++ ps, tx := (x.tx + n) % w }
    s1.flowPush f (x.unsent.length + n)

theorem hostSend_eq (s : State) (f : Nat) (bytes : List Nat) : s.hostSend f bytes = sendWith 8192 (2 ^ 32) s f bytes := rfl

theorem pays (g : Nat → Nat) (n : Nat) : ∀ (l : List (List Nat)) (k : Nat), ((l.zipIdx k).map fun q =>
    (⟨g q.2, q.2 == 0, q.2 + 1 == n, q.1, 0⟩ : Pkt)).flatMap Pkt.pay = l.flatten := by
  intro l
  induction l with
  | nil => intro k; rfl
  | cons x l ih =>
    intro k
    rw [List.zipIdx_cons, List.map_cons, List.flatMap_cons, ih, List.flatten_cons]

theorem sendWith_spec (m w : Nat) (hm : 0 < m) (u : State) (f : Nat) (bytes : List Nat) (h1 : (u.flow f).broken = false)
    (h2 : u.on (Reg.HTP_FLOW_VALID f) = true) {t : State} (ht : sendWith m w u f bytes = t) :
      t = { u with flows := t.flows, links := t.links } ∧ (∀ k, k ≠ f → t.flow k = u.flow k) ∧ (∀ p, p ≠ 6 → t.link p = u.link p) ∧
        ((t.flow f).unacked ++ (t.flow f).unsent).flatMap Pkt.pay = ((u.flow f).unacked ++ (u.flow f).unsent).flatMap Pkt.pay ++ bytes ∧
        (t.flow f).msgs = (u.flow f).msgs ∧ (t.flow f).rx = (u.flow f).rx := by
  unfold sendWith at ht
  dsimp only at ht
  rw [if_neg (by simp [h1, h2])] at ht
  generalize hn : max 1 (cdiv bytes.length m) = n at ht
  have hl : bytes.length ≤ m * n := by
    rw [← hn]
    exact cdiv_le m _ hm
  generalize hq : u.setFlow f _ = v at ht
  subst ht
  obtain ⟨a, b, c, d, e, g, -⟩ := flowPush_pushed f ((u.flow f).unsent.length + n) v
  have e1 : v.flow f = { u.flow f with
      unsent := (u.flow f).unsent ++ (chunks m bytes n).zipIdx.map fun q =>
        (⟨((u.flow f).tx + q.2) % w, q.2 == 0, q.2 + 1 == n, q.1, 0⟩ : Pkt), tx := ((u.flow f).tx + n) % w } := by
    rw [← hq, flow_setFlow_self]
  have p1 := pays (fun i => ((u.flow f).tx + i) % w) n (chunks m bytes n) 0
  rw [chunks_flat m n bytes hl] at p1
  refine ⟨?_, fun k hk => (b k hk).trans (by rw [← hq, flow_setFlow_ne u _ hk]), fun p hp => (c p hp).trans (by rw [← hq, link_setFlow]), ?_,
    by rw [e, e1], by rw [g, e1]⟩
  · rw [a, ← hq, setFlow_shape]
  · rw [d, e1]
    dsimp only
    rw [List.flatMap_append, List.flatMap_append, p1, List.flatMap_append, List.append_assoc]

theorem hostSend_sent (u : State) (f : Nat) (bytes : List Nat) : Sent f bytes u (u.hostSend f bytes) := by
  rw [hostSend_eq]
  generalize he : sendWith 8192 (2 ^ 32) u f bytes = t
  unfold Sent
  by_cases h : (u.flow f).broken = true ∨ u.rd (Reg.HTP_FLOW_VALID f) = 0
  · rw [if_pos h, ← he]
    unfold sendWith
    dsimp only
    rw [if_pos]
    rcases h with h | h <;> simp [h, on]
  · rw [if_neg h]
    rw [not_or, Bool.not_eq_true] at h
    exact sendWith_spec 8192 (2 ^ 32) (by decide) u f bytes h.1 (by simp [on, h.2]) he

/-- A reply of the host engine or of firmware. -/
theorem hostReply_answered (u : State) (f mtype status tag : Nat) (body : List Nat) :
    Answered f mtype status tag body u (u.hostReply f mtype status tag body) := hostSend_sent u f _

end Sys2Proof.Machine.State
end

