-- ==== Sys2Proof/Laws/MemOps.lean ====
section
/-!
SUPPORT. Memory keeps its canonical form: the operations of registers, memory and HBM.
-/


namespace Sys2Proof.Machine

/-- The memory is in its canonical form. -/
abbrev MemOk (s : State) : Prop := Tbl.wf (0 : BitVec 8) s.mem = true

theorem ite_memOk {c : Prop} [Decidable c] {a b : State} (ha : MemOk a) (hb : MemOk b) : MemOk (if c then a else b) := by
  split <;> assumption
theorem ite_memOk_fst {α : Type} {c : Prop} [Decidable c] {a b : State × α} (ha : MemOk a.1) (hb : MemOk b.1) :
    MemOk (if c then a else b).1 := by
  split <;> assumption
theorem foldl_memOk {α : Type} {f : State → α → State} {l : List α} {s : State} (h : MemOk s)
    (hf : ∀ t a, MemOk t → MemOk (f t a)) : MemOk (l.foldl f s) := by
  induction l generalizing s with
  | nil => exact h
  | cons a l ih => exact ih (hf s a h)
theorem foldl_memOk_fst {α β : Type} {f : State × β → α → State × β} {l : List α} {s : State × β} (h : MemOk s.1)
    (hf : ∀ t a, MemOk t.1 → MemOk (f t a).1) : MemOk (l.foldl f s).1 := by
  induction l generalizing s with
  | nil => exact h
  | cons a l ih => exact ih (hf s a h)
theorem memOk_congr {s t : State} (hs : MemOk s) (h : t.mem = s.mem) : MemOk t := by
  unfold MemOk; rw [h]; exact hs

/-- The states of a control-core outcome keep their memory in canonical form. -/
def CcOk : CcOut → Prop
  | .next t => MemOk t
  | .jump t _ => MemOk t
  | .trap t _ _ => MemOk t
  | .stall => True

theorem CcOk_next {t : State} (h : MemOk t) : CcOk (.next t) := h
theorem CcOk_jump {t : State} {a : Word64} (h : MemOk t) : CcOk (.jump t a) := h
theorem CcOk_trap {t : State} {c : Nat} {a : Word64} (h : MemOk t) : CcOk (.trap t c a) := h
theorem CcOk_stall : CcOk .stall := trivial
theorem ite_ccOk {c : Prop} [Decidable c] {a b : CcOut} (ha : CcOk a) (hb : CcOk b) : CcOk (if c then a else b) := by
  split <;> assumption

/-- The state that an optional result carries keeps its memory in canonical form. -/
structure OptOk {α : Type} (o : Option (State × α)) : Prop where
  memOk : ∀ y, o = some y → MemOk y.1

theorem OptOk_none {α : Type} : OptOk (none : Option (State × α)) := ⟨fun _ h => nomatch h⟩
theorem OptOk_some {α : Type} {x : State × α} (h : MemOk x.1) : OptOk (some x) := ⟨fun _ hy => by cases hy; exact h⟩
theorem ite_optOk {α : Type} {c : Prop} [Decidable c] {a b : Option (State × α)} (ha : OptOk a) (hb : OptOk b) :
    OptOk (if c then a else b) := by
  split <;> assumption

/-- The state that an optional state carries keeps its memory in canonical form. -/
structure SomeOk (o : Option State) : Prop where
  memOk : ∀ y, o = some y → MemOk y

theorem SomeOk_none : SomeOk none := ⟨fun _ h => nomatch h⟩
theorem SomeOk_some {x : State} (h : MemOk x) : SomeOk (some x) := ⟨fun _ hy => by cases hy; exact h⟩
theorem SomeOk_map {o : Option State} {f : State → State} (h : SomeOk o) (hf : ∀ t, MemOk t → MemOk (f t)) : SomeOk (o.map f) := by
  cases o with
  | none => exact SomeOk_none
  | some y => exact SomeOk_some (hf _ (h.memOk y rfl))

theorem State.reset_memOk : MemOk State.reset := rfl

theorem State.setClu_memOk {s c x} (hs : MemOk s) :
    MemOk (State.setClu s c x) := by
  unfold State.setClu
  try dsimp only
  repeat' first | (intro _) | (with_reducible assumption)

theorem State.setMu_memOk {s c m x} (hs : MemOk s) :
    MemOk (State.setMu s c m x) := by
  unfold State.setMu
  try dsimp only
  repeat' first | (intro _) | (with_reducible assumption) | (with_reducible apply State.setClu_memOk)

theorem State.setTile_memOk {s c m t x} (hs : MemOk s) :
    MemOk (State.setTile s c m t x) := by
  unfold State.setTile
  try dsimp only
  repeat' first | (intro _) | (with_reducible assumption) | (with_reducible apply State.setMu_memOk)

theorem State.touchDebug_memOk {s p} (hs : MemOk s) :
    MemOk (State.touchDebug s p) := by
  unfold State.touchDebug
  try dsimp only
  repeat' first | (intro _) | (with_reducible assumption)

theorem State.wr_memOk {s f v} (hs : MemOk s) :
    MemOk (State.wr s f v) := by
  unfold State.wr
  try dsimp only
  repeat' first | (intro _) | (with_reducible assumption)

theorem State.wrs_memOk {s a} (hs : MemOk s) :
    MemOk (State.wrs s a) := by
  fun_induction State.wrs s a <;>
    (repeat' first | (intro _) | extract_lets | (with_reducible assumption) | (with_reducible apply_assumption))

theorem State.memSet_memOk {s k v} (hs : MemOk s) : MemOk (s.memSet k v) := Tbl.wf_set hs k _

theorem State.poke_memOk {s a v} (hs : MemOk s) :
    MemOk (State.poke s a v) := by
  unfold State.poke
  try dsimp only
  repeat' first | (intro _) | (with_reducible assumption) | (with_reducible apply State.memSet_memOk) | (with_reducible apply State.setTile_memOk) | (with_reducible apply ite_memOk) | (with_reducible apply ite_memOk_fst) | (with_reducible apply foldl_memOk) | (with_reducible apply foldl_memOk_fst) | (with_reducible apply Tbl.wf_set) | (with_reducible apply Tbl.wf_cut) | (with_reducible apply Tbl.wf_copy) | (with_reducible apply Tbl.wf_filter) | split

theorem State.setSeq_memOk {s r x} (hs : MemOk s) :
    MemOk (State.setSeq s r x) := by
  unfold State.setSeq
  try dsimp only
  repeat' first | (intro _) | (with_reducible assumption)

theorem State.inc48_memOk {s lo hi n} (hs : MemOk s) :
    MemOk (State.inc48 s lo hi n) := by
  unfold State.inc48
  try dsimp only
  repeat' first | (intro _) | (with_reducible assumption) | (with_reducible apply State.wr_memOk)

theorem State.dropLineErr_memOk {s line} (hs : MemOk s) :
    MemOk (State.dropLineErr s line) := by
  unfold State.dropLineErr
  try dsimp only
  repeat' first | (intro _) | (with_reducible assumption) | (with_reducible apply ite_memOk) | (with_reducible apply ite_memOk_fst) | (with_reducible apply foldl_memOk)

theorem State.inc_memOk {s f n} (hs : MemOk s) :
    MemOk (State.inc s f n) := by
  unfold State.inc
  try dsimp only
  repeat' first | (intro _) | (with_reducible assumption) | (with_reducible apply State.wr_memOk)

theorem State.risk_memOk {s k n} (hs : MemOk s) :
    MemOk (State.risk s k n) := by
  unfold State.risk
  try dsimp only
  repeat' first | (intro _) | (with_reducible assumption) | (with_reducible apply State.inc_memOk)

theorem State.hltLog_memOk {s kind unit detail} (hs : MemOk s) :
    MemOk (State.hltLog s kind unit detail) := by
  unfold State.hltLog
  try dsimp only
  repeat' first | (intro _) | (with_reducible assumption) | (with_reducible apply State.wrs_memOk) | (with_reducible apply State.inc_memOk) | (with_reducible apply State.wr_memOk) | (with_reducible apply ite_memOk)

theorem State.logPush_memOk {s k fs vs} (hs : MemOk s) :
    MemOk (State.logPush s k fs vs) := by
  unfold State.logPush
  try dsimp only
  repeat' first | (intro _) | (with_reducible assumption) | (with_reducible apply State.wrs_memOk) | (with_reducible apply ite_memOk) | (with_reducible apply ite_memOk_fst) | (with_reducible apply foldl_memOk)

theorem State.poisonGranule_memOk {s g kind} (hs : MemOk s) :
    MemOk (State.poisonGranule s g kind) := by
  unfold State.poisonGranule
  try dsimp only
  repeat' first | (intro _) | (with_reducible assumption) | (with_reducible apply State.inc_memOk) | (with_reducible apply State.hltLog_memOk) | (with_reducible apply State.logPush_memOk) | (with_reducible apply State.risk_memOk) | (with_reducible apply ite_memOk)

theorem State.hbmLineRead_memOk {s line} (hs : MemOk s) :
    MemOk (State.hbmLineRead s line) := by
  unfold State.hbmLineRead
  try dsimp only
  repeat' first | (intro _) | (with_reducible assumption) | (with_reducible apply State.risk_memOk) | (with_reducible apply State.inc_memOk) | (with_reducible apply State.poisonGranule_memOk) | (with_reducible apply ite_memOk) | (with_reducible apply ite_memOk_fst) | (with_reducible apply foldl_memOk)

theorem State.lineRead_memOk {s line dirty} (hs : MemOk s) :
    MemOk (State.lineRead s line dirty) := by
  unfold State.lineRead
  try dsimp only
  repeat' first | (intro _) | (with_reducible assumption) | (with_reducible apply State.risk_memOk) | (with_reducible apply State.inc_memOk) | (with_reducible apply State.dropLineErr_memOk) | (with_reducible apply State.poisonGranule_memOk) | (with_reducible apply State.hbmLineRead_memOk) | (with_reducible apply ite_memOk) | (with_reducible apply ite_memOk_fst) | (with_reducible apply foldl_memOk)

theorem State.cacheTouch_memOk {s line write whole alloc} (hs : MemOk s) :
    MemOk (State.cacheTouch s line write whole alloc) := by
  unfold State.cacheTouch
  try dsimp only
  repeat' first | (intro _) | (with_reducible assumption) | (with_reducible apply State.inc48_memOk) | (with_reducible apply State.dropLineErr_memOk) | (with_reducible apply State.lineRead_memOk) | (with_reducible apply State.hbmLineRead_memOk) | (with_reducible apply State.inc_memOk) | (with_reducible apply ite_memOk) | (with_reducible apply ite_memOk_fst) | (with_reducible apply foldl_memOk) | (with_reducible apply foldl_memOk_fst) | (with_reducible apply Tbl.wf_set) | (with_reducible apply Tbl.wf_cut) | (with_reducible apply Tbl.wf_copy) | (with_reducible apply Tbl.wf_filter) | split

theorem State.cacheRange_memOk {s a n write alloc} (hs : MemOk s) :
    MemOk (State.cacheRange s a n write alloc) := by
  unfold State.cacheRange
  try dsimp only
  repeat' first | (intro _) | (with_reducible assumption) | (with_reducible apply State.cacheTouch_memOk) | (with_reducible apply ite_memOk) | (with_reducible apply ite_memOk_fst) | (with_reducible apply foldl_memOk)

theorem State.setProtected_memOk {s p v} (hs : MemOk s) :
    MemOk (State.setProtected s p v) := by
  unfold State.setProtected
  try dsimp only
  repeat' first | (intro _) | (with_reducible assumption) | (with_reducible apply State.wr_memOk)

theorem State.countQueue_memOk {s d} (hs : MemOk s) :
    MemOk (State.countQueue s d) := by
  unfold State.countQueue
  try dsimp only
  repeat' first | (intro _) | (with_reducible assumption) | (with_reducible apply State.wr_memOk)

theorem State.countSlotWaits_memOk {s k} (hs : MemOk s) :
    MemOk (State.countSlotWaits s k) := by
  unfold State.countSlotWaits
  try dsimp only
  repeat' first | (intro _) | (with_reducible assumption) | (with_reducible apply State.wr_memOk) | (with_reducible apply State.inc_memOk) | (with_reducible apply ite_memOk)

theorem State.queueCopy_memOk {s p} (hs : MemOk s) :
    MemOk (State.queueCopy s p) := by
  unfold State.queueCopy
  try dsimp only
  repeat' first | (intro _) | (with_reducible assumption) | (with_reducible apply State.countQueue_memOk) | (with_reducible apply State.countSlotWaits_memOk) | (with_reducible apply ite_memOk)

theorem State.queueTouched_memOk {s ws} (hs : MemOk s) :
    MemOk (State.queueTouched s ws) := by
  unfold State.queueTouched
  try dsimp only
  repeat' first | (intro _) | (with_reducible assumption) | (with_reducible apply State.queueCopy_memOk) | (with_reducible apply ite_memOk) | (with_reducible apply ite_memOk_fst) | (with_reducible apply foldl_memOk)

theorem State.clocked_memOk {s t} (hs : MemOk s) (ht : MemOk t) :
    MemOk (State.clocked s t) := by
  unfold State.clocked
  try dsimp only
  repeat' first | (intro _) | (with_reducible assumption) | (with_reducible apply ite_memOk)

theorem State.pushRow_memOk {s c row bank kind} (hs : MemOk s) :
    MemOk (State.pushRow s c row bank kind) := by
  unfold State.pushRow
  try dsimp only
  repeat' first | (intro _) | (with_reducible assumption) | (with_reducible apply State.logPush_memOk) | (with_reducible apply State.hltLog_memOk) | (with_reducible apply ite_memOk)

theorem State.rowAccess_memOk {s c g whole} (hs : MemOk s) :
    MemOk (State.rowAccess s c g whole).1 := by
  unfold State.rowAccess
  try dsimp only
  repeat' first | (intro _) | (with_reducible assumption) | (with_reducible apply State.pushRow_memOk) | (with_reducible apply State.risk_memOk) | (with_reducible apply State.inc_memOk) | (with_reducible apply ite_memOk) | (with_reducible apply ite_memOk_fst) | (with_reducible apply foldl_memOk) | (with_reducible apply foldl_memOk_fst) | (with_reducible apply Tbl.wf_set) | (with_reducible apply Tbl.wf_cut) | (with_reducible apply Tbl.wf_copy) | (with_reducible apply Tbl.wf_filter) | split

theorem State.zeros_memOk {s a} (hs : MemOk s) :
    MemOk (State.zeros s a) := by
  fun_induction State.zeros s a <;>
    (repeat' first | (intro _) | extract_lets | (with_reducible assumption) | (with_reducible apply_assumption))

theorem State.clr_memOk {s f} (hs : MemOk s) :
    MemOk (State.clr s f) := by
  unfold State.clr
  try dsimp only
  repeat' first | (intro _) | (with_reducible assumption) | (with_reducible apply State.wr_memOk)

theorem State.charge_memOk {s c t n} (hs : MemOk s) :
    MemOk (State.charge s c t n) := by
  unfold State.charge
  try dsimp only
  repeat' first | (intro _) | (with_reducible assumption) | (with_reducible apply State.inc_memOk)

theorem State.hbmRead_memOk {s a n alloc} (hs : MemOk s) :
    MemOk (State.hbmRead s a n alloc).1 := by
  unfold State.hbmRead
  try dsimp only
  repeat' first | (intro _) | (with_reducible assumption) | (with_reducible apply State.inc_memOk) | (with_reducible apply State.cacheRange_memOk) | (with_reducible apply ite_memOk) | (with_reducible apply ite_memOk_fst)

theorem State.heal_memOk {s a n} (hs : MemOk s) :
    MemOk (State.heal s a n) := by
  unfold State.heal
  try dsimp only
  repeat' first | (intro _) | (with_reducible assumption) | (with_reducible apply ite_memOk) | (with_reducible apply ite_memOk_fst) | (with_reducible apply foldl_memOk)

theorem State.inject_memOk {s as} (hs : MemOk s) :
    MemOk (State.inject s as) := by
  unfold State.inject
  try dsimp only
  repeat' first | (intro _) | (with_reducible assumption) | (with_reducible apply State.touchDebug_memOk) | (with_reducible apply State.wr_memOk) | (with_reducible apply ite_memOk) | (with_reducible apply ite_memOk_fst) | (with_reducible apply foldl_memOk) | (with_reducible apply foldl_memOk_fst) | (with_reducible apply Tbl.wf_set) | (with_reducible apply Tbl.wf_cut) | (with_reducible apply Tbl.wf_copy) | (with_reducible apply Tbl.wf_filter) | split

theorem State.pokes_memOk {s a} (hs : MemOk s) :
    MemOk (State.pokes s a) := by
  fun_induction State.pokes s a <;>
    (repeat' first | (intro _) | extract_lets | (with_reducible assumption) | (with_reducible apply_assumption) | (with_reducible apply State.poke_memOk))

theorem State.hbmStore_memOk {s a bs alloc} (hs : MemOk s) :
    MemOk (State.hbmStore s a bs alloc) := by
  unfold State.hbmStore
  try dsimp only
  repeat' first | (intro _) | (with_reducible assumption) | (with_reducible apply State.heal_memOk) | (with_reducible apply State.cacheRange_memOk) | (with_reducible apply State.inject_memOk) | (with_reducible apply State.pokes_memOk)

theorem State.hbmWriteBy_memOk {s src a bs alloc} (hs : MemOk s) :
    MemOk (State.hbmWriteBy s src a bs alloc).1 := by
  unfold State.hbmWriteBy
  try dsimp only
  repeat' first | (intro _) | (with_reducible assumption) | (with_reducible apply State.inc_memOk) | (with_reducible apply State.queueTouched_memOk) | (with_reducible apply State.hbmStore_memOk) | (with_reducible apply ite_memOk) | (with_reducible apply ite_memOk_fst) | (with_reducible apply foldl_memOk)

theorem State.rowAccesses_memOk {s c a} (hs : MemOk s) :
    MemOk (State.rowAccesses s c a).1 := by
  fun_induction State.rowAccesses s c a <;>
    (repeat' first | (intro _) | extract_lets | (with_reducible assumption) | (with_reducible apply_assumption) | (with_reducible apply State.rowAccess_memOk))

theorem State.hbmWrite_memOk {s a bs alloc} (hs : MemOk s) :
    MemOk (State.hbmWrite s a bs alloc).1 := by
  unfold State.hbmWrite
  try dsimp only
  repeat' first | (intro _) | (with_reducible assumption) | (with_reducible apply State.hbmWriteBy_memOk)

end Sys2Proof.Machine
end

