-- ==== Sys2Proof/Laws/MemRegion.lean ====
section
/-!
SUPPORT. Memory keeps its canonical form: the operations of a region and its units.
-/


namespace Sys2Proof.Machine

theorem State.accEvent_memOk {s c a} (hs : MemOk s) :
    MemOk (State.accEvent s c a) := by
  unfold State.accEvent
  try dsimp only
  repeat' first | (intro _) | (with_reducible assumption) | (with_reducible apply State.inc_memOk) | (with_reducible apply ite_memOk) | (with_reducible apply ite_memOk_fst) | (with_reducible apply foldl_memOk) | (with_reducible apply foldl_memOk_fst) | (with_reducible apply Tbl.wf_set) | (with_reducible apply Tbl.wf_cut) | (with_reducible apply Tbl.wf_copy) | (with_reducible apply Tbl.wf_filter) | split

theorem State.inOrder_memOk {s ws} (hs : MemOk s) :
    MemOk (State.inOrder s ws).1 := by
  unfold State.inOrder
  try dsimp only
  repeat' first | (intro _) | (with_reducible assumption)

theorem State.accums_memOk {s : State} {fmt l} (hs : MemOk s) : MemOk (s.accums fmt l) := by
  induction l generalizing s with
  | nil => exact hs
  | cons p l ih =>
    unfold State.accums
    refine ih ?_
    split
    · exact foldl_memOk (State.pokes_memOk hs) fun t e h => State.accEvent_memOk h
    · exact State.pokes_memOk hs

theorem State.pend_memOk {s r due rank c a} (hs : MemOk s) :
    MemOk (State.pend s r due rank c a) := by
  unfold State.pend
  try dsimp only
  repeat' first | (intro _) | (with_reducible assumption) | (with_reducible apply State.setSeq_memOk)

theorem State.ue_memOk {s r c t slot} (hs : MemOk s) :
    MemOk (State.ue s r c t slot) := by
  unfold State.ue
  try dsimp only
  repeat' first | (intro _) | (with_reducible assumption) | (with_reducible apply State.pend_memOk)

theorem State.seen_memOk {s r fid} (hs : MemOk s) :
    MemOk (State.seen s r fid) := by
  unfold State.seen
  try dsimp only
  repeat' first | (intro _) | (with_reducible assumption) | (with_reducible apply State.pokes_memOk)

theorem State.checkReadsAs_memOk {s alloc gs} (hs : MemOk s) :
    MemOk (State.checkReadsAs s alloc gs).1 := by
  unfold State.checkReadsAs
  try dsimp only
  repeat' first | (intro _) | (with_reducible assumption) | (with_reducible apply State.rowAccess_memOk) | (with_reducible apply State.hbmRead_memOk) | (with_reducible apply ite_memOk) | (with_reducible apply ite_memOk_fst) | (with_reducible apply foldl_memOk) | (with_reducible apply foldl_memOk_fst) | (with_reducible apply Tbl.wf_set) | (with_reducible apply Tbl.wf_cut) | (with_reducible apply Tbl.wf_copy) | (with_reducible apply Tbl.wf_filter) | split

theorem State.checkReads_memOk {s gs} (hs : MemOk s) :
    MemOk (State.checkReads s gs).1 := by
  unfold State.checkReads
  try dsimp only
  repeat' first | (intro _) | (with_reducible assumption) | (with_reducible apply State.checkReadsAs_memOk)

theorem State.wave_memOk {s r c t own rs ws rebuilds} (hs : MemOk s) :
    MemOk (State.wave s r c t own rs ws rebuilds) := by
  unfold State.wave
  try dsimp only
  repeat' first | (intro _) | (with_reducible assumption) | (with_reducible apply State.setSeq_memOk) | (with_reducible apply ite_memOk)

theorem State.noteRebuilds_memOk {s r t l} (hs : MemOk s) :
    MemOk (State.noteRebuilds s r t l) := by
  unfold State.noteRebuilds
  try dsimp only
  repeat' first | (intro _) | (with_reducible assumption) | (with_reducible apply State.wave_memOk) | (with_reducible apply ite_memOk) | (with_reducible apply ite_memOk_fst) | (with_reducible apply foldl_memOk)

theorem State.readWave_memOk {s r c t slot us} (hs : MemOk s) :
    MemOk (State.readWave s r c t slot us) := by
  unfold State.readWave
  try dsimp only
  repeat' first | (intro _) | (with_reducible assumption) | (with_reducible apply State.checkReads_memOk) | (with_reducible apply State.noteRebuilds_memOk) | (with_reducible apply State.wave_memOk) | (with_reducible apply State.ue_memOk) | (with_reducible apply ite_memOk)

theorem State.checkWrites_memOk {s ws} (hs : MemOk s) :
    MemOk (State.checkWrites s ws).1 := by
  unfold State.checkWrites
  try dsimp only
  repeat' first | (intro _) | (with_reducible assumption) | (with_reducible apply State.rowAccess_memOk) | (with_reducible apply ite_memOk) | (with_reducible apply ite_memOk_fst) | (with_reducible apply foldl_memOk) | (with_reducible apply foldl_memOk_fst) | (with_reducible apply Tbl.wf_set) | (with_reducible apply Tbl.wf_cut) | (with_reducible apply Tbl.wf_copy) | (with_reducible apply Tbl.wf_filter) | split

theorem State.untilIc_memOk {s r t} (hs : MemOk s) :
    MemOk (State.untilIc s r t) := by
  unfold State.untilIc
  try dsimp only
  repeat' first | (intro _) | (with_reducible assumption) | (with_reducible apply State.setSeq_memOk)

theorem State.shFault_memOk {s r c code slot t} (hs : MemOk s) :
    MemOk (State.shFault s r c code slot t).1 := by
  unfold State.shFault
  try dsimp only
  repeat' first | (intro _) | (with_reducible assumption) | (with_reducible apply State.wrs_memOk)

theorem State.opFault_memOk {s code slot c} (hs : MemOk s) :
    MemOk (State.opFault s code slot c).1 := by
  unfold State.opFault
  try dsimp only
  repeat' first | (intro _) | (with_reducible assumption)

theorem State.muFaultIn_memOk {s r c m code tile slot t} (hs : MemOk s) :
    MemOk (State.muFaultIn s r c m code tile slot t).1 := by
  unfold State.muFaultIn
  try dsimp only
  repeat' first | (intro _) | (with_reducible assumption) | (with_reducible apply State.wrs_memOk)

theorem State.portUse_memOk {s r c t from' slot us} (hs : MemOk s) :
    MemOk (State.portUse s r c t from' slot us).1 := by
  unfold State.portUse
  try dsimp only
  repeat' first | (intro _) | (with_reducible assumption) | (with_reducible apply State.muFaultIn_memOk) | (with_reducible apply State.setMu_memOk) | (with_reducible apply ite_memOk) | (with_reducible apply ite_memOk_fst) | (with_reducible apply foldl_memOk) | (with_reducible apply foldl_memOk_fst) | (with_reducible apply Tbl.wf_set) | (with_reducible apply Tbl.wf_cut) | (with_reducible apply Tbl.wf_copy) | (with_reducible apply Tbl.wf_filter) | split

theorem State.useWindow_memOk {s r c t from' slot us} (hs : MemOk s) :
    MemOk (State.useWindow s r c t from' slot us).1 := by
  unfold State.useWindow
  try dsimp only
  repeat' first | (intro _) | (with_reducible assumption) | (with_reducible apply State.muFaultIn_memOk) | (with_reducible apply State.portUse_memOk) | (with_reducible apply ite_memOk) | (with_reducible apply ite_memOk_fst) | (with_reducible apply foldl_memOk) | (with_reducible apply foldl_memOk_fst) | (with_reducible apply Tbl.wf_set) | (with_reducible apply Tbl.wf_cut) | (with_reducible apply Tbl.wf_copy) | (with_reducible apply Tbl.wf_filter) | split

theorem State.sendRemote_memOk {s r via accFmt ws} (hs : MemOk s) :
    MemOk (State.sendRemote s r via accFmt ws) := by
  unfold State.sendRemote
  try dsimp only
  repeat' first | (intro _) | (with_reducible assumption) | (with_reducible apply ite_memOk) | (with_reducible apply ite_memOk_fst) | (with_reducible apply foldl_memOk)

theorem State.thenOp_memOk {x : OpR} {f : State → OpR} (hx : MemOk x.1) (hf : ∀ t, MemOk t → MemOk (f t).1) :
    MemOk (State.thenOp x f).1 := by
  unfold State.thenOp
  split
  · exact hx
  · exact hf _ hx

theorem State.dropFetch_memOk {s r fid} (hs : MemOk s) :
    MemOk (State.dropFetch s r fid) := by
  unfold State.dropFetch
  try dsimp only
  repeat' first | (intro _) | (with_reducible assumption) | (with_reducible apply State.setSeq_memOk)

theorem State.muFault_memOk {s r c m code tile t} (hs : MemOk s) :
    MemOk (State.muFault s r c m code tile t).1 := by
  unfold State.muFault
  try dsimp only
  repeat' first | (intro _) | (with_reducible assumption) | (with_reducible apply State.muFaultIn_memOk)

theorem State.noteFar_memOk {s l} (hs : MemOk s) :
    MemOk (State.noteFar s l) := by
  unfold State.noteFar
  try dsimp only
  repeat' first | (intro _) | (with_reducible assumption) | (with_reducible apply State.wave_memOk) | (with_reducible apply ite_memOk) | (with_reducible apply ite_memOk_fst) | (with_reducible apply foldl_memOk)

theorem State.svFault_memOk {s r c m code slot t} (hs : MemOk s) :
    MemOk (State.svFault s r c m code slot t).1 := by
  unfold State.svFault
  try dsimp only
  repeat' first | (intro _) | (with_reducible assumption) | (with_reducible apply State.wrs_memOk)

theorem State.writeAt_memOk {s r c due rank accFmt ws} (hs : MemOk s) :
    MemOk (State.writeAt s r c due rank accFmt ws) := by
  unfold State.writeAt
  try dsimp only
  repeat' first | (intro _) | (with_reducible assumption) | (with_reducible apply State.pend_memOk) | (with_reducible apply ite_memOk) | (with_reducible apply ite_memOk_fst) | (with_reducible apply foldl_memOk)

theorem State.take_memOk {s r fid us} (hs : MemOk s) :
    MemOk (State.take s r fid us) := by
  unfold State.take
  try dsimp only
  repeat' first | (intro _) | (with_reducible assumption) | (with_reducible apply State.setSeq_memOk)

theorem State.fetch_memOk {s r c t slot waves due rank a} (hs : MemOk s) :
    MemOk (State.fetch s r c t slot waves due rank a) := by
  unfold State.fetch
  try dsimp only
  repeat' first | (intro _) | (with_reducible assumption) | (with_reducible apply State.pend_memOk) | (with_reducible apply State.setSeq_memOk) | (with_reducible apply ite_memOk) | (with_reducible apply ite_memOk_fst) | (with_reducible apply foldl_memOk)

theorem State.noteChain_memOk {s k m tile old cnt} (hs : MemOk s) :
    MemOk (State.noteChain s k m tile old cnt) := by
  unfold State.noteChain
  try dsimp only
  repeat' first | (intro _) | (with_reducible assumption) | (with_reducible apply State.inc_memOk) | (with_reducible apply State.wr_memOk) | (with_reducible apply ite_memOk)

theorem State.rake_memOk {s r c t mu tile tile2} (hs : MemOk s) :
    MemOk (State.rake s r c t mu tile tile2).1 := by
  unfold State.rake
  try dsimp only
  repeat' first | (intro _) | (with_reducible assumption) | (with_reducible apply State.muFault_memOk) | (with_reducible apply State.noteChain_memOk) | (with_reducible apply State.setTile_memOk) | (with_reducible apply State.setMu_memOk) | (with_reducible apply State.untilIc_memOk) | (with_reducible apply ite_memOk) | (with_reducible apply ite_memOk_fst)

theorem State.noteMu_memOk {s k m ftz ovf busy} (hs : MemOk s) :
    MemOk (State.noteMu s k m ftz ovf busy) := by
  unfold State.noteMu
  try dsimp only
  repeat' first | (intro _) | (with_reducible assumption) | (with_reducible apply State.inc48_memOk) | (with_reducible apply State.inc_memOk)

theorem State.mma_memOk {s r c t mu tile sa sb acc} (hs : MemOk s) :
    MemOk (State.mma s r c t mu tile sa sb acc).1 := by
  unfold State.mma
  try dsimp only
  repeat' first | (intro _) | (with_reducible assumption) | (with_reducible apply State.muFault_memOk) | (with_reducible apply State.noteChain_memOk) | (with_reducible apply State.setTile_memOk) | (with_reducible apply State.noteMu_memOk) | (with_reducible apply State.untilIc_memOk) | (with_reducible apply State.setMu_memOk) | (with_reducible apply ite_memOk) | (with_reducible apply ite_memOk_fst)

theorem State.loadTake_memOk {s d r c t0 isB mu slot trans qen q i e rt ct} (hs : MemOk s) :
    MemOk (State.loadTake s d r c t0 isB mu slot trans qen q i e rt ct) := by
  unfold State.loadTake
  try dsimp only
  repeat' first | (intro _) | (with_reducible assumption) | (with_reducible apply State.setMu_memOk)

theorem State.loadSlot_memOk {s : State} {r c t isB mu slot trans qen q i e rt ct} (hs : MemOk s) :
    MemOk (s.loadSlot r c t isB mu slot trans qen q i e rt ct).1 := by
  have h := State.useWindow_memOk (s := s) (r := r) (c := c) (t := t) (from' := t) (slot := 0)
    (us := (s.slotTileOf r c isB trans qen i e rt ct).2) hs
  unfold State.loadSlot
  refine ite_memOk_fst (State.opFault_memOk hs) (ite_memOk_fst (State.opFault_memOk hs)
    (ite_memOk_fst (State.muFault_memOk hs) ?_))
  dsimp only
  split
  · next hw => rw [hw] at h; exact h
  · next hw =>
    rw [hw] at h
    exact ite_memOk_fst (State.untilIc_memOk (State.fetch_memOk (State.setMu_memOk h)))
      (State.untilIc_memOk (State.loadTake_memOk (State.readWave_memOk h)))

theorem State.accZero_memOk {s r c t mu tile} (hs : MemOk s) :
    MemOk (State.accZero s r c t mu tile).1 := by
  unfold State.accZero
  try dsimp only
  repeat' first | (intro _) | (with_reducible assumption) | (with_reducible apply State.muFault_memOk) | (with_reducible apply State.untilIc_memOk) | (with_reducible apply State.setTile_memOk) | (with_reducible apply ite_memOk) | (with_reducible apply ite_memOk_fst)

theorem State.stashLog_memOk {s d e reason region} (hs : MemOk s) :
    MemOk (State.stashLog s d e reason region) := by
  unfold State.stashLog
  try dsimp only
  repeat' first | (intro _) | (with_reducible assumption) | (with_reducible apply State.logPush_memOk)

theorem State.setPoolTop_memOk {s d k} (hs : MemOk s) :
    MemOk (State.setPoolTop s d k) := by
  unfold State.setPoolTop
  try dsimp only
  repeat' first | (intro _) | (with_reducible assumption) | (with_reducible apply State.wr_memOk)

theorem State.notStashed_memOk {s d e reason} (hs : MemOk s) :
    MemOk (State.notStashed s d e reason) := by
  unfold State.notStashed
  try dsimp only
  repeat' first | (intro _) | (with_reducible assumption) | (with_reducible apply State.setPoolTop_memOk) | (with_reducible apply State.inc_memOk) | (with_reducible apply State.wrs_memOk)

theorem State.stashRow_memOk {s r chan e m jt row srcFmt vals} (hs : MemOk s) :
    MemOk (State.stashRow s r chan e m jt row srcFmt vals) := by
  unfold State.stashRow
  try dsimp only
  repeat' first | (intro _) | (with_reducible assumption) | (with_reducible apply State.stashLog_memOk) | (with_reducible apply State.inc_memOk) | (with_reducible apply State.notStashed_memOk) | (with_reducible apply ite_memOk)

theorem State.stashMap_memOk {s r e m jt map} (hs : MemOk s) :
    MemOk (State.stashMap s r e m jt map) := by
  unfold State.stashMap
  try dsimp only
  repeat' first | (intro _) | (with_reducible assumption) | (with_reducible apply ite_memOk)

theorem State.stashEvents_memOk {s d evs} (hs : MemOk s) :
    MemOk (State.stashEvents s d evs) := by
  unfold State.stashEvents
  try dsimp only
  repeat' first | (intro _) | (with_reducible assumption) | (with_reducible apply State.inc_memOk) | (with_reducible apply ite_memOk) | (with_reducible apply ite_memOk_fst) | (with_reducible apply foldl_memOk) | (with_reducible apply foldl_memOk_fst) | (with_reducible apply Tbl.wf_set) | (with_reducible apply Tbl.wf_cut) | (with_reducible apply Tbl.wf_copy) | (with_reducible apply Tbl.wf_filter) | split

theorem State.keepCodes_memOk {s r n l} (hs : MemOk s) :
    MemOk (State.keepCodes s r n l) := by
  unfold State.keepCodes
  try dsimp only
  repeat' first | (intro _) | (with_reducible assumption) | (with_reducible apply State.setSeq_memOk)

theorem State.readBias_memOk {s r c t i e ct us} (hs : MemOk s) :
    MemOk (State.readBias s r c t i e ct us) := by
  unfold State.readBias
  try dsimp only
  repeat' first | (intro _) | (with_reducible assumption) | (with_reducible apply State.fetch_memOk) | (with_reducible apply State.keepCodes_memOk) | (with_reducible apply State.readWave_memOk) | (with_reducible apply ite_memOk)

theorem State.drainGo_memOk {s r c t mu tile i drec e rt ct v} (hs : MemOk s) :
    MemOk (State.drainGo s r c t mu tile i drec e rt ct v).1 := by
  unfold State.drainGo
  try dsimp only
  repeat' first | (intro _) | (with_reducible assumption) | (with_reducible apply State.muFault_memOk) | (with_reducible apply State.thenOp_memOk) | (with_reducible apply State.portUse_memOk) | (with_reducible apply State.readBias_memOk) | (with_reducible apply State.pend_memOk) | (with_reducible apply State.setTile_memOk) | (with_reducible apply State.setMu_memOk) | (with_reducible apply State.untilIc_memOk) | (with_reducible apply ite_memOk) | (with_reducible apply ite_memOk_fst) | (with_reducible apply foldl_memOk) | (with_reducible apply foldl_memOk_fst) | (with_reducible apply Tbl.wf_set) | (with_reducible apply Tbl.wf_cut) | (with_reducible apply Tbl.wf_copy) | (with_reducible apply Tbl.wf_filter) | split

theorem State.drain_memOk {s r c t mu tile i den drec e rt ct} (hs : MemOk s) :
    MemOk (State.drain s r c t mu tile i den drec e rt ct).1 := by
  unfold State.drain
  try dsimp only
  repeat' first | (intro _) | (with_reducible assumption) | (with_reducible apply State.opFault_memOk) | (with_reducible apply State.muFault_memOk) | (with_reducible apply State.drainGo_memOk) | (with_reducible apply ite_memOk) | (with_reducible apply ite_memOk_fst) | (with_reducible apply foldl_memOk) | (with_reducible apply foldl_memOk_fst) | (with_reducible apply Tbl.wf_set) | (with_reducible apply Tbl.wf_cut) | (with_reducible apply Tbl.wf_copy) | (with_reducible apply Tbl.wf_filter) | split

theorem State.clearMap_memOk {s r num row live} (hs : MemOk s) :
    MemOk (State.clearMap s r num row live) := by
  unfold State.clearMap
  try dsimp only
  repeat' first | (intro _) | (with_reducible assumption) | (with_reducible apply State.setSeq_memOk)

theorem State.muEvents_memOk {s k m evs} (hs : MemOk s) :
    MemOk (State.muEvents s k m evs) := by
  unfold State.muEvents
  try dsimp only
  repeat' first | (intro _) | (with_reducible assumption) | (with_reducible apply State.inc_memOk) | (with_reducible apply ite_memOk) | (with_reducible apply ite_memOk_fst) | (with_reducible apply foldl_memOk) | (with_reducible apply foldl_memOk_fst) | (with_reducible apply Tbl.wf_set) | (with_reducible apply Tbl.wf_cut) | (with_reducible apply Tbl.wf_copy) | (with_reducible apply Tbl.wf_filter) | split

theorem State.drainRowGo_memOk {s d r c due num mu i drec e rt ct row entry acc bias} (hs : MemOk s) :
    MemOk (State.drainRowGo s d r c due num mu i drec e rt ct row entry acc bias) := by
  unfold State.drainRowGo
  try dsimp only
  repeat' first | (intro _) | (with_reducible assumption) | (with_reducible apply State.pend_memOk) | (with_reducible apply State.writeAt_memOk) | (with_reducible apply State.clearMap_memOk) | (with_reducible apply State.muEvents_memOk) | (with_reducible apply ite_memOk) | (with_reducible apply ite_memOk_fst) | (with_reducible apply foldl_memOk) | (with_reducible apply foldl_memOk_fst) | (with_reducible apply Tbl.wf_set) | (with_reducible apply Tbl.wf_cut) | (with_reducible apply Tbl.wf_copy) | (with_reducible apply Tbl.wf_filter) | split

theorem State.drainRow_memOk {s r c t num mu tile i drec e rt ct row} (hs : MemOk s) :
    MemOk (State.drainRow s r c t num mu tile i drec e rt ct row) := by
  unfold State.drainRow
  try dsimp only
  repeat' first | (intro _) | (with_reducible assumption) | (with_reducible apply State.fetch_memOk) | (with_reducible apply State.keepCodes_memOk) | (with_reducible apply State.drainRowGo_memOk) | (with_reducible apply State.readWave_memOk) | (with_reducible apply State.setSeq_memOk) | (with_reducible apply ite_memOk) | (with_reducible apply ite_memOk_fst) | (with_reducible apply foldl_memOk) | (with_reducible apply foldl_memOk_fst) | (with_reducible apply Tbl.wf_set) | (with_reducible apply Tbl.wf_cut) | (with_reducible apply Tbl.wf_copy) | (with_reducible apply Tbl.wf_filter) | split

theorem State.drainMap_memOk {s r c t num mu tile i e rt ct map} (hs : MemOk s) :
    MemOk (State.drainMap s r c t num mu tile i e rt ct map) := by
  unfold State.drainMap
  try dsimp only
  repeat' first | (intro _) | (with_reducible assumption) | (with_reducible apply State.pend_memOk) | (with_reducible apply State.writeAt_memOk) | (with_reducible apply State.stashMap_memOk) | (with_reducible apply ite_memOk)

theorem State.takeBias_memOk {s r c fid i e ct} (hs : MemOk s) :
    MemOk (State.takeBias s r c fid i e ct) := by
  unfold State.takeBias
  try dsimp only
  repeat' first | (intro _) | (with_reducible assumption) | (with_reducible apply State.seen_memOk) | (with_reducible apply State.keepCodes_memOk) | (with_reducible apply State.dropFetch_memOk)

theorem State.takeRow_memOk {s r c t fid num mu i drec e rt ct row} (hs : MemOk s) :
    MemOk (State.takeRow s r c t fid num mu i drec e rt ct row) := by
  unfold State.takeRow
  try dsimp only
  repeat' first | (intro _) | (with_reducible assumption) | (with_reducible apply State.drainRowGo_memOk) | (with_reducible apply State.seen_memOk) | (with_reducible apply State.keepCodes_memOk) | (with_reducible apply State.dropFetch_memOk)

theorem State.countSieve_memOk {s r t} (hs : MemOk s) :
    MemOk (State.countSieve s r t) := by
  unfold State.countSieve
  try dsimp only
  repeat' first | (intro _) | (with_reducible assumption) | (with_reducible apply State.inc_memOk) | (with_reducible apply State.wr_memOk) | (with_reducible apply State.setSeq_memOk) | (with_reducible apply ite_memOk) | (with_reducible apply ite_memOk_fst) | (with_reducible apply foldl_memOk)

theorem State.sieveAdvance_memOk {s r t h0} (hs : MemOk s) :
    MemOk (State.sieveAdvance s r t h0) := by
  unfold State.sieveAdvance
  try dsimp only
  repeat' first | (intro _) | (with_reducible assumption) | (with_reducible apply State.setClu_memOk) | (with_reducible apply State.setSeq_memOk) | (with_reducible apply ite_memOk) | (with_reducible apply ite_memOk_fst) | (with_reducible apply foldl_memOk)

theorem State.svLoadTake_memOk {s d r c t mu half u i e tr tc} (hs : MemOk s) :
    MemOk (State.svLoadTake s d r c t mu half u i e tr tc) := by
  unfold State.svLoadTake
  try dsimp only
  repeat' first | (intro _) | (with_reducible assumption) | (with_reducible apply State.setMu_memOk) | (with_reducible apply State.pend_memOk) | (with_reducible apply ite_memOk)

theorem State.svTransposeTake_memOk {s d r c due i i2 e row row2} (hs : MemOk s) :
    MemOk (State.svTransposeTake s d r c due i i2 e row row2) := by
  unfold State.svTransposeTake
  try dsimp only
  repeat' first | (intro _) | (with_reducible assumption) | (with_reducible apply State.writeAt_memOk)

theorem State.startLooks_memOk {s r k mu t b o ahead} (hs : MemOk s) :
    MemOk (State.startLooks s r k mu t b o ahead) := by
  unfold State.startLooks
  try dsimp only
  repeat' first | (intro _) | (with_reducible assumption) | (with_reducible apply State.setSeq_memOk)

theorem State.smmaRun_memOk {s r c t ahead mu tile sa half acc i} (hs : MemOk s) :
    MemOk (State.smmaRun s r c t ahead mu tile sa half acc i) := by
  unfold State.smmaRun
  try dsimp only
  repeat' first | (intro _) | (with_reducible assumption) | (with_reducible apply State.noteChain_memOk) | (with_reducible apply State.setTile_memOk) | (with_reducible apply State.startLooks_memOk) | (with_reducible apply State.noteMu_memOk) | (with_reducible apply State.inc_memOk) | (with_reducible apply State.inc48_memOk) | (with_reducible apply State.setSeq_memOk) | (with_reducible apply State.wr_memOk) | (with_reducible apply State.writeAt_memOk) | (with_reducible apply ite_memOk)

theorem State.sgwRun_memOk {s r c t ahead mu sa sb acc zmh i} (hs : MemOk s) :
    MemOk (State.sgwRun s r c t ahead mu sa sb acc zmh i) := by
  unfold State.sgwRun
  try dsimp only
  repeat' first | (intro _) | (with_reducible assumption) | (with_reducible apply State.noteMu_memOk) | (with_reducible apply State.noteChain_memOk) | (with_reducible apply State.setTile_memOk) | (with_reducible apply State.startLooks_memOk) | (with_reducible apply ite_memOk) | (with_reducible apply ite_memOk_fst) | (with_reducible apply foldl_memOk)

theorem State.runProduct_memOk {s r c t ahead op} (hs : MemOk s) :
    MemOk (State.runProduct s r c t ahead op) := by
  unfold State.runProduct
  try dsimp only
  repeat' first | (intro _) | (with_reducible assumption) | (with_reducible apply State.smmaRun_memOk) | (with_reducible apply State.sgwRun_memOk) | (with_reducible apply ite_memOk) | (with_reducible apply ite_memOk_fst) | (with_reducible apply foldl_memOk) | (with_reducible apply foldl_memOk_fst) | (with_reducible apply Tbl.wf_set) | (with_reducible apply Tbl.wf_cut) | (with_reducible apply Tbl.wf_copy) | (with_reducible apply Tbl.wf_filter) | split

theorem State.startProduct_memOk {s : State} {r c t mu op run} (hs : MemOk s) (hr : MemOk (run s)) :
    MemOk (s.startProduct r c t mu op run) := by
  unfold State.startProduct
  exact ite_memOk hr (State.pend_memOk hs)

theorem State.pageDrop_memOk {s k mu row col kind} (hs : MemOk s) :
    MemOk (State.pageDrop s k mu row col kind) := by
  unfold State.pageDrop
  try dsimp only
  repeat' first | (intro _) | (with_reducible assumption) | (with_reducible apply State.wr_memOk) | (with_reducible apply State.inc_memOk) | (with_reducible apply State.logPush_memOk) | (with_reducible apply ite_memOk)

theorem State.svZmapTake_memOk {s d r c mu u reg a} (hs : MemOk s) :
    MemOk (State.svZmapTake s d r c mu u reg a) := by
  unfold State.svZmapTake
  try dsimp only
  repeat' first | (intro _) | (with_reducible assumption) | (with_reducible apply State.setMu_memOk)

theorem State.takeSv_memOk {s r c t fid op} (hs : MemOk s) :
    MemOk (State.takeSv s r c t fid op) := by
  unfold State.takeSv
  try dsimp only
  repeat' first | (intro _) | (with_reducible assumption) | (with_reducible apply State.seen_memOk) | (with_reducible apply State.dropFetch_memOk) | (with_reducible apply State.svLoadTake_memOk) | (with_reducible apply State.svZmapTake_memOk) | (with_reducible apply State.svTransposeTake_memOk) | (with_reducible apply ite_memOk) | (with_reducible apply ite_memOk_fst) | (with_reducible apply foldl_memOk) | (with_reducible apply foldl_memOk_fst) | (with_reducible apply Tbl.wf_set) | (with_reducible apply Tbl.wf_cut) | (with_reducible apply Tbl.wf_copy) | (with_reducible apply Tbl.wf_filter) | split

theorem State.svZmap_memOk {s r c t mu u reg kind i e m kt} (hs : MemOk s) :
    MemOk (State.svZmap s r c t mu u reg kind i e m kt).1 := by
  unfold State.svZmap
  try dsimp only
  repeat' first | (intro _) | (with_reducible assumption) | (with_reducible apply State.opFault_memOk) | (with_reducible apply State.svFault_memOk) | (with_reducible apply State.thenOp_memOk) | (with_reducible apply State.useWindow_memOk) | (with_reducible apply State.untilIc_memOk) | (with_reducible apply State.setMu_memOk) | (with_reducible apply State.fetch_memOk) | (with_reducible apply State.svZmapTake_memOk) | (with_reducible apply State.readWave_memOk) | (with_reducible apply ite_memOk) | (with_reducible apply ite_memOk_fst)

theorem State.svTranspose_memOk {s r c t i i2 e row row2} (hs : MemOk s) :
    MemOk (State.svTranspose s r c t i i2 e row row2).1 := by
  unfold State.svTranspose
  try dsimp only
  repeat' first | (intro _) | (with_reducible assumption) | (with_reducible apply State.opFault_memOk) | (with_reducible apply State.svFault_memOk) | (with_reducible apply State.thenOp_memOk) | (with_reducible apply State.useWindow_memOk) | (with_reducible apply State.portUse_memOk) | (with_reducible apply State.untilIc_memOk) | (with_reducible apply State.setClu_memOk) | (with_reducible apply State.fetch_memOk) | (with_reducible apply State.svTransposeTake_memOk) | (with_reducible apply State.readWave_memOk) | (with_reducible apply ite_memOk) | (with_reducible apply ite_memOk_fst)

theorem State.pageDrops_memOk {s : State} {r c t mu l} (hs : MemOk s) : MemOk (s.pageDrops r c t mu l).1 := by
  induction l generalizing s with
  | nil => exact hs
  | cons d l ih =>
    unfold State.pageDrops
    dsimp only
    split
    · exact State.svFault_memOk (State.pageDrop_memOk hs)
    · split
      · exact State.svFault_memOk (State.pageDrop_memOk hs)
      · exact ih (State.pageDrop_memOk hs)

theorem State.smma_memOk {s r c t mu tile sa half acc i} (hs : MemOk s) :
    MemOk (State.smma s r c t mu tile sa half acc i).1 := by
  unfold State.smma
  try dsimp only
  repeat' first | (intro _) | (with_reducible assumption) | (with_reducible apply State.opFault_memOk) | (with_reducible apply State.muFault_memOk) | (with_reducible apply State.svFault_memOk) | (with_reducible apply State.setTile_memOk) | (with_reducible apply State.untilIc_memOk) | (with_reducible apply State.setMu_memOk) | (with_reducible apply State.startProduct_memOk) | (with_reducible apply State.smmaRun_memOk) | (with_reducible apply ite_memOk) | (with_reducible apply ite_memOk_fst)

theorem State.sgw_memOk {s r c t mu sa sb acc zmh i} (hs : MemOk s) :
    MemOk (State.sgw s r c t mu sa sb acc zmh i).1 := by
  unfold State.sgw
  try dsimp only
  repeat' first | (intro _) | (with_reducible assumption) | (with_reducible apply State.opFault_memOk) | (with_reducible apply State.muFault_memOk) | (with_reducible apply State.svFault_memOk) | (with_reducible apply State.setTile_memOk) | (with_reducible apply State.untilIc_memOk) | (with_reducible apply State.setMu_memOk) | (with_reducible apply State.startProduct_memOk) | (with_reducible apply State.sgwRun_memOk) | (with_reducible apply ite_memOk) | (with_reducible apply ite_memOk_fst) | (with_reducible apply foldl_memOk)

theorem State.svLoad_memOk {s r c t mu half u i e tr tc} (hs : MemOk s) :
    MemOk (State.svLoad s r c t mu half u i e tr tc).1 := by
  unfold State.svLoad
  try dsimp only
  repeat' first | (intro _) | (with_reducible assumption) | (with_reducible apply State.opFault_memOk) | (with_reducible apply State.svFault_memOk) | (with_reducible apply State.thenOp_memOk) | (with_reducible apply State.useWindow_memOk) | (with_reducible apply State.setMu_memOk) | (with_reducible apply State.setClu_memOk) | (with_reducible apply State.untilIc_memOk) | (with_reducible apply State.fetch_memOk) | (with_reducible apply ite_memOk) | (with_reducible apply ite_memOk_fst) | (with_reducible apply foldl_memOk) | (with_reducible apply foldl_memOk_fst) | (with_reducible apply Tbl.wf_set) | (with_reducible apply Tbl.wf_cut) | (with_reducible apply Tbl.wf_copy) | (with_reducible apply Tbl.wf_filter) | split

theorem State.setVreg_memOk {s k n ws} (hs : MemOk s) :
    MemOk (State.setVreg s k n ws) := by
  unfold State.setVreg
  try dsimp only
  repeat' first | (intro _) | (with_reducible assumption) | (with_reducible apply State.setClu_memOk)

theorem State.vuEvents_memOk {s r c evs} (hs : MemOk s) :
    MemOk (State.vuEvents s r c evs) := by
  unfold State.vuEvents
  try dsimp only
  repeat' first | (intro _) | (with_reducible assumption) | (with_reducible apply State.inc_memOk) | (with_reducible apply ite_memOk) | (with_reducible apply ite_memOk_fst) | (with_reducible apply foldl_memOk) | (with_reducible apply foldl_memOk_fst) | (with_reducible apply Tbl.wf_set) | (with_reducible apply Tbl.wf_cut) | (with_reducible apply Tbl.wf_copy) | (with_reducible apply Tbl.wf_filter) | split

theorem State.vstsTake_memOk {s d r c due ref i e n lanes} (hs : MemOk s) :
    MemOk (State.vstsTake s d r c due ref i e n lanes) := by
  unfold State.vstsTake
  try dsimp only
  repeat' first | (intro _) | (with_reducible assumption) | (with_reducible apply State.writeAt_memOk) | (with_reducible apply State.vuEvents_memOk) | (with_reducible apply ite_memOk) | (with_reducible apply ite_memOk_fst) | (with_reducible apply foldl_memOk) | (with_reducible apply foldl_memOk_fst) | (with_reducible apply Tbl.wf_set) | (with_reducible apply Tbl.wf_cut) | (with_reducible apply Tbl.wf_copy) | (with_reducible apply Tbl.wf_filter) | split

theorem State.takeVu_memOk {s r c t fid t0 op} (hs : MemOk s) :
    MemOk (State.takeVu s r c t fid t0 op) := by
  unfold State.takeVu
  try dsimp only
  repeat' first | (intro _) | (with_reducible assumption) | (with_reducible apply State.seen_memOk) | (with_reducible apply State.keepCodes_memOk) | (with_reducible apply State.dropFetch_memOk) | (with_reducible apply State.vuEvents_memOk) | (with_reducible apply State.pend_memOk) | (with_reducible apply State.vstsTake_memOk) | (with_reducible apply ite_memOk) | (with_reducible apply ite_memOk_fst) | (with_reducible apply foldl_memOk) | (with_reducible apply foldl_memOk_fst) | (with_reducible apply Tbl.wf_set) | (with_reducible apply Tbl.wf_cut) | (with_reducible apply Tbl.wf_copy) | (with_reducible apply Tbl.wf_filter) | split

theorem State.vuLoadSlots_memOk {s r c t vd ref i e n blkNo} (hs : MemOk s) :
    MemOk (State.vuLoadSlots s r c t vd ref i e n blkNo).1 := by
  unfold State.vuLoadSlots
  try dsimp only
  repeat' first | (intro _) | (with_reducible assumption) | (with_reducible apply State.opFault_memOk) | (with_reducible apply State.untilIc_memOk) | (with_reducible apply State.thenOp_memOk) | (with_reducible apply State.useWindow_memOk) | (with_reducible apply State.fetch_memOk) | (with_reducible apply ite_memOk) | (with_reducible apply ite_memOk_fst)

theorem State.vuStoreSlots_memOk {s r c t va ref last i e n blkNo} (hs : MemOk s) :
    MemOk (State.vuStoreSlots s r c t va ref last i e n blkNo).1 := by
  unfold State.vuStoreSlots
  try dsimp only
  repeat' first | (intro _) | (with_reducible assumption) | (with_reducible apply State.opFault_memOk) | (with_reducible apply State.setClu_memOk) | (with_reducible apply State.thenOp_memOk) | (with_reducible apply State.useWindow_memOk) | (with_reducible apply State.keepCodes_memOk) | (with_reducible apply State.untilIc_memOk) | (with_reducible apply State.fetch_memOk) | (with_reducible apply ite_memOk) | (with_reducible apply ite_memOk_fst)

theorem State.vuResult_memOk {s r c t lat vd srcs ws evs} (hs : MemOk s) :
    MemOk (State.vuResult s r c t lat vd srcs ws evs).1 := by
  unfold State.vuResult
  try dsimp only
  repeat' first | (intro _) | (with_reducible assumption) | (with_reducible apply State.opFault_memOk) | (with_reducible apply State.vuEvents_memOk) | (with_reducible apply State.pend_memOk) | (with_reducible apply ite_memOk) | (with_reducible apply ite_memOk_fst)

theorem State.vuTr_memOk {s r c t vd va fn} (hs : MemOk s) :
    MemOk (State.vuTr s r c t vd va fn).1 := by
  unfold State.vuTr
  try dsimp only
  repeat' first | (intro _) | (with_reducible assumption) | (with_reducible apply State.opFault_memOk) | (with_reducible apply State.vuResult_memOk) | (with_reducible apply State.setClu_memOk) | (with_reducible apply ite_memOk) | (with_reducible apply ite_memOk_fst)

theorem State.vuLoad_memOk {s r c t vd w i e rt ct} (hs : MemOk s) :
    MemOk (State.vuLoad s r c t vd w i e rt ct).1 := by
  unfold State.vuLoad
  try dsimp only
  repeat' first | (intro _) | (with_reducible assumption) | (with_reducible apply State.opFault_memOk) | (with_reducible apply State.untilIc_memOk) | (with_reducible apply State.thenOp_memOk) | (with_reducible apply State.useWindow_memOk) | (with_reducible apply State.vuResult_memOk) | (with_reducible apply State.readWave_memOk) | (with_reducible apply State.fetch_memOk) | (with_reducible apply ite_memOk) | (with_reducible apply ite_memOk_fst)

theorem State.vuAlu_memOk {s r c t code vd va vb vc w} (hs : MemOk s) :
    MemOk (State.vuAlu s r c t code vd va vb vc w).1 := by
  unfold State.vuAlu
  try dsimp only
  repeat' first | (intro _) | (with_reducible assumption) | (with_reducible apply State.vuResult_memOk)

theorem State.vuReduce_memOk {s r c t isMax vd va vc} (hs : MemOk s) :
    MemOk (State.vuReduce s r c t isMax vd va vc).1 := by
  unfold State.vuReduce
  try dsimp only
  repeat' first | (intro _) | (with_reducible assumption) | (with_reducible apply State.vuResult_memOk)

theorem State.vuMovi_memOk {s r c t vd imm} (hs : MemOk s) :
    MemOk (State.vuMovi s r c t vd imm).1 := by
  unfold State.vuMovi
  try dsimp only
  repeat' first | (intro _) | (with_reducible assumption) | (with_reducible apply State.vuResult_memOk)

theorem State.vuStore_memOk {s r c t va w i e rt ct} (hs : MemOk s) :
    MemOk (State.vuStore s r c t va w i e rt ct).1 := by
  unfold State.vuStore
  try dsimp only
  repeat' first | (intro _) | (with_reducible assumption) | (with_reducible apply State.opFault_memOk) | (with_reducible apply State.vuEvents_memOk) | (with_reducible apply State.thenOp_memOk) | (with_reducible apply State.useWindow_memOk) | (with_reducible apply State.untilIc_memOk) | (with_reducible apply State.writeAt_memOk) | (with_reducible apply ite_memOk) | (with_reducible apply ite_memOk_fst) | (with_reducible apply foldl_memOk)

theorem State.checkPieces_memOk {s ws} (hs : MemOk s) :
    MemOk (State.checkPieces s ws).1 := by
  unfold State.checkPieces
  try dsimp only
  repeat' first | (intro _) | (with_reducible assumption) | (with_reducible apply State.checkWrites_memOk) | (with_reducible apply State.noteFar_memOk) | (with_reducible apply ite_memOk) | (with_reducible apply ite_memOk_fst) | (with_reducible apply foldl_memOk) | (with_reducible apply foldl_memOk_fst)

theorem State.deliverAs_memOk {s src alloc ws} (hs : MemOk s) :
    MemOk (State.deliverAs s src alloc ws).1 := by
  unfold State.deliverAs
  try dsimp only
  repeat' first | (intro _) | (with_reducible assumption) | (with_reducible apply State.checkPieces_memOk) | (with_reducible apply State.inOrder_memOk) | (with_reducible apply State.hbmWriteBy_memOk) | (with_reducible apply State.inject_memOk) | (with_reducible apply State.pokes_memOk) | (with_reducible apply ite_memOk) | (with_reducible apply ite_memOk_fst) | (with_reducible apply foldl_memOk) | (with_reducible apply foldl_memOk_fst) | (with_reducible apply Tbl.wf_set) | (with_reducible apply Tbl.wf_cut) | (with_reducible apply Tbl.wf_copy) | (with_reducible apply Tbl.wf_filter) | split

theorem State.setHead_memOk {s key x} (hs : MemOk s) :
    MemOk (State.setHead s key x) := by
  unfold State.setHead
  try dsimp only
  repeat' first | (intro _) | (with_reducible assumption)

theorem State.stashFeedN_memOk {s : State} {key n} (hs : MemOk s) : MemOk (s.stashFeedN key n) := by
  induction n generalizing s with
  | zero => exact hs
  | succ n ih =>
    unfold State.stashFeedN
    split
    · exact hs
    · split
      · exact hs
      · split
        · exact hs
        · exact ih (State.setHead_memOk (State.stashRow_memOk hs))

theorem State.stashFeed_memOk {s key} (hs : MemOk s) :
    MemOk (State.stashFeed s key) := by
  unfold State.stashFeed
  try dsimp only
  repeat' first | (intro _) | (with_reducible assumption) | (with_reducible apply State.stashFeedN_memOk) | (with_reducible apply ite_memOk) | (with_reducible apply ite_memOk_fst) | (with_reducible apply foldl_memOk) | (with_reducible apply foldl_memOk_fst) | (with_reducible apply Tbl.wf_set) | (with_reducible apply Tbl.wf_cut) | (with_reducible apply Tbl.wf_copy) | (with_reducible apply Tbl.wf_filter) | split

theorem State.dmaEvents_memOk {s d ch evs} (hs : MemOk s) :
    MemOk (State.dmaEvents s d ch evs) := by
  unfold State.dmaEvents
  try dsimp only
  repeat' first | (intro _) | (with_reducible assumption) | (with_reducible apply State.inc_memOk) | (with_reducible apply ite_memOk) | (with_reducible apply ite_memOk_fst) | (with_reducible apply foldl_memOk) | (with_reducible apply foldl_memOk_fst) | (with_reducible apply Tbl.wf_set) | (with_reducible apply Tbl.wf_cut) | (with_reducible apply Tbl.wf_copy) | (with_reducible apply Tbl.wf_filter) | split

theorem State.dmaSend_memOk {s key} (hs : MemOk s) :
    MemOk (State.dmaSend s key) := by
  unfold State.dmaSend
  try dsimp only
  repeat' first | (intro _) | (with_reducible assumption) | (with_reducible apply State.pokes_memOk) | (with_reducible apply State.stashFeed_memOk) | (with_reducible apply State.setHead_memOk) | (with_reducible apply State.dmaEvents_memOk) | (with_reducible apply State.sendRemote_memOk) | (with_reducible apply ite_memOk) | (with_reducible apply ite_memOk_fst) | (with_reducible apply foldl_memOk) | (with_reducible apply foldl_memOk_fst) | (with_reducible apply Tbl.wf_set) | (with_reducible apply Tbl.wf_cut) | (with_reducible apply Tbl.wf_copy) | (with_reducible apply Tbl.wf_filter) | split

theorem State.dmaBegin_memOk {s key} (hs : MemOk s) :
    MemOk (State.dmaBegin s key) := by
  unfold State.dmaBegin
  try dsimp only
  repeat' first | (intro _) | (with_reducible assumption) | (with_reducible apply State.checkReadsAs_memOk) | (with_reducible apply State.setHead_memOk) | (with_reducible apply State.dmaSend_memOk) | (with_reducible apply ite_memOk) | (with_reducible apply ite_memOk_fst) | (with_reducible apply foldl_memOk) | (with_reducible apply foldl_memOk_fst) | (with_reducible apply Tbl.wf_set) | (with_reducible apply Tbl.wf_cut) | (with_reducible apply Tbl.wf_copy) | (with_reducible apply Tbl.wf_filter) | split

theorem State.move_memOk {s r c t i e rt ct} (hs : MemOk s) :
    MemOk (State.move s r c t i e rt ct).1 := by
  unfold State.move
  try dsimp only
  repeat' first | (intro _) | (with_reducible assumption) | (with_reducible apply State.opFault_memOk) | (with_reducible apply State.muFaultIn_memOk) | (with_reducible apply State.thenOp_memOk) | (with_reducible apply State.portUse_memOk) | (with_reducible apply State.fetch_memOk) | (with_reducible apply State.untilIc_memOk) | (with_reducible apply State.setClu_memOk) | (with_reducible apply ite_memOk) | (with_reducible apply ite_memOk_fst) | (with_reducible apply foldl_memOk) | (with_reducible apply foldl_memOk_fst) | (with_reducible apply Tbl.wf_set) | (with_reducible apply Tbl.wf_cut) | (with_reducible apply Tbl.wf_copy) | (with_reducible apply Tbl.wf_filter) | split

theorem State.moveEvents_memOk {s k evs} (hs : MemOk s) :
    MemOk (State.moveEvents s k evs) := by
  unfold State.moveEvents
  try dsimp only
  repeat' first | (intro _) | (with_reducible assumption) | (with_reducible apply State.inc_memOk) | (with_reducible apply ite_memOk) | (with_reducible apply ite_memOk_fst) | (with_reducible apply foldl_memOk) | (with_reducible apply foldl_memOk_fst) | (with_reducible apply Tbl.wf_set) | (with_reducible apply Tbl.wf_cut) | (with_reducible apply Tbl.wf_copy) | (with_reducible apply Tbl.wf_filter) | split

theorem State.deliverBy_memOk {s src ws} (hs : MemOk s) :
    MemOk (State.deliverBy s src ws).1 := by
  unfold State.deliverBy
  try dsimp only
  repeat' first | (intro _) | (with_reducible assumption) | (with_reducible apply State.deliverAs_memOk)

theorem State.takeMv_memOk {s r c t fid t0 op} (hs : MemOk s) :
    MemOk (State.takeMv s r c t fid t0 op) := by
  unfold State.takeMv
  try dsimp only
  repeat' first | (intro _) | (with_reducible assumption) | (with_reducible apply State.seen_memOk) | (with_reducible apply State.moveEvents_memOk) | (with_reducible apply State.dropFetch_memOk) | (with_reducible apply State.writeAt_memOk) | (with_reducible apply State.pend_memOk) | (with_reducible apply ite_memOk) | (with_reducible apply ite_memOk_fst) | (with_reducible apply foldl_memOk) | (with_reducible apply foldl_memOk_fst) | (with_reducible apply Tbl.wf_set) | (with_reducible apply Tbl.wf_cut) | (with_reducible apply Tbl.wf_copy) | (with_reducible apply Tbl.wf_filter) | split

theorem State.dmaGo_memOk {s r i e rt ct} (hs : MemOk s) :
    MemOk (State.dmaGo s r i e rt ct).1 := by
  unfold State.dmaGo
  try dsimp only
  repeat' first | (intro _) | (with_reducible assumption) | (with_reducible apply State.opFault_memOk) | (with_reducible apply State.dmaBegin_memOk) | (with_reducible apply State.setSeq_memOk) | (with_reducible apply ite_memOk) | (with_reducible apply ite_memOk_fst)

theorem State.stashWrite_memOk {s d x} (hs : MemOk s) :
    MemOk (State.stashWrite s d x) := by
  unfold State.stashWrite
  try dsimp only
  repeat' first | (intro _) | (with_reducible assumption) | (with_reducible apply State.stashLog_memOk) | (with_reducible apply State.inc_memOk) | (with_reducible apply State.notStashed_memOk) | (with_reducible apply State.inc48_memOk) | (with_reducible apply State.deliverAs_memOk) | (with_reducible apply State.stashEvents_memOk) | (with_reducible apply ite_memOk)

theorem State.deliver_memOk {s ws} (hs : MemOk s) :
    MemOk (State.deliver s ws).1 := by
  unfold State.deliver
  try dsimp only
  repeat' first | (intro _) | (with_reducible assumption) | (with_reducible apply State.deliverBy_memOk)

theorem State.shGroup_memOk {s r c t i n} (hs : MemOk s) :
    MemOk (State.shGroup s r c t i n) := by
  unfold State.shGroup
  try dsimp only
  repeat' first | (intro _) | (with_reducible assumption) | (with_reducible apply State.fetch_memOk) | (with_reducible apply State.setClu_memOk)

theorem State.refuseGroup_memOk {s r c t tileNo kind} (hs : MemOk s) :
    MemOk (State.refuseGroup s r c t tileNo kind).1 := by
  unfold State.refuseGroup
  try dsimp only
  repeat' first | (intro _) | (with_reducible assumption) | (with_reducible apply State.wr_memOk) | (with_reducible apply State.inc_memOk) | (with_reducible apply State.logPush_memOk) | (with_reducible apply State.shFault_memOk) | (with_reducible apply ite_memOk) | (with_reducible apply ite_memOk_fst) | (with_reducible apply foldl_memOk) | (with_reducible apply foldl_memOk_fst) | (with_reducible apply Tbl.wf_set) | (with_reducible apply Tbl.wf_cut) | (with_reducible apply Tbl.wf_copy) | (with_reducible apply Tbl.wf_filter) | split

theorem State.groupTake_memOk {s d r c t i n} (hs : MemOk s) :
    MemOk (State.groupTake s d r c t i n).1 := by
  unfold State.groupTake
  try dsimp only
  repeat' first | (intro _) | (with_reducible assumption) | (with_reducible apply State.inc_memOk) | (with_reducible apply State.refuseGroup_memOk) | (with_reducible apply State.pend_memOk) | (with_reducible apply State.wr_memOk) | (with_reducible apply State.writeAt_memOk) | (with_reducible apply ite_memOk) | (with_reducible apply ite_memOk_fst) | (with_reducible apply foldl_memOk)

theorem State.shPass_memOk {s r c t i} (hs : MemOk s) :
    MemOk (State.shPass s r c t i).1 := by
  unfold State.shPass
  try dsimp only
  repeat' first | (intro _) | (with_reducible assumption) | (with_reducible apply State.opFault_memOk) | (with_reducible apply State.shFault_memOk) | (with_reducible apply State.setClu_memOk) | (with_reducible apply State.pend_memOk) | (with_reducible apply State.setSeq_memOk) | (with_reducible apply ite_memOk) | (with_reducible apply ite_memOk_fst) | (with_reducible apply foldl_memOk)

theorem State.takeGroup_memOk {s r c t fid i n} (hs : MemOk s) :
    MemOk (State.takeGroup s r c t fid i n).1 := by
  unfold State.takeGroup
  try dsimp only
  repeat' first | (intro _) | (with_reducible assumption) | (with_reducible apply State.groupTake_memOk) | (with_reducible apply State.dropFetch_memOk)

theorem State.stopRegion_memOk {s r} (hs : MemOk s) :
    MemOk (State.stopRegion s r) := by
  unfold State.stopRegion
  try dsimp only
  repeat' first | (intro _) | (with_reducible assumption) | (with_reducible apply State.wr_memOk) | (with_reducible apply State.setSeq_memOk) | (with_reducible apply ite_memOk)

theorem State.dropXfers_memOk {s regions0} (hs : MemOk s) :
    MemOk (State.dropXfers s regions0) := by
  unfold State.dropXfers
  try dsimp only
  repeat' first | (intro _) | (with_reducible assumption)

theorem State.stopLaunch_memOk {s n} (hs : MemOk s) :
    MemOk (State.stopLaunch s n) := by
  unfold State.stopLaunch
  try dsimp only
  repeat' first | (intro _) | (with_reducible assumption) | (with_reducible apply State.stopRegion_memOk) | (with_reducible apply State.dropXfers_memOk) | (with_reducible apply ite_memOk) | (with_reducible apply ite_memOk_fst) | (with_reducible apply foldl_memOk)

theorem State.setLaunch_memOk {s n x} (hs : MemOk s) :
    MemOk (State.setLaunch s n x) := by
  unfold State.setLaunch
  try dsimp only
  repeat' first | (intro _) | (with_reducible assumption)

theorem State.abortLaunch_memOk {s n} (hs : MemOk s) :
    MemOk (State.abortLaunch s n) := by
  unfold State.abortLaunch
  try dsimp only
  repeat' first | (intro _) | (with_reducible assumption) | (with_reducible apply State.wr_memOk) | (with_reducible apply State.stopLaunch_memOk) | (with_reducible apply State.setLaunch_memOk) | (with_reducible apply ite_memOk)

theorem State.idlePeriod_memOk {s r} (hs : MemOk s) :
    MemOk (State.idlePeriod s r) := by
  unfold State.idlePeriod
  try dsimp only
  repeat' first | (intro _) | (with_reducible assumption) | (with_reducible apply State.inc48_memOk) | (with_reducible apply ite_memOk)

theorem State.regionComplete_memOk {s r} (hs : MemOk s) :
    MemOk (State.regionComplete s r) := by
  unfold State.regionComplete
  try dsimp only
  repeat' first | (intro _) | (with_reducible assumption) | (with_reducible apply State.wr_memOk) | (with_reducible apply State.setLaunch_memOk) | (with_reducible apply ite_memOk) | (with_reducible apply ite_memOk_fst) | (with_reducible apply foldl_memOk) | (with_reducible apply foldl_memOk_fst) | (with_reducible apply Tbl.wf_set) | (with_reducible apply Tbl.wf_cut) | (with_reducible apply Tbl.wf_copy) | (with_reducible apply Tbl.wf_filter) | split

theorem State.jump_memOk {s r imm} (hs : MemOk s) :
    MemOk (State.jump s r imm).1 := by
  unfold State.jump
  try dsimp only
  repeat' first | (intro _) | (with_reducible assumption) | (with_reducible apply State.setSeq_memOk) | (with_reducible apply State.opFault_memOk) | (with_reducible apply ite_memOk) | (with_reducible apply ite_memOk_fst)

theorem State.landWrites_memOk {s r c t rank accFmt ws} (hs : MemOk s) :
    MemOk (State.landWrites s r c t rank accFmt ws) := by
  unfold State.landWrites
  try dsimp only
  repeat' first | (intro _) | (with_reducible assumption) | (with_reducible apply State.checkWrites_memOk) | (with_reducible apply State.inOrder_memOk) | (with_reducible apply State.inject_memOk) | (with_reducible apply State.pokes_memOk) | (with_reducible apply State.accums_memOk) | (with_reducible apply State.wave_memOk) | (with_reducible apply State.sendRemote_memOk) | (with_reducible apply State.noteRebuilds_memOk) | (with_reducible apply State.ue_memOk) | (with_reducible apply ite_memOk) | (with_reducible apply ite_memOk_fst) | (with_reducible apply foldl_memOk) | (with_reducible apply foldl_memOk_fst) | (with_reducible apply Tbl.wf_set) | (with_reducible apply Tbl.wf_cut) | (with_reducible apply Tbl.wf_copy) | (with_reducible apply Tbl.wf_filter) | split

theorem State.capture_memOk {s r c t slot fid us} (hs : MemOk s) :
    MemOk (State.capture s r c t slot fid us) := by
  unfold State.capture
  try dsimp only
  repeat' first | (intro _) | (with_reducible assumption) | (with_reducible apply State.checkReads_memOk) | (with_reducible apply State.take_memOk) | (with_reducible apply State.ue_memOk) | (with_reducible apply State.readWave_memOk) | (with_reducible apply ite_memOk)

theorem State.takeMu_memOk {s r c fid t0 op} (hs : MemOk s) :
    MemOk (State.takeMu s r c fid t0 op) := by
  unfold State.takeMu
  try dsimp only
  repeat' first | (intro _) | (with_reducible assumption) | (with_reducible apply State.dropFetch_memOk) | (with_reducible apply State.loadTake_memOk) | (with_reducible apply State.seen_memOk) | (with_reducible apply ite_memOk) | (with_reducible apply ite_memOk_fst) | (with_reducible apply foldl_memOk) | (with_reducible apply foldl_memOk_fst) | (with_reducible apply Tbl.wf_set) | (with_reducible apply Tbl.wf_cut) | (with_reducible apply Tbl.wf_copy) | (with_reducible apply Tbl.wf_filter) | split

theorem State.dropPages_memOk {s r} (hs : MemOk s) :
    MemOk (State.dropPages s r) := by
  unfold State.dropPages
  try dsimp only
  repeat' first | (intro _) | (with_reducible assumption) | (with_reducible apply State.setMu_memOk) | (with_reducible apply ite_memOk) | (with_reducible apply ite_memOk_fst) | (with_reducible apply foldl_memOk)

theorem State.regionFaultIn_memOk {s r t b f} (hs : MemOk s) :
    MemOk (State.regionFaultIn s r t b f) := by
  unfold State.regionFaultIn
  try dsimp only
  repeat' first | (intro _) | (with_reducible assumption) | (with_reducible apply State.wrs_memOk) | (with_reducible apply State.setLaunch_memOk) | (with_reducible apply State.dropPages_memOk) | (with_reducible apply State.stopLaunch_memOk) | (with_reducible apply ite_memOk) | (with_reducible apply ite_memOk_fst) | (with_reducible apply foldl_memOk) | (with_reducible apply foldl_memOk_fst) | (with_reducible apply Tbl.wf_set) | (with_reducible apply Tbl.wf_cut) | (with_reducible apply Tbl.wf_copy) | (with_reducible apply Tbl.wf_filter) | split

theorem State.runAct_memOk {s r p} (hs : MemOk s) :
    MemOk (State.runAct s r p).1 := by
  unfold State.runAct
  try dsimp only
  repeat' first | (intro _) | (with_reducible assumption) | (with_reducible apply State.landWrites_memOk) | (with_reducible apply State.setVreg_memOk) | (with_reducible apply State.capture_memOk) | (with_reducible apply State.takeMu_memOk) | (with_reducible apply State.takeVu_memOk) | (with_reducible apply State.takeSv_memOk) | (with_reducible apply State.takeMv_memOk) | (with_reducible apply State.takeBias_memOk) | (with_reducible apply State.takeRow_memOk) | (with_reducible apply State.takeGroup_memOk) | (with_reducible apply State.runProduct_memOk) | (with_reducible apply State.drainRow_memOk) | (with_reducible apply State.drainMap_memOk) | (with_reducible apply State.stashRow_memOk) | (with_reducible apply State.shGroup_memOk) | (with_reducible apply State.refuseGroup_memOk) | (with_reducible apply State.regionFaultIn_memOk) | (with_reducible apply State.pageDrops_memOk) | (with_reducible apply ite_memOk) | (with_reducible apply ite_memOk_fst) | (with_reducible apply foldl_memOk) | (with_reducible apply foldl_memOk_fst) | (with_reducible apply Tbl.wf_set) | (with_reducible apply Tbl.wf_cut) | (with_reducible apply Tbl.wf_copy) | (with_reducible apply Tbl.wf_filter) | split

theorem State.flush_memOk {s : State} {r due n} (hs : MemOk s) : MemOk (s.flush r due n).1 := by
  induction n generalizing s with
  | zero => exact hs
  | succ n ih =>
    unfold State.flush
    dsimp only
    split
    · exact hs
    · split
      · exact hs
      · split
        · exact State.setSeq_memOk hs
        · split
          · exact State.runAct_memOk (State.setSeq_memOk hs)
          · exact ih (State.runAct_memOk (State.setSeq_memOk hs))

theorem State.shSlot_memOk {s r t op c} (hs : MemOk s) :
    MemOk (State.shSlot s r t op c).1 := by
  unfold State.shSlot
  try dsimp only
  repeat' first | (intro _) | (with_reducible assumption) | (with_reducible apply State.shPass_memOk) | (with_reducible apply ite_memOk) | (with_reducible apply ite_memOk_fst) | (with_reducible apply foldl_memOk) | (with_reducible apply foldl_memOk_fst) | (with_reducible apply Tbl.wf_set) | (with_reducible apply Tbl.wf_cut) | (with_reducible apply Tbl.wf_copy) | (with_reducible apply Tbl.wf_filter) | split

theorem State.eachCluster_memOk {f : State → Nat → OpR} {s : State} {l : List Nat} (hs : MemOk s)
    (hf : ∀ t c, MemOk t → MemOk (f t c).1) : MemOk (State.eachCluster f s l).1 := by
  induction l generalizing s with
  | nil => exact hs
  | cons c l ih =>
    unfold State.eachCluster
    dsimp only
    split
    · exact hf _ _ hs
    · exact ih (hf _ _ hs)

theorem State.muSlot_memOk {s r t op c} (hs : MemOk s) :
    MemOk (State.muSlot s r t op c).1 := by
  unfold State.muSlot
  try dsimp only
  repeat' first | (intro _) | (with_reducible assumption) | (with_reducible apply State.loadSlot_memOk) | (with_reducible apply State.mma_memOk) | (with_reducible apply State.smma_memOk) | (with_reducible apply State.sgw_memOk) | (with_reducible apply State.rake_memOk) | (with_reducible apply State.drain_memOk) | (with_reducible apply State.accZero_memOk) | (with_reducible apply ite_memOk) | (with_reducible apply ite_memOk_fst) | (with_reducible apply foldl_memOk) | (with_reducible apply foldl_memOk_fst) | (with_reducible apply Tbl.wf_set) | (with_reducible apply Tbl.wf_cut) | (with_reducible apply Tbl.wf_copy) | (with_reducible apply Tbl.wf_filter) | split

theorem State.vuSlot_memOk {s r t op c} (hs : MemOk s) :
    MemOk (State.vuSlot s r t op c).1 := by
  unfold State.vuSlot
  try dsimp only
  repeat' first | (intro _) | (with_reducible assumption) | (with_reducible apply State.vuLoad_memOk) | (with_reducible apply State.vuStore_memOk) | (with_reducible apply State.vuLoadSlots_memOk) | (with_reducible apply State.vuStoreSlots_memOk) | (with_reducible apply State.vuAlu_memOk) | (with_reducible apply State.vuMovi_memOk) | (with_reducible apply State.vuTr_memOk) | (with_reducible apply State.vuReduce_memOk) | (with_reducible apply ite_memOk) | (with_reducible apply ite_memOk_fst) | (with_reducible apply foldl_memOk) | (with_reducible apply foldl_memOk_fst) | (with_reducible apply Tbl.wf_set) | (with_reducible apply Tbl.wf_cut) | (with_reducible apply Tbl.wf_copy) | (with_reducible apply Tbl.wf_filter) | split

theorem State.svSlot_memOk {s r t op c} (hs : MemOk s) :
    MemOk (State.svSlot s r t op c).1 := by
  unfold State.svSlot
  try dsimp only
  repeat' first | (intro _) | (with_reducible assumption) | (with_reducible apply State.svLoad_memOk) | (with_reducible apply State.svZmap_memOk) | (with_reducible apply State.svTranspose_memOk) | (with_reducible apply ite_memOk) | (with_reducible apply ite_memOk_fst) | (with_reducible apply foldl_memOk) | (with_reducible apply foldl_memOk_fst) | (with_reducible apply Tbl.wf_set) | (with_reducible apply Tbl.wf_cut) | (with_reducible apply Tbl.wf_copy) | (with_reducible apply Tbl.wf_filter) | split

theorem State.mvSlot_memOk {s r t op c} (hs : MemOk s) :
    MemOk (State.mvSlot s r t op c).1 := by
  unfold State.mvSlot
  try dsimp only
  repeat' first | (intro _) | (with_reducible assumption) | (with_reducible apply State.dmaGo_memOk) | (with_reducible apply State.move_memOk) | (with_reducible apply ite_memOk) | (with_reducible apply ite_memOk_fst) | (with_reducible apply foldl_memOk) | (with_reducible apply foldl_memOk_fst) | (with_reducible apply Tbl.wf_set) | (with_reducible apply Tbl.wf_cut) | (with_reducible apply Tbl.wf_copy) | (with_reducible apply Tbl.wf_filter) | split

theorem State.setIx_memOk {s r d v} (hs : MemOk s) :
    MemOk (State.setIx s r d v) := by
  unfold State.setIx
  try dsimp only
  repeat' first | (intro _) | (with_reducible assumption) | (with_reducible apply State.setSeq_memOk) | (with_reducible apply ite_memOk)

theorem State.control_memOk {s r t op} (hs : MemOk s) :
    MemOk (State.control s r t op).1 := by
  unfold State.control
  try dsimp only
  repeat' first | (intro _) | (with_reducible assumption) | (with_reducible apply State.wr_memOk) | (with_reducible apply State.setSeq_memOk) | (with_reducible apply State.jump_memOk) | (with_reducible apply State.setIx_memOk) | (with_reducible apply State.opFault_memOk) | (with_reducible apply State.pend_memOk) | (with_reducible apply ite_memOk) | (with_reducible apply ite_memOk_fst) | (with_reducible apply foldl_memOk) | (with_reducible apply foldl_memOk_fst) | (with_reducible apply Tbl.wf_set) | (with_reducible apply Tbl.wf_cut) | (with_reducible apply Tbl.wf_copy) | (with_reducible apply Tbl.wf_filter) | split

theorem State.slots_memOk {s r t b} (hs : MemOk s) :
    MemOk (State.slots s r t b).1 := by
  unfold State.slots
  try dsimp only
  repeat' first | (intro _) | (with_reducible assumption) | (with_reducible apply State.thenOp_memOk) | (with_reducible apply State.eachCluster_memOk) | (with_reducible apply State.muSlot_memOk) | (with_reducible apply State.vuSlot_memOk) | (with_reducible apply State.svSlot_memOk) | (with_reducible apply State.shSlot_memOk) | (with_reducible apply State.mvSlot_memOk) | (with_reducible apply State.control_memOk)

theorem State.regionFault_memOk {s r t f} (hs : MemOk s) :
    MemOk (State.regionFault s r t f) := by
  unfold State.regionFault
  try dsimp only
  repeat' first | (intro _) | (with_reducible assumption) | (with_reducible apply State.regionFaultIn_memOk)

theorem State.countStretch_memOk {s r t h0} (hs : MemOk s) :
    MemOk (State.countStretch s r t h0) := by
  unfold State.countStretch
  try dsimp only
  repeat' first | (intro _) | (with_reducible assumption) | (with_reducible apply State.charge_memOk) | (with_reducible apply State.inc48_memOk) | (with_reducible apply State.inc_memOk) | (with_reducible apply ite_memOk) | (with_reducible apply ite_memOk_fst) | (with_reducible apply foldl_memOk)

theorem State.advance_memOk {s r h0} (hs : MemOk s) :
    MemOk (State.advance s r h0) := by
  unfold State.advance
  try dsimp only
  repeat' first | (intro _) | (with_reducible assumption) | (with_reducible apply State.shFault_memOk) | (with_reducible apply State.regionFault_memOk) | (with_reducible apply State.countStretch_memOk) | (with_reducible apply State.wrs_memOk) | (with_reducible apply State.setSeq_memOk) | (with_reducible apply ite_memOk) | (with_reducible apply ite_memOk_fst) | (with_reducible apply foldl_memOk) | (with_reducible apply foldl_memOk_fst) | (with_reducible apply Tbl.wf_set) | (with_reducible apply Tbl.wf_cut) | (with_reducible apply Tbl.wf_copy) | (with_reducible apply Tbl.wf_filter) | split

theorem State.endIc_memOk {s r} (hs : MemOk s) :
    MemOk (State.endIc s r) := by
  unfold State.endIc
  try dsimp only
  repeat' first | (intro _) | (with_reducible assumption) | (with_reducible apply State.sieveAdvance_memOk) | (with_reducible apply State.countSieve_memOk) | (with_reducible apply State.flush_memOk) | (with_reducible apply State.regionFault_memOk) | (with_reducible apply State.advance_memOk) | (with_reducible apply ite_memOk) | (with_reducible apply ite_memOk_fst) | (with_reducible apply foldl_memOk) | (with_reducible apply foldl_memOk_fst) | (with_reducible apply Tbl.wf_set) | (with_reducible apply Tbl.wf_cut) | (with_reducible apply Tbl.wf_copy) | (with_reducible apply Tbl.wf_filter) | split

theorem State.finish_memOk {s r} (hs : MemOk s) :
    MemOk (State.finish s r) := by
  unfold State.finish
  try dsimp only
  repeat' first | (intro _) | (with_reducible assumption) | (with_reducible apply State.flush_memOk) | (with_reducible apply State.regionFault_memOk) | (with_reducible apply State.setSeq_memOk) | (with_reducible apply State.endIc_memOk) | (with_reducible apply ite_memOk) | (with_reducible apply ite_memOk_fst) | (with_reducible apply foldl_memOk) | (with_reducible apply foldl_memOk_fst) | (with_reducible apply Tbl.wf_set) | (with_reducible apply Tbl.wf_cut) | (with_reducible apply Tbl.wf_copy) | (with_reducible apply Tbl.wf_filter) | split

theorem State.issue_memOk {s r b} (hs : MemOk s) :
    MemOk (State.issue s r b) := by
  unfold State.issue
  try dsimp only
  repeat' first | (intro _) | (with_reducible assumption) | (with_reducible apply State.setSeq_memOk) | (with_reducible apply State.flush_memOk) | (with_reducible apply State.thenOp_memOk) | (with_reducible apply State.opFault_memOk) | (with_reducible apply State.slots_memOk) | (with_reducible apply State.regionFault_memOk) | (with_reducible apply State.finish_memOk) | (with_reducible apply ite_memOk) | (with_reducible apply ite_memOk_fst) | (with_reducible apply foldl_memOk) | (with_reducible apply foldl_memOk_fst) | (with_reducible apply Tbl.wf_set) | (with_reducible apply Tbl.wf_cut) | (with_reducible apply Tbl.wf_copy) | (with_reducible apply Tbl.wf_filter) | split

theorem State.issueKernel_memOk {s r} (hs : MemOk s) :
    MemOk (State.issueKernel s r) := by
  unfold State.issueKernel
  try dsimp only
  repeat' first | (intro _) | (with_reducible assumption) | (with_reducible apply State.issue_memOk) | (with_reducible apply State.regionFault_memOk) | (with_reducible apply State.setSeq_memOk) | (with_reducible apply ite_memOk) | (with_reducible apply ite_memOk_fst) | (with_reducible apply foldl_memOk) | (with_reducible apply foldl_memOk_fst) | (with_reducible apply Tbl.wf_set) | (with_reducible apply Tbl.wf_cut) | (with_reducible apply Tbl.wf_copy) | (with_reducible apply Tbl.wf_filter) | split

theorem State.tickRegion_memOk {s r} (hs : MemOk s) :
    MemOk (State.tickRegion s r) := by
  unfold State.tickRegion
  try dsimp only
  repeat' first | (intro _) | (with_reducible assumption) | (with_reducible apply State.issueKernel_memOk) | (with_reducible apply State.finish_memOk) | (with_reducible apply ite_memOk)

theorem State.eventArrival_memOk {s src} (hs : MemOk s) :
    MemOk (State.eventArrival s src) := by
  unfold State.eventArrival
  try dsimp only
  repeat' first | (intro _) | (with_reducible assumption) | (with_reducible apply State.wr_memOk) | (with_reducible apply ite_memOk) | (with_reducible apply ite_memOk_fst) | (with_reducible apply foldl_memOk) | (with_reducible apply foldl_memOk_fst) | (with_reducible apply Tbl.wf_set) | (with_reducible apply Tbl.wf_cut) | (with_reducible apply Tbl.wf_copy) | (with_reducible apply Tbl.wf_filter) | split

theorem State.stashDone_memOk {s d region} (hs : MemOk s) :
    MemOk (State.stashDone s d region) := by
  unfold State.stashDone
  try dsimp only
  repeat' first | (intro _) | (with_reducible assumption) | (with_reducible apply State.queueTouched_memOk) | (with_reducible apply State.stashWrite_memOk) | (with_reducible apply State.stashFeed_memOk) | (with_reducible apply ite_memOk) | (with_reducible apply ite_memOk_fst) | (with_reducible apply foldl_memOk) | (with_reducible apply foldl_memOk_fst) | (with_reducible apply Tbl.wf_set) | (with_reducible apply Tbl.wf_cut) | (with_reducible apply Tbl.wf_copy) | (with_reducible apply Tbl.wf_filter) | split

theorem State.wrBit_memOk {s f i b} (hs : MemOk s) :
    MemOk (State.wrBit s f i b) := by
  unfold State.wrBit
  try dsimp only
  repeat' first | (intro _) | (with_reducible assumption) | (with_reducible apply State.wr_memOk)

theorem State.noteWaker_memOk {s r t} (hs : MemOk s) :
    MemOk (State.noteWaker s r t) := by
  unfold State.noteWaker
  try dsimp only
  repeat' first | (intro _) | (with_reducible assumption) | (with_reducible apply State.wr_memOk) | (with_reducible apply ite_memOk)

theorem State.serveWave_memOk {s forced w} (hs : MemOk s) :
    MemOk (State.serveWave s forced w) := by
  unfold State.serveWave
  try dsimp only
  repeat' first | (intro _) | (with_reducible assumption) | (with_reducible apply State.wave_memOk) | (with_reducible apply ite_memOk)

theorem State.farFault_memOk {s r code} (hs : MemOk s) :
    MemOk (State.farFault s r code) := by
  unfold State.farFault
  try dsimp only
  repeat' first | (intro _) | (with_reducible assumption) | (with_reducible apply State.regionFault_memOk) | (with_reducible apply ite_memOk)

theorem State.srcFault_memOk {s src code} (hs : MemOk s) :
    MemOk (State.srcFault s src code) := by
  unfold State.srcFault
  try dsimp only
  repeat' first | (intro _) | (with_reducible assumption) | (with_reducible apply State.farFault_memOk) | (with_reducible apply State.setHead_memOk) | (with_reducible apply ite_memOk) | (with_reducible apply ite_memOk_fst) | (with_reducible apply foldl_memOk) | (with_reducible apply foldl_memOk_fst) | (with_reducible apply Tbl.wf_set) | (with_reducible apply Tbl.wf_cut) | (with_reducible apply Tbl.wf_copy) | (with_reducible apply Tbl.wf_filter) | split

theorem State.serveRead_memOk {s w fid} (hs : MemOk s) :
    MemOk (State.serveRead s w fid) := by
  unfold State.serveRead
  try dsimp only
  repeat' first | (intro _) | (with_reducible assumption) | (with_reducible apply State.checkReads_memOk) | (with_reducible apply State.noteFar_memOk) | (with_reducible apply State.setSeq_memOk) | (with_reducible apply State.setHead_memOk) | (with_reducible apply State.dmaSend_memOk) | (with_reducible apply State.srcFault_memOk) | (with_reducible apply ite_memOk) | (with_reducible apply ite_memOk_fst) | (with_reducible apply foldl_memOk) | (with_reducible apply foldl_memOk_fst) | (with_reducible apply Tbl.wf_set) | (with_reducible apply Tbl.wf_cut) | (with_reducible apply Tbl.wf_copy) | (with_reducible apply Tbl.wf_filter) | split

theorem State.serveWrite_memOk {s w} (hs : MemOk s) :
    MemOk (State.serveWrite s w) := by
  unfold State.serveWrite
  try dsimp only
  repeat' first | (intro _) | (with_reducible assumption) | (with_reducible apply State.checkWrites_memOk) | (with_reducible apply State.noteFar_memOk) | (with_reducible apply State.accums_memOk) | (with_reducible apply State.srcFault_memOk) | (with_reducible apply State.deliver_memOk) | (with_reducible apply ite_memOk) | (with_reducible apply ite_memOk_fst) | (with_reducible apply foldl_memOk) | (with_reducible apply foldl_memOk_fst) | (with_reducible apply Tbl.wf_set) | (with_reducible apply Tbl.wf_cut) | (with_reducible apply Tbl.wf_copy) | (with_reducible apply Tbl.wf_filter) | split

theorem State.serveRemote_memOk {s n wait forced} (hs : MemOk s) :
    MemOk (State.serveRemote s n wait forced) := by
  unfold State.serveRemote
  try dsimp only
  repeat' first | (intro _) | (with_reducible assumption) | (with_reducible apply State.wrBit_memOk) | (with_reducible apply State.noteWaker_memOk) | (with_reducible apply State.queueTouched_memOk) | (with_reducible apply State.inc_memOk) | (with_reducible apply State.serveWave_memOk) | (with_reducible apply State.serveRead_memOk) | (with_reducible apply State.serveWrite_memOk) | (with_reducible apply State.shFault_memOk) | (with_reducible apply State.regionFault_memOk) | (with_reducible apply ite_memOk) | (with_reducible apply ite_memOk_fst) | (with_reducible apply foldl_memOk) | (with_reducible apply foldl_memOk_fst) | (with_reducible apply Tbl.wf_set) | (with_reducible apply Tbl.wf_cut) | (with_reducible apply Tbl.wf_copy) | (with_reducible apply Tbl.wf_filter) | split

theorem State.countHolds_memOk {s : State} {r periods l} (hs : MemOk s) : MemOk (s.countHolds r periods l) := by
  unfold State.countHolds
  dsimp only
  have h : ∀ (u : State) (b : Bool) (f : Fld), MemOk u → MemOk (if b then u.inc f periods else u) := fun u b f hu =>
    ite_memOk (State.inc_memOk hu) hu
  exact State.charge_memOk (State.inc48_memOk (State.inc_memOk (h _ _ _ (h _ _ _ (h _ _ _ (h _ _ _ hs))))))

theorem State.dmaDone_memOk {s d ch} (hs : MemOk s) :
    MemOk (State.dmaDone s d ch) := by
  unfold State.dmaDone
  try dsimp only
  repeat' first | (intro _) | (with_reducible assumption) | (with_reducible apply State.dmaBegin_memOk) | (with_reducible apply State.queueTouched_memOk) | (with_reducible apply State.deliverAs_memOk) | (with_reducible apply State.farFault_memOk) | (with_reducible apply State.wr_memOk) | (with_reducible apply ite_memOk) | (with_reducible apply ite_memOk_fst) | (with_reducible apply foldl_memOk) | (with_reducible apply foldl_memOk_fst) | (with_reducible apply Tbl.wf_set) | (with_reducible apply Tbl.wf_cut) | (with_reducible apply Tbl.wf_copy) | (with_reducible apply Tbl.wf_filter) | split

theorem State.resetTimes_memOk {s r} (hs : MemOk s) :
    MemOk (State.resetTimes s r) := by
  unfold State.resetTimes
  try dsimp only
  repeat' first | (intro _) | (with_reducible assumption) | (with_reducible apply State.setClu_memOk) | (with_reducible apply ite_memOk) | (with_reducible apply ite_memOk_fst) | (with_reducible apply foldl_memOk)

theorem State.endHold_memOk {s a} (hs : MemOk s) :
    MemOk (State.endHold s a) := by
  unfold State.endHold
  try dsimp only
  repeat' first | (intro _) | (with_reducible assumption) | (with_reducible apply ite_memOk) | (with_reducible apply ite_memOk_fst) | (with_reducible apply foldl_memOk) | (with_reducible apply foldl_memOk_fst) | (with_reducible apply Tbl.wf_set) | (with_reducible apply Tbl.wf_cut) | (with_reducible apply Tbl.wf_copy) | (with_reducible apply Tbl.wf_filter) | split

theorem State.sqAbort_memOk {s r} (hs : MemOk s) :
    MemOk (State.sqAbort s r) := by
  unfold State.sqAbort
  try dsimp only
  repeat' first | (intro _) | (with_reducible assumption) | (with_reducible apply State.abortLaunch_memOk) | (with_reducible apply State.wr_memOk) | (with_reducible apply ite_memOk) | (with_reducible apply ite_memOk_fst) | (with_reducible apply foldl_memOk) | (with_reducible apply foldl_memOk_fst) | (with_reducible apply Tbl.wf_set) | (with_reducible apply Tbl.wf_cut) | (with_reducible apply Tbl.wf_copy) | (with_reducible apply Tbl.wf_filter) | split

theorem State.tick_memOk {s} (hs : MemOk s) :
    MemOk (State.tick s) := by
  unfold State.tick
  try dsimp only
  repeat' first | (intro _) | (with_reducible assumption) | (with_reducible apply State.idlePeriod_memOk) | (with_reducible apply State.tickRegion_memOk) | (with_reducible apply ite_memOk) | (with_reducible apply ite_memOk_fst) | (with_reducible apply foldl_memOk)

theorem State.issueOp_memOk {s r b} (hs : MemOk s) :
    MemOk (State.issueOp s r b) := by
  unfold State.issueOp
  try dsimp only
  repeat' first | (intro _) | (with_reducible assumption) | (with_reducible apply State.issue_memOk) | (with_reducible apply ite_memOk)

theorem State.dropAliased_memOk {s n} (hs : MemOk s) :
    MemOk (State.dropAliased s n) := by
  unfold State.dropAliased
  try dsimp only
  repeat' first | (intro _) | (with_reducible assumption)

theorem State.holdEnd_memOk {s r periods} (hs : MemOk s) :
    MemOk (State.holdEnd s r periods) := by
  unfold State.holdEnd
  try dsimp only
  repeat' first | (intro _) | (with_reducible assumption) | (with_reducible apply State.setSeq_memOk) | (with_reducible apply State.countHolds_memOk) | (with_reducible apply State.sieveAdvance_memOk) | (with_reducible apply State.endHold_memOk) | (with_reducible apply State.finish_memOk) | (with_reducible apply ite_memOk) | (with_reducible apply ite_memOk_fst) | (with_reducible apply foldl_memOk)

theorem State.waitTimeout_memOk {s r} (hs : MemOk s) :
    MemOk (State.waitTimeout s r) := by
  unfold State.waitTimeout
  try dsimp only
  repeat' first | (intro _) | (with_reducible assumption) | (with_reducible apply State.regionFault_memOk) | (with_reducible apply ite_memOk)

theorem State.regionStart_memOk {s r} (hs : MemOk s) :
    MemOk (State.regionStart s r) := by
  unfold State.regionStart
  try dsimp only
  repeat' first | (intro _) | (with_reducible assumption) | (with_reducible apply State.wrs_memOk) | (with_reducible apply State.resetTimes_memOk) | (with_reducible apply State.setSeq_memOk) | (with_reducible apply State.regionFault_memOk) | (with_reducible apply State.issueKernel_memOk) | (with_reducible apply ite_memOk) | (with_reducible apply ite_memOk_fst) | (with_reducible apply foldl_memOk) | (with_reducible apply foldl_memOk_fst) | (with_reducible apply Tbl.wf_set) | (with_reducible apply Tbl.wf_cut) | (with_reducible apply Tbl.wf_copy) | (with_reducible apply Tbl.wf_filter) | split

theorem State.mapOutRequest_memOk {s c row bank} (hs : MemOk s) :
    MemOk (State.mapOutRequest s c row bank) := by
  unfold State.mapOutRequest
  try dsimp only
  repeat' first | (intro _) | (with_reducible assumption) | (with_reducible apply State.wrs_memOk)

theorem State.zeroKeys_memOk {s lo hi} (hs : MemOk s) :
    MemOk (State.zeroKeys s lo hi) := by
  unfold State.zeroKeys
  try dsimp only
  repeat' first | (intro _) | (with_reducible assumption) | (with_reducible apply ite_memOk) | (with_reducible apply ite_memOk_fst) | (with_reducible apply foldl_memOk) | (with_reducible apply foldl_memOk_fst) | (with_reducible apply Tbl.wf_set) | (with_reducible apply Tbl.wf_cut)

theorem State.pwrLog_memOk {s kind index die st region aborted} (hs : MemOk s) :
    MemOk (State.pwrLog s kind index die st region aborted) := by
  unfold State.pwrLog
  try dsimp only
  repeat' first | (intro _) | (with_reducible assumption) | (with_reducible apply State.logPush_memOk)

theorem State.closeIngress_memOk {s r} (hs : MemOk s) :
    MemOk (State.closeIngress s r) := by
  unfold State.closeIngress
  try dsimp only
  repeat' first | (intro _) | (with_reducible assumption) | (with_reducible apply State.wrs_memOk)

theorem State.gateRequest_memOk {s mask0} (hs : MemOk s) :
    MemOk (State.gateRequest s mask0) := by
  unfold State.gateRequest
  try dsimp only
  repeat' first | (intro _) | (with_reducible assumption) | (with_reducible apply State.pwrLog_memOk) | (with_reducible apply State.inc_memOk) | (with_reducible apply State.wrBit_memOk) | (with_reducible apply State.closeIngress_memOk) | (with_reducible apply ite_memOk) | (with_reducible apply ite_memOk_fst) | (with_reducible apply foldl_memOk)

theorem State.zeroLost_memOk {s r} (hs : MemOk s) :
    MemOk (State.zeroLost s r) := by
  unfold State.zeroLost
  try dsimp only
  repeat' first | (intro _) | (with_reducible assumption) | (with_reducible apply State.zeroKeys_memOk) | (with_reducible apply ite_memOk) | (with_reducible apply ite_memOk_fst) | (with_reducible apply foldl_memOk)

theorem State.spareCount_memOk {s c b} (hs : MemOk s) :
    MemOk (State.spareCount s c b) := by
  unfold State.spareCount
  try dsimp only
  repeat' first | (intro _) | (with_reducible assumption) | (with_reducible apply State.wr_memOk)

theorem State.remapWrite_memOk {s c b e lrow valid} (hs : MemOk s) :
    MemOk (State.remapWrite s c b e lrow valid) := by
  unfold State.remapWrite
  try dsimp only
  repeat' first | (intro _) | (with_reducible assumption) | (with_reducible apply State.wr_memOk) | (with_reducible apply State.spareCount_memOk) | (with_reducible apply State.wrs_memOk) | (with_reducible apply ite_memOk)

theorem State.zeroTiles_memOk {s k} (hs : MemOk s) :
    MemOk (State.zeroTiles s k) := by
  unfold State.zeroTiles
  try dsimp only
  repeat' first | (intro _) | (with_reducible assumption) | (with_reducible apply State.setClu_memOk)

theorem State.zeroRegion_memOk {s r} (hs : MemOk s) :
    MemOk (State.zeroRegion s r) := by
  unfold State.zeroRegion
  try dsimp only
  repeat' first | (intro _) | (with_reducible assumption) | (with_reducible apply State.zeroTiles_memOk) | (with_reducible apply State.zeroKeys_memOk) | (with_reducible apply State.dropPages_memOk) | (with_reducible apply ite_memOk) | (with_reducible apply ite_memOk_fst) | (with_reducible apply foldl_memOk)

theorem State.zeroDone_memOk {s r} (hs : MemOk s) :
    MemOk (State.zeroDone s r) := by
  unfold State.zeroDone
  try dsimp only
  repeat' first | (intro _) | (with_reducible assumption) | (with_reducible apply State.inc_memOk) | (with_reducible apply State.wrs_memOk) | (with_reducible apply State.zeroRegion_memOk) | (with_reducible apply ite_memOk)

theorem State.wakeRegion_memOk {s r} (hs : MemOk s) :
    MemOk (State.wakeRegion s r) := by
  unfold State.wakeRegion
  try dsimp only
  repeat' first | (intro _) | (with_reducible assumption) | (with_reducible apply State.wr_memOk) | (with_reducible apply State.wrBit_memOk) | (with_reducible apply State.inc_memOk) | (with_reducible apply ite_memOk)

theorem State.spZero_memOk {s r} (hs : MemOk s) :
    MemOk (State.spZero s r) := by
  unfold State.spZero
  try dsimp only
  repeat' first | (intro _) | (with_reducible assumption) | (with_reducible apply State.wrs_memOk) | (with_reducible apply State.wakeRegion_memOk) | (with_reducible apply State.noteWaker_memOk) | (with_reducible apply ite_memOk)

theorem State.mapOut_memOk {s c} (hs : MemOk s) :
    MemOk (State.mapOut s c) := by
  unfold State.mapOut
  try dsimp only
  repeat' first | (intro _) | (with_reducible assumption) | (with_reducible apply State.wr_memOk) | (with_reducible apply State.hltLog_memOk) | (with_reducible apply State.rowAccess_memOk) | (with_reducible apply State.spareCount_memOk) | (with_reducible apply State.wrs_memOk) | (with_reducible apply ite_memOk) | (with_reducible apply ite_memOk_fst) | (with_reducible apply foldl_memOk) | (with_reducible apply foldl_memOk_fst) | (with_reducible apply Tbl.wf_set) | (with_reducible apply Tbl.wf_cut) | (with_reducible apply Tbl.wf_copy) | (with_reducible apply Tbl.wf_filter) | split

theorem State.mapOutExecute_memOk {s c} (hs : MemOk s) :
    MemOk (State.mapOutExecute s c) := by
  unfold State.mapOutExecute
  try dsimp only
  repeat' first | (intro _) | (with_reducible assumption) | (with_reducible apply State.mapOut_memOk) | (with_reducible apply ite_memOk)

theorem State.pwrMsg_memOk {s code region} (hs : MemOk s) :
    MemOk (State.pwrMsg s code region) := by
  unfold State.pwrMsg
  try dsimp only
  repeat' first | (intro _) | (with_reducible assumption) | (with_reducible apply State.wrs_memOk)

theorem State.powerDown_memOk {s r} (hs : MemOk s) :
    MemOk (State.powerDown s r) := by
  unfold State.powerDown
  try dsimp only
  repeat' first | (intro _) | (with_reducible assumption) | (with_reducible apply State.setClu_memOk) | (with_reducible apply State.zeroLost_memOk) | (with_reducible apply State.wr_memOk) | (with_reducible apply State.wrBit_memOk) | (with_reducible apply State.setSeq_memOk) | (with_reducible apply ite_memOk) | (with_reducible apply ite_memOk_fst) | (with_reducible apply foldl_memOk)

theorem State.gateDone_memOk {s r} (hs : MemOk s) :
    MemOk (State.gateDone s r) := by
  unfold State.gateDone
  try dsimp only
  repeat' first | (intro _) | (with_reducible assumption) | (with_reducible apply State.pwrMsg_memOk) | (with_reducible apply State.inc_memOk) | (with_reducible apply State.powerDown_memOk) | (with_reducible apply State.wrBit_memOk) | (with_reducible apply State.noteWaker_memOk) | (with_reducible apply ite_memOk) | (with_reducible apply ite_memOk_fst) | (with_reducible apply foldl_memOk) | (with_reducible apply foldl_memOk_fst) | (with_reducible apply Tbl.wf_set) | (with_reducible apply Tbl.wf_cut) | (with_reducible apply Tbl.wf_copy) | (with_reducible apply Tbl.wf_filter) | split

theorem State.wakeBy_memOk {s mask0 who} (hs : MemOk s) :
    MemOk (State.wakeBy s mask0 who) := by
  unfold State.wakeBy
  try dsimp only
  repeat' first | (intro _) | (with_reducible assumption) | (with_reducible apply State.wrBit_memOk) | (with_reducible apply State.noteWaker_memOk) | (with_reducible apply ite_memOk) | (with_reducible apply ite_memOk_fst) | (with_reducible apply foldl_memOk)

theorem State.wakeRequest_memOk {s mask0} (hs : MemOk s) :
    MemOk (State.wakeRequest s mask0) := State.wakeBy_memOk hs

theorem State.gateCancel_memOk {s r} (hs : MemOk s) :
    MemOk (State.gateCancel s r) := by
  unfold State.gateCancel
  try dsimp only
  repeat' first | (intro _) | (with_reducible assumption) | (with_reducible apply State.wrBit_memOk) | (with_reducible apply State.wr_memOk)

theorem State.gateStart_memOk {s r} (hs : MemOk s) :
    MemOk (State.gateStart s r) := by
  unfold State.gateStart
  try dsimp only
  repeat' first | (intro _) | (with_reducible assumption) | (with_reducible apply State.closeIngress_memOk) | (with_reducible apply ite_memOk)

theorem State.gateTimeout_memOk {s r} (hs : MemOk s) :
    MemOk (State.gateTimeout s r) := by
  unfold State.gateTimeout
  try dsimp only
  repeat' first | (intro _) | (with_reducible assumption) | (with_reducible apply State.pwrMsg_memOk) | (with_reducible apply State.pwrLog_memOk) | (with_reducible apply State.inc_memOk) | (with_reducible apply State.wrBit_memOk) | (with_reducible apply State.wr_memOk) | (with_reducible apply ite_memOk) | (with_reducible apply ite_memOk_fst) | (with_reducible apply foldl_memOk) | (with_reducible apply foldl_memOk_fst) | (with_reducible apply Tbl.wf_set) | (with_reducible apply Tbl.wf_cut) | (with_reducible apply Tbl.wf_copy) | (with_reducible apply Tbl.wf_filter) | split

end Sys2Proof.Machine
end

