-- ==== Sys2Proof/Laws/MemLaunch.lean ====
section
/-!
SUPPORT. Memory keeps its canonical form: the operations of launches, HBM commands, tables, arbiters and links.
-/


namespace Sys2Proof.Machine

theorem State.ringPut_memOk {s n} (hs : MemOk s) :
    MemOk (State.ringPut s n) := by
  unfold State.ringPut
  try dsimp only
  repeat' first | (intro _) | (with_reducible assumption) | (with_reducible apply State.wr_memOk) | (with_reducible apply State.hbmWrite_memOk)

theorem State.commitRec_memOk {s n} (hs : MemOk s) :
    MemOk (State.commitRec s n) := by
  unfold State.commitRec
  try dsimp only
  repeat' first | (intro _) | (with_reducible assumption) | (with_reducible apply State.wr_memOk) | (with_reducible apply State.ringPut_memOk) | (with_reducible apply ite_memOk) | (with_reducible apply ite_memOk_fst) | (with_reducible apply foldl_memOk)

theorem State.readOwn_memOk {s t a n code} (hs : MemOk s) :
    MemOk (State.readOwn s t a n code).1 := by
  unfold State.readOwn
  try dsimp only
  repeat' first | (intro _) | (with_reducible assumption) | (with_reducible apply State.hbmRead_memOk) | (with_reducible apply ite_memOk) | (with_reducible apply ite_memOk_fst)

theorem State.readLaunch_memOk {s lr} (hs : MemOk s) :
    MemOk (State.readLaunch s lr).1 := by
  unfold State.readLaunch
  try dsimp only
  repeat' first | (intro _) | (with_reducible assumption) | (with_reducible apply State.readOwn_memOk) | (with_reducible apply ite_memOk) | (with_reducible apply ite_memOk_fst) | (with_reducible apply foldl_memOk) | (with_reducible apply foldl_memOk_fst) | (with_reducible apply Tbl.wf_set) | (with_reducible apply Tbl.wf_cut) | (with_reducible apply Tbl.wf_copy) | (with_reducible apply Tbl.wf_filter) | split

theorem State.readHeaders_memOk {s : State} {x i d l acc} (hs : MemOk s) : MemOk (s.readHeaders x i d l acc).1 := by
  induction l generalizing s acc with
  | nil => exact hs
  | cons e l ih =>
    unfold State.readHeaders
    dsimp only
    split
    · exact hs
    · split
      · exact ih hs
      · split
        · exact State.hbmRead_memOk hs
        · exact ih (State.hbmRead_memOk hs)

theorem State.checkDesc_memOk {s x i} (hs : MemOk s) :
    MemOk (State.checkDesc s x i).1 := by
  unfold State.checkDesc
  try dsimp only
  repeat' first | (intro _) | (with_reducible assumption) | (with_reducible apply State.readOwn_memOk) | (with_reducible apply State.readHeaders_memOk) | (with_reducible apply ite_memOk) | (with_reducible apply ite_memOk_fst) | (with_reducible apply foldl_memOk) | (with_reducible apply foldl_memOk_fst) | (with_reducible apply Tbl.wf_set) | (with_reducible apply Tbl.wf_cut) | (with_reducible apply Tbl.wf_copy) | (with_reducible apply Tbl.wf_filter) | split

theorem State.checkDescs_memOk {s x a} (hs : MemOk s) :
    MemOk (State.checkDescs s x a).1 := by
  fun_induction State.checkDescs s x a <;>
    (repeat' first | (intro _) | extract_lets | (with_reducible assumption) | (with_reducible apply_assumption) | (with_reducible apply State.checkDesc_memOk))

theorem State.checkAll_memOk {s x} (hs : MemOk s) :
    MemOk (State.checkAll s x).1 := by
  unfold State.checkAll
  try dsimp only
  repeat' first | (intro _) | (with_reducible assumption) | (with_reducible apply State.checkDescs_memOk) | (with_reducible apply ite_memOk) | (with_reducible apply ite_memOk_fst) | (with_reducible apply foldl_memOk) | (with_reducible apply foldl_memOk_fst) | (with_reducible apply Tbl.wf_set) | (with_reducible apply Tbl.wf_cut) | (with_reducible apply Tbl.wf_copy) | (with_reducible apply Tbl.wf_filter) | split

theorem State.validate_memOk {s lr} (hs : MemOk s) :
    MemOk (State.validate s lr).1 := by
  unfold State.validate
  try dsimp only
  repeat' first | (intro _) | (with_reducible assumption) | (with_reducible apply State.readLaunch_memOk) | (with_reducible apply State.checkAll_memOk) | (with_reducible apply ite_memOk) | (with_reducible apply ite_memOk_fst) | (with_reducible apply foldl_memOk) | (with_reducible apply foldl_memOk_fst) | (with_reducible apply Tbl.wf_set) | (with_reducible apply Tbl.wf_cut) | (with_reducible apply Tbl.wf_copy) | (with_reducible apply Tbl.wf_filter) | split

theorem State.accept_memOk {s core x} (hs : MemOk s) :
    MemOk (State.accept s core x) := by
  unfold State.accept
  try dsimp only
  repeat' first | (intro _) | (with_reducible assumption) | (with_reducible apply State.wr_memOk) | (with_reducible apply State.inc_memOk) | (with_reducible apply State.wrs_memOk) | (with_reducible apply State.setSeq_memOk) | (with_reducible apply State.gateCancel_memOk) | (with_reducible apply State.wakeRegion_memOk) | (with_reducible apply State.noteWaker_memOk) | (with_reducible apply State.setLaunch_memOk) | (with_reducible apply ite_memOk) | (with_reducible apply ite_memOk_fst) | (with_reducible apply foldl_memOk)

theorem State.validateWindow_memOk {s lr loops w} (hs : MemOk s) :
    MemOk (State.validateWindow s lr loops w).1 := by
  unfold State.validateWindow
  try dsimp only
  repeat' first | (intro _) | (with_reducible assumption) | (with_reducible apply State.readLaunch_memOk) | (with_reducible apply State.checkAll_memOk) | (with_reducible apply ite_memOk) | (with_reducible apply ite_memOk_fst) | (with_reducible apply foldl_memOk) | (with_reducible apply foldl_memOk_fst) | (with_reducible apply Tbl.wf_set) | (with_reducible apply Tbl.wf_cut) | (with_reducible apply Tbl.wf_copy) | (with_reducible apply Tbl.wf_filter) | split

theorem State.startWindow_memOk {s c lr loops w} (hs : MemOk s) :
    MemOk (State.startWindow s c lr loops w) := by
  unfold State.startWindow
  try dsimp only
  repeat' first | (intro _) | (with_reducible assumption) | (with_reducible apply State.validateWindow_memOk) | (with_reducible apply State.commitRec_memOk) | (with_reducible apply State.accept_memOk) | (with_reducible apply State.setLaunch_memOk) | (with_reducible apply ite_memOk) | (with_reducible apply ite_memOk_fst) | (with_reducible apply foldl_memOk) | (with_reducible apply foldl_memOk_fst) | (with_reducible apply Tbl.wf_set) | (with_reducible apply Tbl.wf_cut) | (with_reducible apply Tbl.wf_copy) | (with_reducible apply Tbl.wf_filter) | split

theorem State.conclude_memOk {z c lr} (hz : MemOk z.1) :
    MemOk (State.conclude z c lr) := by
  unfold State.conclude
  try dsimp only
  repeat' first | (intro _) | (with_reducible assumption) | (with_reducible apply State.accept_memOk) | (with_reducible apply State.startWindow_memOk) | (with_reducible apply State.commitRec_memOk) | (with_reducible apply ite_memOk) | (with_reducible apply ite_memOk_fst) | (with_reducible apply foldl_memOk) | (with_reducible apply foldl_memOk_fst) | (with_reducible apply Tbl.wf_set) | (with_reducible apply Tbl.wf_cut) | (with_reducible apply Tbl.wf_copy) | (with_reducible apply Tbl.wf_filter) | split

theorem State.launchSubmit_memOk {s c hi} (hs : MemOk s) :
    MemOk (State.launchSubmit s c hi) := by
  unfold State.launchSubmit
  try dsimp only
  repeat' first | (intro _) | (with_reducible assumption) | (with_reducible apply State.wr_memOk) | (with_reducible apply State.hbmRead_memOk) | (with_reducible apply State.commitRec_memOk) | (with_reducible apply State.validate_memOk) | (with_reducible apply State.conclude_memOk) | (with_reducible apply ite_memOk) | (with_reducible apply ite_memOk_fst)

theorem State.heldStart_memOk {s id tenant} (hs : MemOk s) :
    MemOk (State.heldStart s id tenant) := by
  unfold State.heldStart
  try dsimp only
  repeat' first | (intro _) | (with_reducible assumption) | (with_reducible apply State.setLaunch_memOk) | (with_reducible apply ite_memOk) | (with_reducible apply ite_memOk_fst) | (with_reducible apply foldl_memOk) | (with_reducible apply foldl_memOk_fst) | (with_reducible apply Tbl.wf_set) | (with_reducible apply Tbl.wf_cut) | (with_reducible apply Tbl.wf_copy) | (with_reducible apply Tbl.wf_filter) | split

theorem State.releaseLaunch_memOk {s l} (hs : MemOk s) :
    MemOk (State.releaseLaunch s l) := by
  unfold State.releaseLaunch
  try dsimp only
  repeat' first | (intro _) | (with_reducible assumption) | (with_reducible apply State.wr_memOk) | (with_reducible apply ite_memOk) | (with_reducible apply ite_memOk_fst) | (with_reducible apply foldl_memOk)

theorem State.openRange_memOk {s a x2} (hs : MemOk s) :
    MemOk (State.openRange s a x2) := by
  fun_induction State.openRange s a x2 <;>
    (repeat' first | (intro _) | extract_lets | (with_reducible assumption) | (with_reducible apply_assumption) | (with_reducible apply State.poke_memOk))

theorem State.regionReset_memOk {s r} (hs : MemOk s) :
    MemOk (State.regionReset s r) := by
  unfold State.regionReset
  try dsimp only
  repeat' first | (intro _) | (with_reducible assumption) | (with_reducible apply State.setClu_memOk) | (with_reducible apply ite_memOk) | (with_reducible apply ite_memOk_fst) | (with_reducible apply foldl_memOk)

theorem State.launchCommit_memOk {s id tenant} (hs : MemOk s) :
    MemOk (State.launchCommit s id tenant) := by
  unfold State.launchCommit
  try dsimp only
  repeat' first | (intro _) | (with_reducible assumption) | (with_reducible apply State.wr_memOk) | (with_reducible apply State.releaseLaunch_memOk) | (with_reducible apply State.commitRec_memOk) | (with_reducible apply State.openRange_memOk) | (with_reducible apply State.wrs_memOk) | (with_reducible apply State.setSeq_memOk) | (with_reducible apply State.regionReset_memOk) | (with_reducible apply State.dropAliased_memOk) | (with_reducible apply State.setLaunch_memOk) | (with_reducible apply State.startWindow_memOk) | (with_reducible apply ite_memOk) | (with_reducible apply ite_memOk_fst) | (with_reducible apply foldl_memOk) | (with_reducible apply foldl_memOk_fst) | (with_reducible apply Tbl.wf_set) | (with_reducible apply Tbl.wf_cut) | (with_reducible apply Tbl.wf_copy) | (with_reducible apply Tbl.wf_filter) | split

theorem State.ringEntry_memOk {s} (hs : MemOk s) :
    MemOk (State.ringEntry s) := by
  unfold State.ringEntry
  try dsimp only
  repeat' first | (intro _) | (with_reducible assumption) | (with_reducible apply State.ringPut_memOk) | (with_reducible apply ite_memOk) | (with_reducible apply ite_memOk_fst) | (with_reducible apply foldl_memOk) | (with_reducible apply foldl_memOk_fst) | (with_reducible apply Tbl.wf_set) | (with_reducible apply Tbl.wf_cut) | (with_reducible apply Tbl.wf_copy) | (with_reducible apply Tbl.wf_filter) | split

theorem State.htpAbort_memOk {s id} (hs : MemOk s) :
    MemOk (State.htpAbort s id) := by
  unfold State.htpAbort
  try dsimp only
  repeat' first | (intro _) | (with_reducible assumption) | (with_reducible apply State.wr_memOk) | (with_reducible apply State.abortLaunch_memOk) | (with_reducible apply ite_memOk) | (with_reducible apply ite_memOk_fst) | (with_reducible apply foldl_memOk) | (with_reducible apply foldl_memOk_fst) | (with_reducible apply Tbl.wf_set) | (with_reducible apply Tbl.wf_cut) | (with_reducible apply Tbl.wf_copy) | (with_reducible apply Tbl.wf_filter) | split

theorem State.wpBits_memOk {s d j lo hi v} (hs : MemOk s) :
    MemOk (State.wpBits s d j lo hi v) := by
  unfold State.wpBits
  try dsimp only
  repeat' first | (intro _) | (with_reducible assumption) | (with_reducible apply State.wr_memOk) | (with_reducible apply ite_memOk) | (with_reducible apply ite_memOk_fst) | (with_reducible apply foldl_memOk)

theorem State.calDeferred_memOk {s k} (hs : MemOk s) :
    MemOk (State.calDeferred s k) := by
  unfold State.calDeferred
  try dsimp only
  repeat' first | (intro _) | (with_reducible assumption) | (with_reducible apply State.zeros_memOk) | (with_reducible apply State.inc_memOk)

theorem State.heldTouch_memOk {s a bs} (hs : MemOk s) :
    MemOk (State.heldTouch s a bs) := by
  unfold State.heldTouch
  try dsimp only
  repeat' first | (intro _) | (with_reducible assumption) | (with_reducible apply State.hbmWrite_memOk) | (with_reducible apply ite_memOk)

theorem State.atomic_memOk {s op a v c} (hs : MemOk s) :
    MemOk (State.atomic s op a v c).1 := by
  unfold State.atomic
  try dsimp only
  repeat' first | (intro _) | (with_reducible assumption) | (with_reducible apply State.inc_memOk) | (with_reducible apply State.cacheTouch_memOk) | (with_reducible apply State.inject_memOk) | (with_reducible apply State.pokes_memOk) | (with_reducible apply ite_memOk) | (with_reducible apply ite_memOk_fst)

theorem State.atomEnd_memOk {c x} (hx : MemOk x.1) :
    MemOk (State.atomEnd c x) := by
  unfold State.atomEnd
  try dsimp only
  repeat' first | (intro _) | (with_reducible assumption) | (with_reducible apply State.wrs_memOk)

theorem State.atomDone_memOk {s src st old} (hs : MemOk s) :
    MemOk (State.atomDone s src st old) := by
  unfold State.atomDone
  try dsimp only
  repeat' first | (intro _) | (with_reducible assumption) | (with_reducible apply State.atomEnd_memOk) | (with_reducible apply ite_memOk)

theorem State.atomsRun_memOk {s : State} {src l} (hs : MemOk s) : MemOk (s.atomsRun src l) := by
  induction l generalizing s with
  | nil => exact hs
  | cons x l ih =>
    unfold State.atomsRun
    dsimp only
    split
    · exact State.queueTouched_memOk hs
    · split
      · exact State.atomDone_memOk (State.atomic_memOk hs)
      · exact ih (State.atomDone_memOk (State.atomic_memOk hs))

theorem State.releaseHeld_memOk {s} (hs : MemOk s) :
    MemOk (State.releaseHeld s) := by
  unfold State.releaseHeld
  try dsimp only
  repeat' first | (intro _) | (with_reducible assumption) | (with_reducible apply State.atomsRun_memOk) | (with_reducible apply State.hbmWriteBy_memOk) | (with_reducible apply State.atomDone_memOk) | (with_reducible apply ite_memOk) | (with_reducible apply ite_memOk_fst) | (with_reducible apply foldl_memOk)

theorem State.copyEnds_memOk {s k q} (hs : MemOk s) :
    MemOk (State.copyEnds s k q) := by
  unfold State.copyEnds
  try dsimp only
  repeat' first | (intro _) | (with_reducible assumption) | (with_reducible apply State.calDeferred_memOk) | (with_reducible apply State.releaseHeld_memOk) | (with_reducible apply State.countQueue_memOk) | (with_reducible apply State.countSlotWaits_memOk) | (with_reducible apply State.wr_memOk)

theorem State.copyPage_memOk {s src dst} (hs : MemOk s) :
    MemOk (State.copyPage s src dst) := by
  unfold State.copyPage
  try dsimp only
  repeat' first | (intro _) | (with_reducible assumption) | (with_reducible apply State.cacheRange_memOk) | (with_reducible apply ite_memOk) | (with_reducible apply ite_memOk_fst) | (with_reducible apply foldl_memOk) | (with_reducible apply foldl_memOk_fst) | (with_reducible apply Tbl.wf_set) | (with_reducible apply Tbl.wf_cut) | (with_reducible apply Tbl.wf_copy)

theorem State.copyDone_memOk {s k ns} (hs : MemOk s) :
    MemOk (State.copyDone s k ns) := by
  unfold State.copyDone
  try dsimp only
  repeat' first | (intro _) | (with_reducible assumption) | (with_reducible apply State.copyEnds_memOk) | (with_reducible apply State.copyPage_memOk) | (with_reducible apply State.setProtected_memOk) | (with_reducible apply State.wr_memOk) | (with_reducible apply State.inc_memOk) | (with_reducible apply ite_memOk) | (with_reducible apply ite_memOk_fst) | (with_reducible apply foldl_memOk) | (with_reducible apply foldl_memOk_fst) | (with_reducible apply Tbl.wf_set) | (with_reducible apply Tbl.wf_cut) | (with_reducible apply Tbl.wf_copy) | (with_reducible apply Tbl.wf_filter) | split

theorem State.flushWay_memOk {s key w} (hs : MemOk s) :
    MemOk (State.flushWay s key w) := by
  unfold State.flushWay
  try dsimp only
  repeat' first | (intro _) | (with_reducible assumption) | (with_reducible apply State.inc_memOk) | (with_reducible apply State.lineRead_memOk)

theorem State.hcFlush_memOk {s d stackSet} (hs : MemOk s) :
    MemOk (State.hcFlush s d stackSet) := by
  unfold State.hcFlush
  try dsimp only
  repeat' first | (intro _) | (with_reducible assumption) | (with_reducible apply State.wr_memOk) | (with_reducible apply State.flushWay_memOk) | (with_reducible apply ite_memOk) | (with_reducible apply ite_memOk_fst) | (with_reducible apply foldl_memOk)

theorem State.calibrate_memOk {s k retrain} (hs : MemOk s) :
    MemOk (State.calibrate s k retrain) := by
  unfold State.calibrate
  try dsimp only
  repeat' first | (intro _) | (with_reducible assumption) | (with_reducible apply State.inc_memOk) | (with_reducible apply ite_memOk)

theorem State.stackHealth_memOk {s k} (hs : MemOk s) :
    MemOk (State.stackHealth s k) := by
  unfold State.stackHealth
  try dsimp only
  repeat' first | (intro _) | (with_reducible assumption) | (with_reducible apply State.hltLog_memOk)

theorem State.faultLaunch_memOk {s l code} (hs : MemOk s) :
    MemOk (State.faultLaunch s l code) := by
  unfold State.faultLaunch
  try dsimp only
  repeat' first | (intro _) | (with_reducible assumption) | (with_reducible apply State.regionFault_memOk) | (with_reducible apply ite_memOk) | (with_reducible apply ite_memOk_fst) | (with_reducible apply foldl_memOk) | (with_reducible apply foldl_memOk_fst) | (with_reducible apply Tbl.wf_set) | (with_reducible apply Tbl.wf_cut) | (with_reducible apply Tbl.wf_copy) | (with_reducible apply Tbl.wf_filter) | split

theorem State.stackLost_memOk {s k} (hs : MemOk s) :
    MemOk (State.stackLost s k) := by
  unfold State.stackLost
  try dsimp only
  repeat' first | (intro _) | (with_reducible assumption) | (with_reducible apply State.stackHealth_memOk) | (with_reducible apply State.wrs_memOk) | (with_reducible apply State.faultLaunch_memOk) | (with_reducible apply ite_memOk) | (with_reducible apply ite_memOk_fst) | (with_reducible apply foldl_memOk)

theorem State.stackTraining_memOk {s k passes} (hs : MemOk s) :
    MemOk (State.stackTraining s k passes) := by
  unfold State.stackTraining
  try dsimp only
  repeat' first | (intro _) | (with_reducible assumption) | (with_reducible apply State.wrs_memOk) | (with_reducible apply State.stackHealth_memOk) | (with_reducible apply State.stackLost_memOk) | (with_reducible apply ite_memOk) | (with_reducible apply ite_memOk_fst) | (with_reducible apply foldl_memOk) | (with_reducible apply foldl_memOk_fst) | (with_reducible apply Tbl.wf_set) | (with_reducible apply Tbl.wf_cut) | (with_reducible apply Tbl.wf_copy) | (with_reducible apply Tbl.wf_filter) | split

theorem State.dropLines_memOk {s k} (hs : MemOk s) :
    MemOk (State.dropLines s k) := by
  unfold State.dropLines
  try dsimp only
  repeat' first | (intro _) | (with_reducible assumption)

theorem State.zeroStack_memOk {s k} (hs : MemOk s) :
    MemOk (State.zeroStack s k) := by
  unfold State.zeroStack
  try dsimp only
  repeat' first | (intro _) | (with_reducible assumption) | (with_reducible apply State.dropLines_memOk) | (with_reducible apply ite_memOk) | (with_reducible apply ite_memOk_fst) | (with_reducible apply foldl_memOk) | (with_reducible apply foldl_memOk_fst) | (with_reducible apply Tbl.wf_set) | (with_reducible apply Tbl.wf_cut)

theorem State.refreshRate_memOk {s k} (hs : MemOk s) :
    MemOk (State.refreshRate s k) := by
  unfold State.refreshRate
  try dsimp only
  repeat' first | (intro _) | (with_reducible assumption) | (with_reducible apply State.wr_memOk)

theorem State.hbmRefresh_memOk {s k} (hs : MemOk s) :
    MemOk (State.hbmRefresh s k) := by
  unfold State.hbmRefresh
  try dsimp only
  repeat' first | (intro _) | (with_reducible assumption) | (with_reducible apply State.inc_memOk) | (with_reducible apply State.refreshRate_memOk)

theorem State.atomPort_memOk {s c op} (hs : MemOk s) :
    MemOk (State.atomPort s c op) := by
  unfold State.atomPort
  try dsimp only
  repeat' first | (intro _) | (with_reducible assumption) | (with_reducible apply State.wr_memOk) | (with_reducible apply State.queueTouched_memOk) | (with_reducible apply State.atomEnd_memOk) | (with_reducible apply State.atomic_memOk) | (with_reducible apply ite_memOk)

theorem State.hbmZero_memOk {s k} (hs : MemOk s) :
    MemOk (State.hbmZero s k) := by
  unfold State.hbmZero
  try dsimp only
  repeat' first | (intro _) | (with_reducible assumption) | (with_reducible apply State.wr_memOk) | (with_reducible apply State.wrs_memOk) | (with_reducible apply ite_memOk)

theorem State.hbmZeroDone_memOk {s k} (hs : MemOk s) :
    MemOk (State.hbmZeroDone s k) := by
  unfold State.hbmZeroDone
  try dsimp only
  repeat' first | (intro _) | (with_reducible assumption) | (with_reducible apply State.inc_memOk) | (with_reducible apply State.wrs_memOk) | (with_reducible apply State.zeroStack_memOk) | (with_reducible apply ite_memOk)

theorem State.wpCmd_memOk {s d j first count v} (hs : MemOk s) :
    MemOk (State.wpCmd s d j first count v) := by
  unfold State.wpCmd
  try dsimp only
  repeat' first | (intro _) | (with_reducible assumption) | (with_reducible apply State.wpBits_memOk) | (with_reducible apply State.wrs_memOk) | (with_reducible apply State.releaseHeld_memOk) | (with_reducible apply State.countQueue_memOk) | (with_reducible apply State.wr_memOk) | (with_reducible apply State.calDeferred_memOk) | (with_reducible apply ite_memOk)

theorem State.clkClear_memOk {s} (hs : MemOk s) :
    MemOk (State.clkClear s) := by
  unfold State.clkClear
  try dsimp only
  repeat' first | (intro _) | (with_reducible assumption) | (with_reducible apply State.zeros_memOk)

theorem State.spClear_memOk {s c} (hs : MemOk s) :
    MemOk (State.spClear s c) := by
  unfold State.spClear
  try dsimp only
  repeat' first | (intro _) | (with_reducible assumption) | (with_reducible apply State.zeros_memOk)

theorem State.dmaClear_memOk {s d} (hs : MemOk s) :
    MemOk (State.dmaClear s d) := by
  unfold State.dmaClear
  try dsimp only
  repeat' first | (intro _) | (with_reducible assumption) | (with_reducible apply State.zeros_memOk)

theorem State.svClear_memOk {s c} (hs : MemOk s) :
    MemOk (State.svClear s c) := by
  unfold State.svClear
  try dsimp only
  repeat' first | (intro _) | (with_reducible assumption) | (with_reducible apply State.zeros_memOk)

theorem State.muClear_memOk {s c} (hs : MemOk s) :
    MemOk (State.muClear s c) := by
  unfold State.muClear
  try dsimp only
  repeat' first | (intro _) | (with_reducible assumption) | (with_reducible apply State.zeros_memOk)

theorem State.htpClear_memOk {s} (hs : MemOk s) :
    MemOk (State.htpClear s) := by
  unfold State.htpClear
  try dsimp only
  repeat' first | (intro _) | (with_reducible assumption) | (with_reducible apply State.zeros_memOk)

theorem State.stdClear_memOk {s d} (hs : MemOk s) :
    MemOk (State.stdClear s d) := by
  unfold State.stdClear
  try dsimp only
  repeat' first | (intro _) | (with_reducible assumption) | (with_reducible apply State.zeros_memOk)

theorem State.hbmClear_memOk {s k} (hs : MemOk s) :
    MemOk (State.hbmClear s k) := by
  unfold State.hbmClear
  try dsimp only
  repeat' first | (intro _) | (with_reducible assumption) | (with_reducible apply State.zeros_memOk)

theorem State.arbDieClear_memOk {s d} (hs : MemOk s) :
    MemOk (State.arbDieClear s d) := by
  unfold State.arbDieClear
  try dsimp only
  repeat' first | (intro _) | (with_reducible assumption) | (with_reducible apply State.zeros_memOk)

theorem State.sqClear_memOk {s r} (hs : MemOk s) :
    MemOk (State.sqClear s r) := by
  unfold State.sqClear
  try dsimp only
  repeat' first | (intro _) | (with_reducible assumption) | (with_reducible apply State.zeros_memOk)

theorem State.pwrClear_memOk {s} (hs : MemOk s) :
    MemOk (State.pwrClear s) := by
  unfold State.pwrClear
  try dsimp only
  repeat' first | (intro _) | (with_reducible assumption) | (with_reducible apply State.zeros_memOk)

theorem State.colClear_memOk {s} (hs : MemOk s) :
    MemOk (State.colClear s) := by
  unfold State.colClear
  try dsimp only
  repeat' first | (intro _) | (with_reducible assumption) | (with_reducible apply State.zeros_memOk)

theorem State.hltClear_memOk {s} (hs : MemOk s) :
    MemOk (State.hltClear s) := by
  unfold State.hltClear
  try dsimp only
  repeat' first | (intro _) | (with_reducible assumption) | (with_reducible apply State.zeros_memOk)

theorem State.arbPortClear_memOk {s} (hs : MemOk s) :
    MemOk (State.arbPortClear s) := by
  unfold State.arbPortClear
  try dsimp only
  repeat' first | (intro _) | (with_reducible assumption) | (with_reducible apply State.zeros_memOk)

theorem State.hcClear_memOk {s d} (hs : MemOk s) :
    MemOk (State.hcClear s d) := by
  unfold State.hcClear
  try dsimp only
  repeat' first | (intro _) | (with_reducible assumption) | (with_reducible apply State.zeros_memOk)

theorem State.shClear_memOk {s c} (hs : MemOk s) :
    MemOk (State.shClear s c) := by
  unfold State.shClear
  try dsimp only
  repeat' first | (intro _) | (with_reducible assumption) | (with_reducible apply State.zeros_memOk)

theorem State.ozlClear_memOk {s p} (hs : MemOk s) :
    MemOk (State.ozlClear s p) := by
  unfold State.ozlClear
  try dsimp only
  repeat' first | (intro _) | (with_reducible assumption) | (with_reducible apply State.zeros_memOk)

theorem State.snpClear_memOk {s} (hs : MemOk s) :
    MemOk (State.snpClear s) := by
  unfold State.snpClear
  try dsimp only
  repeat' first | (intro _) | (with_reducible assumption) | (with_reducible apply State.zeros_memOk)

theorem State.handleWrite_memOk {s r h0 x} (hs : MemOk s) :
    MemOk (State.handleWrite s r h0 x) := by
  unfold State.handleWrite
  try dsimp only
  repeat' first | (intro _) | (with_reducible assumption) | (with_reducible apply State.wr_memOk) | (with_reducible apply State.wrs_memOk) | (with_reducible apply ite_memOk)

theorem State.stdEnd_memOk {s d st} (hs : MemOk s) :
    MemOk (State.stdEnd s d st) := by
  unfold State.stdEnd
  try dsimp only
  repeat' first | (intro _) | (with_reducible assumption) | (with_reducible apply State.wrs_memOk)

theorem State.stdOpen_memOk {s d e k maps lfmt tenant rows cols} (hs : MemOk s) :
    MemOk (State.stdOpen s d e k maps lfmt tenant rows cols) := by
  unfold State.stdOpen
  try dsimp only
  repeat' first | (intro _) | (with_reducible assumption) | (with_reducible apply State.wrs_memOk) | (with_reducible apply State.stdEnd_memOk) | (with_reducible apply State.setPoolTop_memOk) | (with_reducible apply State.stashLog_memOk) | (with_reducible apply State.inc_memOk) | (with_reducible apply State.notStashed_memOk) | (with_reducible apply State.wr_memOk) | (with_reducible apply ite_memOk)

theorem State.stdClose_memOk {s d e} (hs : MemOk s) :
    MemOk (State.stdClose s d e) := by
  unfold State.stdClose
  try dsimp only
  repeat' first | (intro _) | (with_reducible assumption) | (with_reducible apply State.stdEnd_memOk) | (with_reducible apply State.wr_memOk) | (with_reducible apply State.notStashed_memOk) | (with_reducible apply ite_memOk)

theorem State.stdMark_memOk {s d e} (hs : MemOk s) :
    MemOk (State.stdMark s d e) := by
  unfold State.stdMark
  try dsimp only
  repeat' first | (intro _) | (with_reducible assumption) | (with_reducible apply State.stdEnd_memOk) | (with_reducible apply State.notStashed_memOk) | (with_reducible apply ite_memOk)

theorem State.stdFree_memOk {s d e} (hs : MemOk s) :
    MemOk (State.stdFree s d e) := by
  unfold State.stdFree
  try dsimp only
  repeat' first | (intro _) | (with_reducible assumption) | (with_reducible apply State.stdEnd_memOk) | (with_reducible apply State.setPoolTop_memOk) | (with_reducible apply State.wr_memOk) | (with_reducible apply ite_memOk)

theorem State.stdCmd_memOk {s d n} (hs : MemOk s) :
    MemOk (State.stdCmd s d n) := by
  unfold State.stdCmd
  try dsimp only
  repeat' first | (intro _) | (with_reducible assumption) | (with_reducible apply State.stdOpen_memOk) | (with_reducible apply State.stdClose_memOk) | (with_reducible apply State.stdMark_memOk) | (with_reducible apply State.stdFree_memOk) | (with_reducible apply State.stdEnd_memOk) | (with_reducible apply ite_memOk) | (with_reducible apply ite_memOk_fst) | (with_reducible apply foldl_memOk) | (with_reducible apply foldl_memOk_fst) | (with_reducible apply Tbl.wf_set) | (with_reducible apply Tbl.wf_cut) | (with_reducible apply Tbl.wf_copy) | (with_reducible apply Tbl.wf_filter) | split

theorem State.svFaultEn_memOk {s k idx tile} (hs : MemOk s) :
    MemOk (State.svFaultEn s k idx tile) := by
  unfold State.svFaultEn
  try dsimp only
  repeat' first | (intro _) | (with_reducible assumption) | (with_reducible apply State.wrs_memOk) | (with_reducible apply ite_memOk)

theorem State.clockChange_memOk {s i} (hs : MemOk s) :
    MemOk (State.clockChange s i) := by
  unfold State.clockChange
  try dsimp only
  repeat' first | (intro _) | (with_reducible assumption) | (with_reducible apply State.wr_memOk)

theorem State.shFaultEn_memOk {s k tile comp cap} (hs : MemOk s) :
    MemOk (State.shFaultEn s k tile comp cap) := by
  unfold State.shFaultEn
  try dsimp only
  repeat' first | (intro _) | (with_reducible assumption) | (with_reducible apply State.wrs_memOk) | (with_reducible apply ite_memOk)

theorem State.poolWrite_memOk {s d k lim a} (hs : MemOk s) :
    MemOk (State.poolWrite s d k lim a) := by
  unfold State.poolWrite
  try dsimp only
  repeat' first | (intro _) | (with_reducible assumption) | (with_reducible apply State.setPoolTop_memOk) | (with_reducible apply State.wr_memOk) | (with_reducible apply ite_memOk)

theorem State.crossingStuck_memOk {s src dst} (hs : MemOk s) :
    MemOk (State.crossingStuck s src dst) := by
  unfold State.crossingStuck
  try dsimp only
  repeat' first | (intro _) | (with_reducible assumption) | (with_reducible apply State.wrs_memOk) | (with_reducible apply State.inc_memOk)

theorem State.streamWrite_memOk {s n key ctr owner en} (hs : MemOk s) :
    MemOk (State.streamWrite s n key ctr owner en) := by
  unfold State.streamWrite
  try dsimp only
  repeat' first | (intro _) | (with_reducible assumption) | (with_reducible apply State.wr_memOk) | (with_reducible apply State.wrs_memOk) | (with_reducible apply ite_memOk)

theorem State.ageWaiters_memOk {s d g ws} (hs : MemOk s) :
    MemOk (State.ageWaiters s d g ws).1 := by
  unfold State.ageWaiters
  try dsimp only
  repeat' first | (intro _) | (with_reducible assumption) | (with_reducible apply State.inc_memOk) | (with_reducible apply ite_memOk) | (with_reducible apply ite_memOk_fst) | (with_reducible apply foldl_memOk) | (with_reducible apply foldl_memOk_fst)

theorem State.granted_memOk {s d x} (hs : MemOk s) :
    MemOk (State.granted s d x) := by
  unfold State.granted
  try dsimp only
  repeat' first | (intro _) | (with_reducible assumption) | (with_reducible apply State.inc_memOk) | (with_reducible apply State.wr_memOk)

theorem State.queueGrant_memOk {s d a ws} (hs : MemOk s) :
    MemOk (State.queueGrant s d a ws).1 := by
  unfold State.queueGrant
  try dsimp only
  repeat' first | (intro _) | (with_reducible assumption) | (with_reducible apply State.ageWaiters_memOk) | (with_reducible apply State.granted_memOk) | (with_reducible apply ite_memOk) | (with_reducible apply ite_memOk_fst) | (with_reducible apply foldl_memOk) | (with_reducible apply foldl_memOk_fst) | (with_reducible apply Tbl.wf_set) | (with_reducible apply Tbl.wf_cut) | (with_reducible apply Tbl.wf_copy) | (with_reducible apply Tbl.wf_filter) | split

theorem State.arbitrate_memOk {s d res cycles new} (hs : MemOk s) :
    MemOk (State.arbitrate s d res cycles new) := by
  unfold State.arbitrate
  try dsimp only
  repeat' first | (intro _) | (with_reducible assumption) | (with_reducible apply State.queueGrant_memOk) | (with_reducible apply State.ageWaiters_memOk) | (with_reducible apply State.inc_memOk) | (with_reducible apply State.granted_memOk) | (with_reducible apply ite_memOk) | (with_reducible apply ite_memOk_fst) | (with_reducible apply foldl_memOk) | (with_reducible apply foldl_memOk_fst) | (with_reducible apply Tbl.wf_set) | (with_reducible apply Tbl.wf_cut) | (with_reducible apply Tbl.wf_copy) | (with_reducible apply Tbl.wf_filter) | split

theorem State.setLink_memOk {s p x} (hs : MemOk s) :
    MemOk (State.setLink s p x) := by
  unfold State.setLink
  try dsimp only
  repeat' first | (intro _) | (with_reducible assumption)

theorem State.prioWrite_memOk {s d n p} (hs : MemOk s) :
    MemOk (State.prioWrite s d n p) := by
  unfold State.prioWrite
  try dsimp only
  repeat' first | (intro _) | (with_reducible assumption) | (with_reducible apply State.wr_memOk) | (with_reducible apply ite_memOk)

theorem State.shadowWrite_memOk {s q w v} (hs : MemOk s) :
    MemOk (State.shadowWrite s q w v) := by
  unfold State.shadowWrite
  try dsimp only
  repeat' first | (intro _) | (with_reducible assumption) | (with_reducible apply State.inc_memOk) | (with_reducible apply State.wr_memOk) | (with_reducible apply ite_memOk)

theorem State.slotSwap_memOk {s q} (hs : MemOk s) :
    MemOk (State.slotSwap s q) := by
  unfold State.slotSwap
  try dsimp only
  repeat' first | (intro _) | (with_reducible assumption) | (with_reducible apply State.inc_memOk) | (with_reducible apply State.wrs_memOk) | (with_reducible apply ite_memOk) | (with_reducible apply ite_memOk_fst) | (with_reducible apply foldl_memOk)

theorem State.slotDone_memOk {s q l pick} (hs : MemOk s) :
    MemOk (State.slotDone s q l pick) := by
  unfold State.slotDone
  try dsimp only
  repeat' first | (intro _) | (with_reducible assumption) | (with_reducible apply State.inc_memOk) | (with_reducible apply State.wr_memOk) | (with_reducible apply State.slotSwap_memOk) | (with_reducible apply ite_memOk) | (with_reducible apply ite_memOk_fst) | (with_reducible apply foldl_memOk) | (with_reducible apply foldl_memOk_fst) | (with_reducible apply Tbl.wf_set) | (with_reducible apply Tbl.wf_cut) | (with_reducible apply Tbl.wf_copy) | (with_reducible apply Tbl.wf_filter) | split

theorem State.laneInject_memOk {s p} (hs : MemOk s) :
    MemOk (State.laneInject s p).1 := by
  unfold State.laneInject
  try dsimp only
  repeat' first | (intro _) | (with_reducible assumption) | (with_reducible apply State.inc_memOk) | (with_reducible apply State.wr_memOk) | (with_reducible apply ite_memOk) | (with_reducible apply ite_memOk_fst)

theorem State.ozlHealth_memOk {s p} (hs : MemOk s) :
    MemOk (State.ozlHealth s p) := by
  unfold State.ozlHealth
  try dsimp only
  repeat' first | (intro _) | (with_reducible assumption) | (with_reducible apply State.hltLog_memOk)

theorem State.dropReplay_memOk {s p} (hs : MemOk s) :
    MemOk (State.dropReplay s p) := by
  unfold State.dropReplay
  try dsimp only
  repeat' first | (intro _) | (with_reducible assumption) | (with_reducible apply State.setLink_memOk)

theorem State.ozlDown_memOk {s p} (hs : MemOk s) :
    MemOk (State.ozlDown s p) := by
  unfold State.ozlDown
  try dsimp only
  repeat' first | (intro _) | (with_reducible assumption) | (with_reducible apply State.ozlHealth_memOk) | (with_reducible apply State.inc_memOk) | (with_reducible apply State.wrs_memOk) | (with_reducible apply State.dropReplay_memOk)

theorem State.portDown_memOk {s p} (hs : MemOk s) :
    MemOk (State.portDown s p) := by
  unfold State.portDown
  try dsimp only
  repeat' first | (intro _) | (with_reducible assumption) | (with_reducible apply State.ozlDown_memOk) | (with_reducible apply ite_memOk)

theorem State.symbolErrs_memOk {s p l n} (hs : MemOk s) :
    MemOk (State.symbolErrs s p l n) := by
  unfold State.symbolErrs
  try dsimp only
  repeat' first | (intro _) | (with_reducible assumption) | (with_reducible apply State.inc_memOk)

theorem State.ozlWidth_memOk {s p most} (hs : MemOk s) :
    MemOk (State.ozlWidth s p most).1 := by
  unfold State.ozlWidth
  try dsimp only
  repeat' first | (intro _) | (with_reducible assumption) | (with_reducible apply State.ozlDown_memOk) | (with_reducible apply State.wrs_memOk) | (with_reducible apply State.ozlHealth_memOk) | (with_reducible apply ite_memOk) | (with_reducible apply ite_memOk_fst) | (with_reducible apply foldl_memOk) | (with_reducible apply foldl_memOk_fst) | (with_reducible apply Tbl.wf_set) | (with_reducible apply Tbl.wf_cut) | (with_reducible apply Tbl.wf_copy) | (with_reducible apply Tbl.wf_filter) | split

theorem State.retrain_memOk {s p} (hs : MemOk s) :
    MemOk (State.retrain s p) := by
  unfold State.retrain
  try dsimp only
  repeat' first | (intro _) | (with_reducible assumption) | (with_reducible apply State.inc_memOk) | (with_reducible apply State.wr_memOk) | (with_reducible apply State.setLink_memOk) | (with_reducible apply State.ozlDown_memOk) | (with_reducible apply ite_memOk)

theorem State.peerRetrain_memOk {s p} (hs : MemOk s) :
    MemOk (State.peerRetrain s p) := by
  unfold State.peerRetrain
  try dsimp only
  repeat' first | (intro _) | (with_reducible assumption) | (with_reducible apply State.retrain_memOk)

theorem State.retrainDone_memOk {s p tx} (hs : MemOk s) :
    MemOk (State.retrainDone s p tx) := by
  unfold State.retrainDone
  try dsimp only
  repeat' first | (intro _) | (with_reducible assumption) | (with_reducible apply State.ozlWidth_memOk) | (with_reducible apply State.wr_memOk) | (with_reducible apply State.setLink_memOk) | (with_reducible apply ite_memOk)

theorem State.colDiscard_memOk {s chan} (hs : MemOk s) :
    MemOk (State.colDiscard s chan) := by
  unfold State.colDiscard
  try dsimp only
  repeat' first | (intro _) | (with_reducible assumption) | (with_reducible apply State.logPush_memOk)

theorem State.deliverFlit_memOk {s f} (hs : MemOk s) :
    MemOk (State.deliverFlit s f) := by
  unfold State.deliverFlit
  try dsimp only
  repeat' first | (intro _) | (with_reducible assumption) | (with_reducible apply State.inc48_memOk) | (with_reducible apply State.setLink_memOk) | (with_reducible apply State.colDiscard_memOk) | (with_reducible apply ite_memOk) | (with_reducible apply ite_memOk_fst) | (with_reducible apply foldl_memOk) | (with_reducible apply foldl_memOk_fst) | (with_reducible apply Tbl.wf_set) | (with_reducible apply Tbl.wf_cut) | (with_reducible apply Tbl.wf_copy) | (with_reducible apply Tbl.wf_filter) | split

theorem State.codeword_memOk {s p n} (hs : MemOk s) :
    MemOk (State.codeword s p n).1 := by
  unfold State.codeword
  try dsimp only
  repeat' first | (intro _) | (with_reducible assumption) | (with_reducible apply State.inc_memOk) | (with_reducible apply State.wr_memOk) | (with_reducible apply ite_memOk) | (with_reducible apply ite_memOk_fst)

theorem State.codewords_memOk {s p errs} (hs : MemOk s) :
    MemOk (State.codewords s p errs).1 := by
  unfold State.codewords
  try dsimp only
  repeat' first | (intro _) | (with_reducible assumption) | (with_reducible apply State.laneInject_memOk) | (with_reducible apply State.symbolErrs_memOk) | (with_reducible apply State.codeword_memOk) | (with_reducible apply ite_memOk) | (with_reducible apply ite_memOk_fst) | (with_reducible apply foldl_memOk) | (with_reducible apply foldl_memOk_fst)

theorem State.ackUpto_memOk {s p ack} (hs : MemOk s) :
    MemOk (State.ackUpto s p ack) := by
  unfold State.ackUpto
  try dsimp only
  repeat' first | (intro _) | (with_reducible assumption) | (with_reducible apply State.setLink_memOk)

theorem State.nakReceive_memOk {s p ack} (hs : MemOk s) :
    MemOk (State.nakReceive s p ack) := by
  unfold State.nakReceive
  try dsimp only
  repeat' first | (intro _) | (with_reducible assumption) | (with_reducible apply State.ackUpto_memOk) | (with_reducible apply State.setLink_memOk)

theorem State.flitGood_memOk {s p f} (hs : MemOk s) :
    MemOk (State.flitGood s p f) := by
  unfold State.flitGood
  try dsimp only
  repeat' first | (intro _) | (with_reducible assumption) | (with_reducible apply State.ackUpto_memOk) | (with_reducible apply State.setLink_memOk) | (with_reducible apply State.nakReceive_memOk) | (with_reducible apply State.deliverFlit_memOk) | (with_reducible apply State.inc48_memOk) | (with_reducible apply ite_memOk)

theorem State.flitReceive_memOk {s p f crc errs} (hs : MemOk s) :
    MemOk (State.flitReceive s p f crc errs) := by
  unfold State.flitReceive
  try dsimp only
  repeat' first | (intro _) | (with_reducible assumption) | (with_reducible apply State.codewords_memOk) | (with_reducible apply State.inc_memOk) | (with_reducible apply State.setLink_memOk) | (with_reducible apply State.flitGood_memOk) | (with_reducible apply State.retrain_memOk) | (with_reducible apply State.wr_memOk) | (with_reducible apply ite_memOk)

theorem State.wakeTx_memOk {s p} (hs : MemOk s) :
    MemOk (State.wakeTx s p) := by
  unfold State.wakeTx
  try dsimp only
  repeat' first | (intro _) | (with_reducible assumption) | (with_reducible apply State.wrs_memOk)

theorem State.ozlRetrain_memOk {s p} (hs : MemOk s) :
    MemOk (State.ozlRetrain s p) := by
  unfold State.ozlRetrain
  try dsimp only
  repeat' first | (intro _) | (with_reducible assumption) | (with_reducible apply State.wrs_memOk) | (with_reducible apply State.dropReplay_memOk) | (with_reducible apply ite_memOk)

theorem State.wakeRepeat_memOk {s p peer} (hs : MemOk s) :
    MemOk (State.wakeRepeat s p peer) := by
  unfold State.wakeRepeat
  try dsimp only
  repeat' first | (intro _) | (with_reducible assumption) | (with_reducible apply State.wrs_memOk) | (with_reducible apply State.inc_memOk) | (with_reducible apply ite_memOk)

theorem State.lockLost_memOk {s p l} (hs : MemOk s) :
    MemOk (State.lockLost s p l) := by
  unfold State.lockLost
  try dsimp only
  repeat' first | (intro _) | (with_reducible assumption) | (with_reducible apply State.retrain_memOk) | (with_reducible apply State.wr_memOk) | (with_reducible apply State.inc_memOk) | (with_reducible apply ite_memOk) | (with_reducible apply ite_memOk_fst) | (with_reducible apply foldl_memOk) | (with_reducible apply foldl_memOk_fst) | (with_reducible apply Tbl.wf_set) | (with_reducible apply Tbl.wf_cut) | (with_reducible apply Tbl.wf_copy) | (with_reducible apply Tbl.wf_filter) | split

theorem State.offer_memOk {s q new} (hs : MemOk s) :
    MemOk (State.offer s q new) := by
  unfold State.offer
  try dsimp only
  repeat' first | (intro _) | (with_reducible assumption) | (with_reducible apply State.setLink_memOk) | (with_reducible apply State.inc48_memOk) | (with_reducible apply ite_memOk)

theorem State.portSlot_memOk {s q new} (hs : MemOk s) :
    MemOk (State.portSlot s q new) := by
  unfold State.portSlot
  try dsimp only
  repeat' first | (intro _) | (with_reducible assumption) | (with_reducible apply State.offer_memOk) | (with_reducible apply State.setLink_memOk) | (with_reducible apply State.inc_memOk) | (with_reducible apply State.slotDone_memOk) | (with_reducible apply State.charge_memOk) | (with_reducible apply State.inc48_memOk) | (with_reducible apply ite_memOk) | (with_reducible apply ite_memOk_fst) | (with_reducible apply foldl_memOk) | (with_reducible apply foldl_memOk_fst) | (with_reducible apply Tbl.wf_set) | (with_reducible apply Tbl.wf_cut) | (with_reducible apply Tbl.wf_copy) | (with_reducible apply Tbl.wf_filter) | split

theorem State.ozlDisable_memOk {s p} (hs : MemOk s) :
    MemOk (State.ozlDisable s p) := by
  unfold State.ozlDisable
  try dsimp only
  repeat' first | (intro _) | (with_reducible assumption) | (with_reducible apply State.wrs_memOk) | (with_reducible apply State.dropReplay_memOk)

theorem State.symbolWindow_memOk {s p errs} (hs : MemOk s) :
    MemOk (State.symbolWindow s p errs) := by
  unfold State.symbolWindow
  try dsimp only
  repeat' first | (intro _) | (with_reducible assumption) | (with_reducible apply State.setLink_memOk) | (with_reducible apply State.zeros_memOk) | (with_reducible apply State.symbolErrs_memOk) | (with_reducible apply State.wr_memOk) | (with_reducible apply State.retrain_memOk) | (with_reducible apply ite_memOk) | (with_reducible apply ite_memOk_fst) | (with_reducible apply foldl_memOk)

theorem State.ozlAccept_memOk {s p} (hs : MemOk s) :
    MemOk (State.ozlAccept s p) := by
  unfold State.ozlAccept
  try dsimp only
  repeat' first | (intro _) | (with_reducible assumption) | (with_reducible apply State.wr_memOk)

theorem State.ozlEnable_memOk {s p} (hs : MemOk s) :
    MemOk (State.ozlEnable s p) := by
  unfold State.ozlEnable
  try dsimp only
  repeat' first | (intro _) | (with_reducible assumption) | (with_reducible apply State.wr_memOk) | (with_reducible apply State.wrs_memOk) | (with_reducible apply ite_memOk)

theorem State.trainingDone_memOk {s p rx tx inv perm serial peer} (hs : MemOk s) :
    MemOk (State.trainingDone s p rx tx inv perm serial peer) := by
  unfold State.trainingDone
  try dsimp only
  repeat' first | (intro _) | (with_reducible assumption) | (with_reducible apply State.wrs_memOk) | (with_reducible apply State.ozlWidth_memOk) | (with_reducible apply State.setLink_memOk) | (with_reducible apply ite_memOk)

end Sys2Proof.Machine
end

