-- ==== Sys2Proof/Laws/MemCol.lean ====
section
/-!
SUPPORT. Memory keeps its canonical form: the operations of collectives and the host.
-/


namespace Sys2Proof.Machine

theorem State.memberWrite_memOk {s g r x y z} (hs : MemOk s) :
    MemOk (State.memberWrite s g r x y z) := by
  unfold State.memberWrite
  try dsimp only
  repeat' first | (intro _) | (with_reducible assumption) | (with_reducible apply State.wr_memOk) | (with_reducible apply State.wrs_memOk) | (with_reducible apply ite_memOk)

theorem State.groupWrite_memOk {s g valid tenant size rank gen} (hs : MemOk s) :
    MemOk (State.groupWrite s g valid tenant size rank gen) := by
  unfold State.groupWrite
  try dsimp only
  repeat' first | (intro _) | (with_reducible assumption) | (with_reducible apply State.wr_memOk) | (with_reducible apply State.wrs_memOk) | (with_reducible apply ite_memOk)

theorem State.groupCmd_memOk {s g m valid tenant size rank gen} (hs : MemOk s) :
    MemOk (State.groupCmd s g m valid tenant size rank gen) := by
  unfold State.groupCmd
  try dsimp only
  repeat' first | (intro _) | (with_reducible assumption) | (with_reducible apply State.memberWrite_memOk) | (with_reducible apply State.groupWrite_memOk) | (with_reducible apply ite_memOk) | (with_reducible apply ite_memOk_fst) | (with_reducible apply foldl_memOk) | (with_reducible apply foldl_memOk_fst) | (with_reducible apply Tbl.wf_set) | (with_reducible apply Tbl.wf_cut) | (with_reducible apply Tbl.wf_copy) | (with_reducible apply Tbl.wf_filter) | split

theorem State.colPut_memOk {s k o} (hs : MemOk s) :
    MemOk (State.colPut s k o) := by
  unfold State.colPut
  try dsimp only
  repeat' first | (intro _) | (with_reducible assumption)

theorem State.colDecide_memOk {s g id r} (hs : MemOk s) :
    MemOk (State.colDecide s g id r) := by
  unfold State.colDecide
  try dsimp only
  repeat' first | (intro _) | (with_reducible assumption) | (with_reducible apply State.colPut_memOk) | (with_reducible apply ite_memOk) | (with_reducible apply ite_memOk_fst) | (with_reducible apply foldl_memOk) | (with_reducible apply foldl_memOk_fst) | (with_reducible apply Tbl.wf_set) | (with_reducible apply Tbl.wf_cut) | (with_reducible apply Tbl.wf_copy) | (with_reducible apply Tbl.wf_filter) | split

theorem State.colAbort_memOk {s g id} (hs : MemOk s) :
    MemOk (State.colAbort s g id) := by
  unfold State.colAbort
  try dsimp only
  repeat' first | (intro _) | (with_reducible assumption) | (with_reducible apply State.colDecide_memOk)

theorem State.colStat_memOk {s} (hs : MemOk s) :
    MemOk (State.colStat s) := by
  unfold State.colStat
  try dsimp only
  repeat' first | (intro _) | (with_reducible assumption) | (with_reducible apply State.wrs_memOk)

theorem State.colStart_memOk {s k o} (hs : MemOk s) :
    MemOk (State.colStart s k o) := by
  unfold State.colStart
  try dsimp only
  repeat' first | (intro _) | (with_reducible assumption) | (with_reducible apply State.colPut_memOk) | (with_reducible apply State.colStat_memOk)

theorem State.heartbeatSeen_memOk {s} (hs : MemOk s) :
    MemOk (State.heartbeatSeen s) := by
  unfold State.heartbeatSeen
  try dsimp only
  repeat' first | (intro _) | (with_reducible assumption) | (with_reducible apply State.colStat_memOk) | (with_reducible apply State.wrs_memOk)

theorem State.colReport_memOk {s g id code} (hs : MemOk s) :
    MemOk (State.colReport s g id code) := by
  unfold State.colReport
  try dsimp only
  repeat' first | (intro _) | (with_reducible assumption)

theorem State.colLinkFault_memOk {s p g id} (hs : MemOk s) :
    MemOk (State.colLinkFault s p g id) := by
  unfold State.colLinkFault
  try dsimp only
  repeat' first | (intro _) | (with_reducible assumption) | (with_reducible apply State.setLink_memOk) | (with_reducible apply State.colReport_memOk) | (with_reducible apply State.colDecide_memOk) | (with_reducible apply ite_memOk) | (with_reducible apply ite_memOk_fst) | (with_reducible apply foldl_memOk) | (with_reducible apply foldl_memOk_fst) | (with_reducible apply Tbl.wf_set) | (with_reducible apply Tbl.wf_cut) | (with_reducible apply Tbl.wf_copy) | (with_reducible apply Tbl.wf_filter) | split

theorem State.colRelease_memOk {s o} (hs : MemOk s) :
    MemOk (State.colRelease s o) := by
  unfold State.colRelease
  try dsimp only
  repeat' first | (intro _) | (with_reducible assumption) | (with_reducible apply State.wr_memOk) | (with_reducible apply ite_memOk) | (with_reducible apply ite_memOk_fst) | (with_reducible apply foldl_memOk)

theorem State.colNext_memOk {s} (hs : MemOk s) :
    MemOk (State.colNext s) := by
  unfold State.colNext
  try dsimp only
  repeat' first | (intro _) | (with_reducible assumption) | (with_reducible apply State.colStart_memOk) | (with_reducible apply State.colStat_memOk) | (with_reducible apply ite_memOk) | (with_reducible apply ite_memOk_fst) | (with_reducible apply foldl_memOk) | (with_reducible apply foldl_memOk_fst) | (with_reducible apply Tbl.wf_set) | (with_reducible apply Tbl.wf_cut) | (with_reducible apply Tbl.wf_copy) | (with_reducible apply Tbl.wf_filter) | split

theorem State.colEnd_memOk {s o k r} (hs : MemOk s) :
    MemOk (State.colEnd s o k r) := by
  unfold State.colEnd
  try dsimp only
  repeat' first | (intro _) | (with_reducible assumption) | (with_reducible apply State.openRange_memOk) | (with_reducible apply State.colRelease_memOk) | (with_reducible apply State.deliverBy_memOk) | (with_reducible apply State.inc_memOk) | (with_reducible apply State.logPush_memOk) | (with_reducible apply State.wr_memOk) | (with_reducible apply ite_memOk) | (with_reducible apply ite_memOk_fst) | (with_reducible apply foldl_memOk)

theorem State.colComplete_memOk {s g id} (hs : MemOk s) :
    MemOk (State.colComplete s g id) := by
  unfold State.colComplete
  try dsimp only
  repeat' first | (intro _) | (with_reducible assumption) | (with_reducible apply State.colNext_memOk) | (with_reducible apply State.colEnd_memOk) | (with_reducible apply State.colPut_memOk) | (with_reducible apply State.colStat_memOk) | (with_reducible apply ite_memOk) | (with_reducible apply ite_memOk_fst) | (with_reducible apply foldl_memOk) | (with_reducible apply foldl_memOk_fst) | (with_reducible apply Tbl.wf_set) | (with_reducible apply Tbl.wf_cut) | (with_reducible apply Tbl.wf_copy) | (with_reducible apply Tbl.wf_filter) | split

theorem State.colParam_memOk {s c} (hs : MemOk s) :
    MemOk (State.colParam s c).1 := by
  unfold State.colParam
  try dsimp only
  repeat' first | (intro _) | (with_reducible assumption) | (with_reducible apply State.readOwn_memOk) | (with_reducible apply ite_memOk) | (with_reducible apply ite_memOk_fst) | (with_reducible apply foldl_memOk) | (with_reducible apply foldl_memOk_fst) | (with_reducible apply Tbl.wf_set) | (with_reducible apply Tbl.wf_cut) | (with_reducible apply Tbl.wf_copy) | (with_reducible apply Tbl.wf_filter) | split

theorem State.setTenantBit_memOk {s f t v} (hs : MemOk s) :
    MemOk (State.setTenantBit s f t v) := by
  unfold State.setTenantBit
  try dsimp only
  repeat' first | (intro _) | (with_reducible assumption) | (with_reducible apply State.wr_memOk)

theorem State.xoridGo_memOk {s t gen} (hs : MemOk s) :
    MemOk (State.xoridGo s t gen) := by
  unfold State.xoridGo
  try dsimp only
  repeat' first | (intro _) | (with_reducible assumption) | (with_reducible apply State.setTenantBit_memOk)

theorem State.heldOpStart_memOk {s g id} (hs : MemOk s) :
    MemOk (State.heldOpStart s g id) := by
  unfold State.heldOpStart
  try dsimp only
  repeat' first | (intro _) | (with_reducible assumption) | (with_reducible apply State.colStart_memOk) | (with_reducible apply ite_memOk) | (with_reducible apply ite_memOk_fst) | (with_reducible apply foldl_memOk) | (with_reducible apply foldl_memOk_fst) | (with_reducible apply Tbl.wf_set) | (with_reducible apply Tbl.wf_cut) | (with_reducible apply Tbl.wf_copy) | (with_reducible apply Tbl.wf_filter) | split

theorem State.routeSwap_memOk {s} (hs : MemOk s) :
    MemOk (State.routeSwap s) := by
  unfold State.routeSwap
  try dsimp only
  repeat' first | (intro _) | (with_reducible assumption) | (with_reducible apply State.colStat_memOk) | (with_reducible apply State.wrs_memOk) | (with_reducible apply State.wr_memOk) | (with_reducible apply ite_memOk) | (with_reducible apply ite_memOk_fst) | (with_reducible apply foldl_memOk)

theorem State.colTimeout_memOk {s g id} (hs : MemOk s) :
    MemOk (State.colTimeout s g id) := by
  unfold State.colTimeout
  try dsimp only
  repeat' first | (intro _) | (with_reducible assumption) | (with_reducible apply State.colDecide_memOk) | (with_reducible apply State.colReport_memOk) | (with_reducible apply ite_memOk) | (with_reducible apply ite_memOk_fst) | (with_reducible apply foldl_memOk) | (with_reducible apply foldl_memOk_fst) | (with_reducible apply Tbl.wf_set) | (with_reducible apply Tbl.wf_cut) | (with_reducible apply Tbl.wf_copy) | (with_reducible apply Tbl.wf_filter) | split

theorem State.routeSwapRequest_memOk {s} (hs : MemOk s) :
    MemOk (State.routeSwapRequest s) := by
  unfold State.routeSwapRequest
  try dsimp only
  repeat' first | (intro _) | (with_reducible assumption) | (with_reducible apply State.colStat_memOk) | (with_reducible apply State.wr_memOk)

theorem State.heartbeatSend_memOk {s} (hs : MemOk s) :
    MemOk (State.heartbeatSend s) := by
  unfold State.heartbeatSend
  try dsimp only
  repeat' first | (intro _) | (with_reducible assumption) | (with_reducible apply State.heartbeatSeen_memOk) | (with_reducible apply ite_memOk)

theorem State.colRefuse_memOk {s e} (hs : MemOk s) :
    MemOk (State.colRefuse s e) := by
  unfold State.colRefuse
  try dsimp only
  repeat' first | (intro _) | (with_reducible assumption) | (with_reducible apply State.wrs_memOk)

theorem State.colCheck_memOk {s c} (hs : MemOk s) :
    MemOk (State.colCheck s c).1 := by
  unfold State.colCheck
  try dsimp only
  repeat' first | (intro _) | (with_reducible assumption) | (with_reducible apply State.colParam_memOk) | (with_reducible apply State.checkDescs_memOk) | (with_reducible apply ite_memOk) | (with_reducible apply ite_memOk_fst) | (with_reducible apply foldl_memOk) | (with_reducible apply foldl_memOk_fst) | (with_reducible apply Tbl.wf_set) | (with_reducible apply Tbl.wf_cut) | (with_reducible apply Tbl.wf_copy) | (with_reducible apply Tbl.wf_filter) | split

theorem State.colAccept_memOk {s rcd x} (hs : MemOk s) :
    MemOk (State.colAccept s rcd x) := by
  unfold State.colAccept
  try dsimp only
  repeat' first | (intro _) | (with_reducible assumption) | (with_reducible apply State.wr_memOk) | (with_reducible apply State.wrs_memOk) | (with_reducible apply State.colStart_memOk) | (with_reducible apply State.colStat_memOk) | (with_reducible apply ite_memOk) | (with_reducible apply ite_memOk_fst) | (with_reducible apply foldl_memOk) | (with_reducible apply foldl_memOk_fst) | (with_reducible apply Tbl.wf_set) | (with_reducible apply Tbl.wf_cut) | (with_reducible apply Tbl.wf_copy) | (with_reducible apply Tbl.wf_filter) | split

theorem State.colSubmitAs_memOk {s t a} (hs : MemOk s) :
    MemOk (State.colSubmitAs s t a) := by
  unfold State.colSubmitAs
  try dsimp only
  repeat' first | (intro _) | (with_reducible assumption) | (with_reducible apply State.colRefuse_memOk) | (with_reducible apply State.hbmRead_memOk) | (with_reducible apply State.colCheck_memOk) | (with_reducible apply State.colAccept_memOk) | (with_reducible apply ite_memOk) | (with_reducible apply ite_memOk_fst) | (with_reducible apply foldl_memOk) | (with_reducible apply foldl_memOk_fst) | (with_reducible apply Tbl.wf_set) | (with_reducible apply Tbl.wf_cut) | (with_reducible apply Tbl.wf_copy) | (with_reducible apply Tbl.wf_filter) | split

theorem State.readyFlit_memOk {s x} (hs : MemOk s) :
    MemOk (State.readyFlit s x) := by
  unfold State.readyFlit
  try dsimp only
  repeat' first | (intro _) | (with_reducible assumption) | (with_reducible apply State.colPut_memOk) | (with_reducible apply ite_memOk) | (with_reducible apply ite_memOk_fst) | (with_reducible apply foldl_memOk) | (with_reducible apply foldl_memOk_fst) | (with_reducible apply Tbl.wf_set) | (with_reducible apply Tbl.wf_cut) | (with_reducible apply Tbl.wf_copy) | (with_reducible apply Tbl.wf_filter) | split

theorem State.readyRepeat_memOk {s g id rank} (hs : MemOk s) :
    MemOk (State.readyRepeat s g id rank) := by
  unfold State.readyRepeat
  try dsimp only
  repeat' first | (intro _) | (with_reducible assumption) | (with_reducible apply ite_memOk) | (with_reducible apply ite_memOk_fst) | (with_reducible apply foldl_memOk) | (with_reducible apply foldl_memOk_fst) | (with_reducible apply Tbl.wf_set) | (with_reducible apply Tbl.wf_cut) | (with_reducible apply Tbl.wf_copy) | (with_reducible apply Tbl.wf_filter) | split

theorem State.xoridSwitch_memOk {s t} (hs : MemOk s) :
    MemOk (State.xoridSwitch s t) := by
  unfold State.xoridSwitch
  try dsimp only
  repeat' first | (intro _) | (with_reducible assumption) | (with_reducible apply State.setTenantBit_memOk) | (with_reducible apply ite_memOk)

theorem State.colSubmit_memOk {s a} (hs : MemOk s) :
    MemOk (State.colSubmit s a) := by
  unfold State.colSubmit
  try dsimp only
  repeat' first | (intro _) | (with_reducible assumption) | (with_reducible apply State.colSubmitAs_memOk)

theorem State.heartbeatReceive_memOk {s epoch} (hs : MemOk s) :
    MemOk (State.heartbeatReceive s epoch) := by
  unfold State.heartbeatReceive
  try dsimp only
  repeat' first | (intro _) | (with_reducible assumption) | (with_reducible apply State.wr_memOk) | (with_reducible apply State.heartbeatSeen_memOk) | (with_reducible apply ite_memOk)

theorem State.colRead_memOk {s x i} (hs : MemOk s) :
    MemOk (State.colRead s x i).1 := by
  unfold State.colRead
  try dsimp only
  repeat' first | (intro _) | (with_reducible assumption) | (with_reducible apply State.checkReads_memOk) | (with_reducible apply State.noteFar_memOk)

theorem State.heartbeatTimeout_memOk {s} (hs : MemOk s) :
    MemOk (State.heartbeatTimeout s) := by
  unfold State.heartbeatTimeout
  try dsimp only
  repeat' first | (intro _) | (with_reducible assumption) | (with_reducible apply State.colStat_memOk) | (with_reducible apply State.wrs_memOk) | (with_reducible apply ite_memOk)

theorem State.colCntClear_memOk {s} (hs : MemOk s) :
    MemOk (State.colCntClear s) := by
  unfold State.colCntClear
  try dsimp only
  repeat' first | (intro _) | (with_reducible assumption) | (with_reducible apply State.zeros_memOk) | (with_reducible apply State.colClear_memOk)

theorem State.colEvents_memOk {s evs} (hs : MemOk s) :
    MemOk (State.colEvents s evs) := by
  unfold State.colEvents
  try dsimp only
  repeat' first | (intro _) | (with_reducible assumption) | (with_reducible apply State.inc_memOk) | (with_reducible apply ite_memOk) | (with_reducible apply ite_memOk_fst) | (with_reducible apply foldl_memOk)

theorem State.colApply_memOk {s m} (hs : MemOk s) :
    MemOk (State.colApply s m).1 := by
  unfold State.colApply
  try dsimp only
  repeat' first | (intro _) | (with_reducible assumption) | (with_reducible apply State.colEvents_memOk) | (with_reducible apply State.deliverBy_memOk) | (with_reducible apply State.checkPieces_memOk) | (with_reducible apply State.accums_memOk) | (with_reducible apply ite_memOk) | (with_reducible apply ite_memOk_fst)

theorem State.colRecv_optOk {s o x c l} (hs : MemOk s) :
    OptOk (State.colRecv s o x c l) := by
  unfold State.colRecv
  try dsimp only
  repeat' first | (intro _) | (with_reducible assumption) | (with_reducible apply State.colApply_memOk) | exact OptOk_none | (with_reducible apply OptOk_some) | (with_reducible apply ite_optOk)

theorem State.shardTags_memOk {s c tags} (hs : MemOk s) :
    MemOk (State.shardTags s c tags).1 := by
  unfold State.shardTags
  try dsimp only
  repeat' first | (intro _) | (with_reducible assumption) | (with_reducible apply State.hbmRead_memOk) | (with_reducible apply ite_memOk) | (with_reducible apply ite_memOk_fst)

theorem State.shardGen_memOk {s c k} (hs : MemOk s) :
    MemOk (State.shardGen s c k).1 := by
  unfold State.shardGen
  try dsimp only
  repeat' first | (intro _) | (with_reducible assumption) | (with_reducible apply State.hbmRead_memOk)

theorem State.recordTags_memOk {s c tags} (hs : MemOk s) :
    MemOk (State.recordTags s c tags).1 := by
  unfold State.recordTags
  try dsimp only
  repeat' first | (intro _) | (with_reducible assumption) | (with_reducible apply State.hbmWriteBy_memOk) | (with_reducible apply ite_memOk) | (with_reducible apply ite_memOk_fst)

theorem State.colGather_optOk {s o x c shards tags} (hs : MemOk s) :
    OptOk (State.colGather s o x c shards tags) := by
  unfold State.colGather
  try dsimp only
  repeat' first | (intro _) | (with_reducible assumption) | (with_reducible apply State.colRead_memOk) | (with_reducible apply State.shardGen_memOk) | (with_reducible apply State.shardTags_memOk) | (with_reducible apply State.colEvents_memOk) | (with_reducible apply State.inc_memOk) | (with_reducible apply State.colApply_memOk) | (with_reducible apply State.recordTags_memOk) | exact OptOk_none | (with_reducible apply OptOk_some) | (with_reducible apply ite_optOk) | (with_reducible apply ite_memOk) | (with_reducible apply ite_memOk_fst)

theorem State.colSend_memOk {s x c} (hs : MemOk s) :
    MemOk (State.colSend s x c).1 := by
  unfold State.colSend
  try dsimp only
  repeat' first | (intro _) | (with_reducible assumption) | (with_reducible apply State.colRead_memOk) | (with_reducible apply State.colEvents_memOk)

theorem State.colCombine_optOk {s o x c rows} (hs : MemOk s) :
    OptOk (State.colCombine s o x c rows) := by
  unfold State.colCombine
  try dsimp only
  repeat' first | (intro _) | (with_reducible assumption) | (with_reducible apply State.colRead_memOk) | (with_reducible apply State.colApply_memOk) | exact OptOk_none | (with_reducible apply OptOk_some) | (with_reducible apply ite_optOk)

theorem State.colPermute_optOk {s o x c pieces} (hs : MemOk s) :
    OptOk (State.colPermute s o x c pieces) := by
  unfold State.colPermute
  try dsimp only
  repeat' first | (intro _) | (with_reducible assumption) | (with_reducible apply State.colRead_memOk) | (with_reducible apply State.deliverBy_memOk) | (with_reducible apply State.colApply_memOk) | (with_reducible apply State.openRange_memOk) | exact OptOk_none | (with_reducible apply OptOk_some) | (with_reducible apply ite_optOk) | (with_reducible apply ite_memOk) | (with_reducible apply ite_memOk_fst) | (with_reducible apply foldl_memOk) | (with_reducible apply foldl_memOk_fst)

theorem State.colReduce_optOk {s o x c parts res tags} (hs : MemOk s) :
    OptOk (State.colReduce s o x c parts res tags) := by
  unfold State.colReduce
  try dsimp only
  repeat' first | (intro _) | (with_reducible assumption) | (with_reducible apply State.colRead_memOk) | (with_reducible apply State.colEvents_memOk) | (with_reducible apply State.colApply_memOk) | exact OptOk_none | (with_reducible apply OptOk_some) | (with_reducible apply ite_optOk)

theorem State.colNorm_memOk {s x c part res} (hs : MemOk s) :
    MemOk (State.colNorm s x c part res).1 := by
  unfold State.colNorm
  try dsimp only
  repeat' first | (intro _) | (with_reducible assumption) | (with_reducible apply State.colRead_memOk) | (with_reducible apply State.colEvents_memOk) | (with_reducible apply ite_memOk) | (with_reducible apply ite_memOk_fst) | (with_reducible apply foldl_memOk) | (with_reducible apply foldl_memOk_fst)

theorem State.colDispatch_optOk {s o x c counts plans rows} (hs : MemOk s) :
    OptOk (State.colDispatch s o x c counts plans rows) := by
  unfold State.colDispatch
  try dsimp only
  repeat' first | (intro _) | (with_reducible assumption) | (with_reducible apply State.colRead_memOk) | (with_reducible apply State.inc_memOk) | (with_reducible apply State.colApply_memOk) | (with_reducible apply State.colEvents_memOk) | (with_reducible apply State.deliverBy_memOk) | exact OptOk_none | (with_reducible apply OptOk_some) | (with_reducible apply ite_optOk) | (with_reducible apply ite_memOk) | (with_reducible apply ite_memOk_fst)

theorem State.colRun_memOk {s : State} {op submit g id f}
    (hs : MemOk s) (hf : ∀ t o x c, MemOk t → OptOk (f t o x c)) : MemOk (s.colRun op submit g id f) := by
  have h1 : ∀ a, MemOk (s.colSubmit a) := fun a => State.colSubmit_memOk hs
  unfold State.colRun
  cases submit <;> dsimp only
  all_goals
    split
    · first | exact hs | exact h1 _
    · split
      · first | exact hs | exact h1 _
      · split
        · first | exact hs | exact h1 _
        · split
          · first | exact State.wakeBy_memOk hs | exact State.wakeBy_memOk (h1 _)
          · split
            · first | exact hs | exact h1 _
            · next y hy => exact State.colPut_memOk ((hf _ _ _ _ (by first | exact hs | exact h1 _)).memOk _ hy)

theorem State.shapeWrite_memOk {s0 lr words} (hs0 : MemOk s0) :
    MemOk (State.shapeWrite s0 lr words) := by
  unfold State.shapeWrite
  try dsimp only
  repeat' first | (intro _) | (with_reducible assumption) | (with_reducible apply State.hbmRead_memOk) | (with_reducible apply State.hbmWrite_memOk) | (with_reducible apply ite_memOk) | (with_reducible apply ite_memOk_fst) | (with_reducible apply foldl_memOk)

theorem State.egress_memOk {s owner prio bytes} (hs : MemOk s) :
    MemOk (State.egress s owner prio bytes) := by
  unfold State.egress
  try dsimp only
  repeat' first | (intro _) | (with_reducible assumption) | (with_reducible apply State.setLink_memOk)

theorem State.egressPkt_memOk {s f ptype first last seq pay} (hs : MemOk s) :
    MemOk (State.egressPkt s f ptype first last seq pay) := by
  unfold State.egressPkt
  try dsimp only
  repeat' first | (intro _) | (with_reducible assumption) | (with_reducible apply State.egress_memOk)

theorem State.sendAck_memOk {s f} (hs : MemOk s) :
    MemOk (State.sendAck s f) := by
  unfold State.sendAck
  try dsimp only
  repeat' first | (intro _) | (with_reducible assumption) | (with_reducible apply State.egressPkt_memOk)

theorem State.setFlow_memOk {s f x} (hs : MemOk s) :
    MemOk (State.setFlow s f x) := by
  unfold State.setFlow
  try dsimp only
  repeat' first | (intro _) | (with_reducible assumption)

theorem State.flowBreak_memOk {s f} (hs : MemOk s) :
    MemOk (State.flowBreak s f) := by
  unfold State.flowBreak
  try dsimp only
  repeat' first | (intro _) | (with_reducible assumption) | (with_reducible apply State.setFlow_memOk) | (with_reducible apply State.wr_memOk)

theorem State.flowPush_memOk {s f a} (hs : MemOk s) :
    MemOk (State.flowPush s f a) := by
  fun_induction State.flowPush s f a <;>
    (repeat' first | (intro _) | extract_lets | (with_reducible assumption) | (with_reducible apply_assumption))

theorem State.flowResend_memOk {s f p} (hs : MemOk s) :
    MemOk (State.flowResend s f p) := by
  unfold State.flowResend
  try dsimp only
  repeat' first | (intro _) | (with_reducible assumption) | (with_reducible apply State.setFlow_memOk) | (with_reducible apply State.inc_memOk) | (with_reducible apply State.egressPkt_memOk)

theorem State.flowAck_memOk {s f us ack sack win} (hs : MemOk s) :
    MemOk (State.flowAck s f us ack sack win) := by
  unfold State.flowAck
  try dsimp only
  repeat' first | (intro _) | (with_reducible assumption) | (with_reducible apply State.setFlow_memOk) | (with_reducible apply State.flowPush_memOk) | (with_reducible apply State.flowResend_memOk) | (with_reducible apply ite_memOk) | (with_reducible apply ite_memOk_fst) | (with_reducible apply foldl_memOk)

theorem State.ackPacket_memOk {s f ack sack win us} (hs : MemOk s) :
    MemOk (State.ackPacket s f ack sack win us) := by
  unfold State.ackPacket
  try dsimp only
  repeat' first | (intro _) | (with_reducible assumption) | (with_reducible apply State.inc_memOk) | (with_reducible apply State.flowAck_memOk) | (with_reducible apply ite_memOk)

theorem State.popMsg_memOk {s f} (hs : MemOk s) :
    MemOk (State.popMsg s f) := by
  unfold State.popMsg
  try dsimp only
  repeat' first | (intro _) | (with_reducible assumption) | (with_reducible apply State.setFlow_memOk)

theorem State.markStep_memOk {s lr} (hs : MemOk s) :
    MemOk (State.markStep s lr).1 := by
  unfold State.markStep
  try dsimp only
  repeat' first | (intro _) | (with_reducible assumption) | (with_reducible apply State.wr_memOk) | (with_reducible apply ite_memOk) | (with_reducible apply ite_memOk_fst)

theorem State.flowWrite_memOk {s f valid mgmt prio tenant port window host} (hs : MemOk s) :
    MemOk (State.flowWrite s f valid mgmt prio tenant port window host) := by
  unfold State.flowWrite
  try dsimp only
  repeat' first | (intro _) | (with_reducible assumption) | (with_reducible apply State.wrs_memOk) | (with_reducible apply State.setFlow_memOk) | (with_reducible apply ite_memOk)

theorem State.flowWords_memOk {s f valid mgmt prio tenant port window host m} (hs : MemOk s) :
    MemOk (State.flowWords s f valid mgmt prio tenant port window host m) := by
  unfold State.flowWords
  try dsimp only
  repeat' first | (intro _) | (with_reducible assumption) | (with_reducible apply State.flowWrite_memOk) | (with_reducible apply State.setFlow_memOk) | (with_reducible apply ite_memOk)

theorem State.hostSend_memOk {s f bytes} (hs : MemOk s) :
    MemOk (State.hostSend s f bytes) := by
  unfold State.hostSend
  try dsimp only
  repeat' first | (intro _) | (with_reducible assumption) | (with_reducible apply State.setFlow_memOk) | (with_reducible apply State.flowPush_memOk) | (with_reducible apply ite_memOk)

theorem State.hostReply_memOk {s f mtype status tag body} (hs : MemOk s) :
    MemOk (State.hostReply s f mtype status tag body) := by
  unfold State.hostReply
  try dsimp only
  repeat' first | (intro _) | (with_reducible assumption) | (with_reducible apply State.hostSend_memOk)

theorem State.fwReply_memOk {s f tag status body} (hs : MemOk s) :
    MemOk (State.fwReply s f tag status body) := by
  unfold State.fwReply
  try dsimp only
  repeat' first | (intro _) | (with_reducible assumption) | (with_reducible apply State.hostReply_memOk)

theorem State.jobCmd_memOk {s f tag num sched step} (hs : MemOk s) :
    MemOk (State.jobCmd s f tag num sched step) := by
  unfold State.jobCmd
  try dsimp only
  repeat' first | (intro _) | (with_reducible assumption) | (with_reducible apply State.fwReply_memOk) | (with_reducible apply State.wrs_memOk) | (with_reducible apply ite_memOk)

theorem State.keepalive_memOk {s f ack sack win us} (hs : MemOk s) :
    MemOk (State.keepalive s f ack sack win us) := by
  unfold State.keepalive
  try dsimp only
  repeat' first | (intro _) | (with_reducible assumption) | (with_reducible apply State.inc_memOk) | (with_reducible apply State.sendAck_memOk) | (with_reducible apply State.flowAck_memOk) | (with_reducible apply ite_memOk)

theorem State.noteHole_memOk {s a st} (hs : MemOk s) :
    MemOk (State.noteHole s a st) := by
  unfold State.noteHole
  try dsimp only
  repeat' first | (intro _) | (with_reducible assumption) | (with_reducible apply State.inc_memOk) | (with_reducible apply ite_memOk)

theorem State.deposit_memOk {s f m} (hs : MemOk s) :
    MemOk (State.deposit s f m) := by
  unfold State.deposit
  try dsimp only
  repeat' first | (intro _) | (with_reducible assumption) | (with_reducible apply State.hbmWrite_memOk) | (with_reducible apply State.popMsg_memOk) | (with_reducible apply State.wr_memOk)

theorem State.cmdResume_memOk {s f} (hs : MemOk s) :
    MemOk (State.cmdResume s f) := by
  unfold State.cmdResume
  try dsimp only
  repeat' first | (intro _) | (with_reducible assumption) | (with_reducible apply State.sendAck_memOk) | (with_reducible apply State.deposit_memOk) | (with_reducible apply ite_memOk) | (with_reducible apply ite_memOk_fst) | (with_reducible apply foldl_memOk) | (with_reducible apply foldl_memOk_fst) | (with_reducible apply Tbl.wf_set) | (with_reducible apply Tbl.wf_cut) | (with_reducible apply Tbl.wf_copy) | (with_reducible apply Tbl.wf_filter) | split

theorem State.cmdNack_memOk {s f} (hs : MemOk s) :
    MemOk (State.cmdNack s f) := by
  unfold State.cmdNack
  try dsimp only
  repeat' first | (intro _) | (with_reducible assumption) | (with_reducible apply State.hostReply_memOk) | (with_reducible apply State.popMsg_memOk) | (with_reducible apply ite_memOk) | (with_reducible apply ite_memOk_fst) | (with_reducible apply foldl_memOk) | (with_reducible apply foldl_memOk_fst) | (with_reducible apply Tbl.wf_set) | (with_reducible apply Tbl.wf_cut) | (with_reducible apply Tbl.wf_copy) | (with_reducible apply Tbl.wf_filter) | split

theorem State.hostCmd_memOk {s f} (hs : MemOk s) :
    MemOk (State.hostCmd s f) := by
  unfold State.hostCmd
  try dsimp only
  repeat' first | (intro _) | (with_reducible assumption) | (with_reducible apply State.inc_memOk) | (with_reducible apply State.setFlow_memOk) | (with_reducible apply State.deposit_memOk) | (with_reducible apply ite_memOk) | (with_reducible apply ite_memOk_fst) | (with_reducible apply foldl_memOk) | (with_reducible apply foldl_memOk_fst) | (with_reducible apply Tbl.wf_set) | (with_reducible apply Tbl.wf_cut) | (with_reducible apply Tbl.wf_copy) | (with_reducible apply Tbl.wf_filter) | split

theorem State.hostDown_memOk {s} (hs : MemOk s) :
    MemOk (State.hostDown s) := by
  unfold State.hostDown
  try dsimp only
  repeat' first | (intro _) | (with_reducible assumption) | (with_reducible apply State.inc_memOk) | (with_reducible apply State.wr_memOk) | (with_reducible apply ite_memOk)

theorem State.hostUp_memOk {s} (hs : MemOk s) :
    MemOk (State.hostUp s) := by
  unfold State.hostUp
  try dsimp only
  repeat' first | (intro _) | (with_reducible assumption) | (with_reducible apply State.wr_memOk) | (with_reducible apply ite_memOk)

theorem State.hostGet_memOk {s f} (hs : MemOk s) :
    MemOk (State.hostGet s f) := by
  unfold State.hostGet
  try dsimp only
  repeat' first | (intro _) | (with_reducible assumption) | (with_reducible apply State.hostReply_memOk) | (with_reducible apply State.popMsg_memOk) | (with_reducible apply State.noteHole_memOk) | (with_reducible apply State.hbmRead_memOk) | (with_reducible apply ite_memOk) | (with_reducible apply ite_memOk_fst) | (with_reducible apply foldl_memOk) | (with_reducible apply foldl_memOk_fst) | (with_reducible apply Tbl.wf_set) | (with_reducible apply Tbl.wf_cut) | (with_reducible apply Tbl.wf_copy) | (with_reducible apply Tbl.wf_filter) | split

theorem State.txqGo_memOk {s f} (hs : MemOk s) :
    MemOk (State.txqGo s f) := by
  unfold State.txqGo
  try dsimp only
  repeat' first | (intro _) | (with_reducible assumption) | (with_reducible apply State.hbmRead_memOk) | (with_reducible apply State.hostSend_memOk) | (with_reducible apply ite_memOk)

theorem State.hostWait_memOk {s : State} {f ans} (hs : MemOk s) (ha : ∀ a b c, MemOk (ans s a b c)) : MemOk (s.hostWait f ans) := by
  unfold State.hostWait
  exact ite_memOk (State.setFlow_memOk hs) (ha _ _ _)

theorem State.hostPut_memOk {s f} (hs : MemOk s) :
    MemOk (State.hostPut s f) := by
  unfold State.hostPut
  try dsimp only
  repeat' first | (intro _) | (with_reducible assumption) | (with_reducible apply State.hostReply_memOk) | (with_reducible apply State.popMsg_memOk) | (with_reducible apply State.hostWait_memOk) | (with_reducible apply State.noteHole_memOk) | (with_reducible apply State.hbmWriteBy_memOk) | (with_reducible apply ite_memOk) | (with_reducible apply ite_memOk_fst) | (with_reducible apply foldl_memOk) | (with_reducible apply foldl_memOk_fst) | (with_reducible apply Tbl.wf_set) | (with_reducible apply Tbl.wf_cut) | (with_reducible apply Tbl.wf_copy) | (with_reducible apply Tbl.wf_filter) | split

theorem State.hostReduce_memOk {s f} (hs : MemOk s) :
    MemOk (State.hostReduce s f) := by
  unfold State.hostReduce
  try dsimp only
  repeat' first | (intro _) | (with_reducible assumption) | (with_reducible apply State.hostReply_memOk) | (with_reducible apply State.popMsg_memOk) | (with_reducible apply State.hostWait_memOk) | (with_reducible apply State.noteHole_memOk) | (with_reducible apply State.atomsRun_memOk) | (with_reducible apply ite_memOk) | (with_reducible apply ite_memOk_fst) | (with_reducible apply foldl_memOk) | (with_reducible apply foldl_memOk_fst) | (with_reducible apply Tbl.wf_set) | (with_reducible apply Tbl.wf_cut) | (with_reducible apply Tbl.wf_copy) | (with_reducible apply Tbl.wf_filter) | split

theorem State.collCmd_memOk {s f a} (hs : MemOk s) :
    MemOk (State.collCmd s f a) := by
  unfold State.collCmd
  try dsimp only
  repeat' first | (intro _) | (with_reducible assumption) | (with_reducible apply State.colSubmitAs_memOk) | (with_reducible apply ite_memOk)

theorem State.hostAtomic_memOk {s f} (hs : MemOk s) :
    MemOk (State.hostAtomic s f) := by
  unfold State.hostAtomic
  try dsimp only
  repeat' first | (intro _) | (with_reducible assumption) | (with_reducible apply State.hostReply_memOk) | (with_reducible apply State.popMsg_memOk) | (with_reducible apply State.hostWait_memOk) | (with_reducible apply State.noteHole_memOk) | (with_reducible apply State.atomsRun_memOk) | (with_reducible apply ite_memOk) | (with_reducible apply ite_memOk_fst) | (with_reducible apply foldl_memOk) | (with_reducible apply foldl_memOk_fst) | (with_reducible apply Tbl.wf_set) | (with_reducible apply Tbl.wf_cut) | (with_reducible apply Tbl.wf_copy) | (with_reducible apply Tbl.wf_filter) | split

theorem State.flowTimeout_memOk {s f} (hs : MemOk s) :
    MemOk (State.flowTimeout s f) := by
  unfold State.flowTimeout
  try dsimp only
  repeat' first | (intro _) | (with_reducible assumption) | (with_reducible apply State.setFlow_memOk) | (with_reducible apply State.flowBreak_memOk) | (with_reducible apply State.flowResend_memOk) | (with_reducible apply ite_memOk) | (with_reducible apply ite_memOk_fst) | (with_reducible apply foldl_memOk) | (with_reducible apply foldl_memOk_fst) | (with_reducible apply Tbl.wf_set) | (with_reducible apply Tbl.wf_cut) | (with_reducible apply Tbl.wf_copy) | (with_reducible apply Tbl.wf_filter) | split

theorem State.dataPacket_memOk {s f first last seq ack sack win us pay} (hs : MemOk s) :
    MemOk (State.dataPacket s f first last seq ack sack win us pay) := by
  unfold State.dataPacket
  try dsimp only
  repeat' first | (intro _) | (with_reducible assumption) | (with_reducible apply State.inc_memOk) | (with_reducible apply State.flowAck_memOk) | (with_reducible apply State.sendAck_memOk) | (with_reducible apply State.charge_memOk) | (with_reducible apply State.setFlow_memOk) | (with_reducible apply ite_memOk)

theorem State.abortCmd_memOk {s f tag id} (hs : MemOk s) :
    MemOk (State.abortCmd s f tag id) := by
  unfold State.abortCmd
  try dsimp only
  repeat' first | (intro _) | (with_reducible assumption) | (with_reducible apply State.fwReply_memOk) | (with_reducible apply State.htpAbort_memOk) | (with_reducible apply State.wr_memOk) | (with_reducible apply State.hostReply_memOk) | (with_reducible apply ite_memOk)

theorem State.launchCmd_memOk {s c f rcd shape} (hs : MemOk s) :
    MemOk (State.launchCmd s c f rcd shape) := by
  unfold State.launchCmd
  try dsimp only
  repeat' first | (intro _) | (with_reducible assumption) | (with_reducible apply State.commitRec_memOk) | (with_reducible apply State.markStep_memOk) | (with_reducible apply State.validate_memOk) | (with_reducible apply State.shapeWrite_memOk) | (with_reducible apply State.conclude_memOk) | (with_reducible apply ite_memOk)

theorem State.transport_memOk {s src dst sport us l} (hs : MemOk s) :
    MemOk (State.transport s src dst sport us l) := by
  unfold State.transport
  try dsimp only
  repeat' first | (intro _) | (with_reducible assumption) | (with_reducible apply State.inc_memOk) | (with_reducible apply State.dataPacket_memOk) | (with_reducible apply State.ackPacket_memOk) | (with_reducible apply State.keepalive_memOk) | (with_reducible apply ite_memOk)

theorem State.echo_memOk {s src dst rest} (hs : MemOk s) :
    MemOk (State.echo s src dst rest) := by
  unfold State.echo
  try dsimp only
  repeat' first | (intro _) | (with_reducible assumption) | (with_reducible apply State.egress_memOk) | (with_reducible apply ite_memOk)

theorem State.neighbor_memOk {s src target} (hs : MemOk s) :
    MemOk (State.neighbor s src target) := by
  unfold State.neighbor
  try dsimp only
  repeat' first | (intro _) | (with_reducible assumption) | (with_reducible apply State.egress_memOk) | (with_reducible apply ite_memOk)

theorem State.ipPacket_memOk {s us p} (hs : MemOk s) :
    MemOk (State.ipPacket s us p) := by
  unfold State.ipPacket
  try dsimp only
  repeat' first | (intro _) | (with_reducible assumption) | (with_reducible apply State.inc_memOk) | (with_reducible apply State.neighbor_memOk) | (with_reducible apply State.echo_memOk) | (with_reducible apply State.transport_memOk) | (with_reducible apply ite_memOk)

theorem State.frameReceive_memOk {s fec us fr} (hs : MemOk s) :
    MemOk (State.frameReceive s fec us fr) := by
  unfold State.frameReceive
  try dsimp only
  repeat' first | (intro _) | (with_reducible assumption) | (with_reducible apply State.inc_memOk) | (with_reducible apply State.ipPacket_memOk) | (with_reducible apply ite_memOk)

end Sys2Proof.Machine
end

