-- ==== Sys2Proof/Laws/MemSys.lean ====
section
/-!
SUPPORT. Memory keeps its canonical form: the operations of security, reset, boot, power, the electrical commands and self-test.
-/


namespace Sys2Proof.Machine

theorem State.unlock_memOk {s} (hs : MemOk s) :
    MemOk (State.unlock s) := by
  unfold State.unlock
  try dsimp only
  repeat' first | (intro _) | (with_reducible assumption) | (with_reducible apply State.wr_memOk) | (with_reducible apply State.wrs_memOk) | (with_reducible apply ite_memOk) | (with_reducible apply ite_memOk_fst) | (with_reducible apply foldl_memOk)

theorem State.meterStore_memOk {s rec} (hs : MemOk s) :
    MemOk (State.meterStore s rec) := by
  unfold State.meterStore
  try dsimp only
  repeat' first | (intro _) | (with_reducible assumption) | (with_reducible apply State.wr_memOk) | (with_reducible apply State.hbmWrite_memOk)

theorem State.meterFlush_memOk {s : State} {n} (hs : MemOk s) : MemOk (s.meterFlush n) := by
  induction n generalizing s with
  | zero => exact hs
  | succ n ih =>
    unfold State.meterFlush
    split
    · exact hs
    · split
      · exact hs
      · exact ih (State.meterStore_memOk hs)

theorem State.takeSeq_memOk {s} (hs : MemOk s) :
    MemOk (State.takeSeq s) := by
  unfold State.takeSeq
  try dsimp only
  repeat' first | (intro _) | (with_reducible assumption) | (with_reducible apply State.wrs_memOk)

theorem State.closeInterval_memOk {s t part} (hs : MemOk s) :
    MemOk (State.closeInterval s t part) := by
  unfold State.closeInterval
  try dsimp only
  repeat' first | (intro _) | (with_reducible assumption) | (with_reducible apply State.wrs_memOk) | (with_reducible apply State.wr_memOk) | (with_reducible apply State.takeSeq_memOk) | (with_reducible apply ite_memOk) | (with_reducible apply ite_memOk_fst) | (with_reducible apply foldl_memOk)

theorem State.endIntervals_memOk {s} (hs : MemOk s) :
    MemOk (State.endIntervals s) := by
  unfold State.endIntervals
  try dsimp only
  repeat' first | (intro _) | (with_reducible assumption) | (with_reducible apply State.wr_memOk) | (with_reducible apply State.closeInterval_memOk) | (with_reducible apply State.wrs_memOk) | (with_reducible apply ite_memOk) | (with_reducible apply ite_memOk_fst) | (with_reducible apply foldl_memOk)

theorem State.meterTail_memOk {s i} (hs : MemOk s) :
    MemOk (State.meterTail s i) := by
  unfold State.meterTail
  try dsimp only
  repeat' first | (intro _) | (with_reducible assumption) | (with_reducible apply State.wr_memOk) | (with_reducible apply State.meterFlush_memOk) | (with_reducible apply State.endIntervals_memOk) | (with_reducible apply ite_memOk)

theorem State.beginScrub_memOk {s u old new own pend stat} (hs : MemOk s) :
    MemOk (State.beginScrub s u old new own pend stat) := by
  unfold State.beginScrub
  try dsimp only
  repeat' first | (intro _) | (with_reducible assumption) | (with_reducible apply State.wrs_memOk) | (with_reducible apply State.closeInterval_memOk) | (with_reducible apply ite_memOk)

theorem State.deriveId_memOk {s} (hs : MemOk s) :
    MemOk (State.deriveId s) := by
  unfold State.deriveId
  try dsimp only
  repeat' first | (intro _) | (with_reducible assumption) | (with_reducible apply State.wr_memOk) | (with_reducible apply ite_memOk) | (with_reducible apply ite_memOk_fst) | (with_reducible apply foldl_memOk)

theorem State.assignReply_memOk {s f tag u pend stat} (hs : MemOk s) :
    MemOk (State.assignReply s f tag u pend stat) := by
  unfold State.assignReply
  try dsimp only
  repeat' first | (intro _) | (with_reducible assumption) | (with_reducible apply State.fwReply_memOk) | (with_reducible apply State.wrs_memOk) | (with_reducible apply ite_memOk)

theorem State.tenRegion_memOk {s r o} (hs : MemOk s) :
    MemOk (State.tenRegion s r o) := by
  unfold State.tenRegion
  try dsimp only
  repeat' first | (intro _) | (with_reducible assumption) | (with_reducible apply State.wr_memOk) | (with_reducible apply State.spZero_memOk) | (with_reducible apply State.beginScrub_memOk) | (with_reducible apply ite_memOk)

theorem State.tenStack_memOk {s k o} (hs : MemOk s) :
    MemOk (State.tenStack s k o) := by
  unfold State.tenStack
  try dsimp only
  repeat' first | (intro _) | (with_reducible assumption) | (with_reducible apply State.wr_memOk) | (with_reducible apply State.hbmZero_memOk) | (with_reducible apply State.beginScrub_memOk) | (with_reducible apply ite_memOk)

theorem State.tenAssign_memOk {s f tag kind i v} (hs : MemOk s) :
    MemOk (State.tenAssign s f tag kind i v) := by
  unfold State.tenAssign
  try dsimp only
  repeat' first | (intro _) | (with_reducible assumption) | (with_reducible apply State.fwReply_memOk) | (with_reducible apply State.tenRegion_memOk) | (with_reducible apply State.assignReply_memOk) | (with_reducible apply State.tenStack_memOk) | (with_reducible apply State.wr_memOk) | (with_reducible apply ite_memOk) | (with_reducible apply ite_memOk_fst) | (with_reducible apply foldl_memOk) | (with_reducible apply foldl_memOk_fst) | (with_reducible apply Tbl.wf_set) | (with_reducible apply Tbl.wf_cut) | (with_reducible apply Tbl.wf_copy) | (with_reducible apply Tbl.wf_filter) | split

theorem State.intervalEnd_memOk {s} (hs : MemOk s) :
    MemOk (State.intervalEnd s) := by
  unfold State.intervalEnd
  try dsimp only
  repeat' first | (intro _) | (with_reducible assumption) | (with_reducible apply State.wr_memOk) | (with_reducible apply State.endIntervals_memOk) | (with_reducible apply ite_memOk)

theorem State.meterHoldings_memOk {s : State} (hs : MemOk s) : MemOk s.meterHoldings := by
  unfold State.meterHoldings
  generalize List.range 32768 = l
  refine foldl_memOk (foldl_memOk (foldl_memOk hs fun t a h => ?_) fun t a h => ?_) fun t a h => ?_
  all_goals
    dsimp only
    split
    · exact h
    · first | exact State.charge_memOk h | exact h

theorem State.measLock_memOk {s mask0} (hs : MemOk s) :
    MemOk (State.measLock s mask0) := by
  unfold State.measLock
  try dsimp only
  repeat' first | (intro _) | (with_reducible assumption) | (with_reducible apply State.wr_memOk)

theorem State.measExtend_memOk {s m d} (hs : MemOk s) :
    MemOk (State.measExtend s m d) := by
  unfold State.measExtend
  try dsimp only
  repeat' first | (intro _) | (with_reducible assumption) | (with_reducible apply State.wr_memOk) | (with_reducible apply ite_memOk) | (with_reducible apply ite_memOk_fst) | (with_reducible apply foldl_memOk)

theorem State.measGo_memOk {s m} (hs : MemOk s) :
    MemOk (State.measGo s m) := by
  unfold State.measGo
  try dsimp only
  repeat' first | (intro _) | (with_reducible assumption) | (with_reducible apply State.wr_memOk) | (with_reducible apply State.measExtend_memOk) | (with_reducible apply ite_memOk)

theorem State.dbgChallenge_memOk {s f tag} (hs : MemOk s) :
    MemOk (State.dbgChallenge s f tag) := by
  unfold State.dbgChallenge
  try dsimp only
  repeat' first | (intro _) | (with_reducible assumption) | (with_reducible apply State.fwReply_memOk) | (with_reducible apply State.wrs_memOk)

theorem State.meterEnergy_memOk {s regions0 stackSet wakes links total} (hs : MemOk s) :
    MemOk (State.meterEnergy s regions0 stackSet wakes links total) := by
  unfold State.meterEnergy
  try dsimp only
  repeat' first | (intro _) | (with_reducible assumption) | (with_reducible apply State.charge_memOk) | (with_reducible apply State.wr_memOk) | (with_reducible apply ite_memOk) | (with_reducible apply ite_memOk_fst) | (with_reducible apply foldl_memOk)

theorem State.certGet_memOk {s f tag} (hs : MemOk s) :
    MemOk (State.certGet s f tag) := by
  unfold State.certGet
  try dsimp only
  repeat' first | (intro _) | (with_reducible assumption) | (with_reducible apply State.fwReply_memOk)

theorem State.attest_memOk {s f tag nonce t} (hs : MemOk s) :
    MemOk (State.attest s f tag nonce t) := by
  unfold State.attest
  try dsimp only
  repeat' first | (intro _) | (with_reducible assumption)

theorem State.debugEvent_memOk {s kind slot} (hs : MemOk s) :
    MemOk (State.debugEvent s kind slot) := by
  unfold State.debugEvent
  try dsimp only
  repeat' first | (intro _) | (with_reducible assumption) | (with_reducible apply State.hltLog_memOk) | (with_reducible apply State.measExtend_memOk)

theorem State.endScrub_memOk {s u own pend} (hs : MemOk s) :
    MemOk (State.endScrub s u own pend) := by
  unfold State.endScrub
  try dsimp only
  repeat' first | (intro _) | (with_reducible assumption) | (with_reducible apply State.inc_memOk) | (with_reducible apply State.wrs_memOk) | (with_reducible apply State.fwReply_memOk) | (with_reducible apply State.wr_memOk) | (with_reducible apply ite_memOk)

theorem State.leavesFollow_memOk {s r} (hs : MemOk s) :
    MemOk (State.leavesFollow s r) := by
  unfold State.leavesFollow
  try dsimp only
  repeat' first | (intro _) | (with_reducible assumption) | (with_reducible apply State.wr_memOk) | (with_reducible apply ite_memOk) | (with_reducible apply ite_memOk_fst) | (with_reducible apply foldl_memOk)

theorem State.reassignDone_memOk {s u} (hs : MemOk s) :
    MemOk (State.reassignDone s u) := by
  unfold State.reassignDone
  try dsimp only
  repeat' first | (intro _) | (with_reducible assumption) | (with_reducible apply State.zeroDone_memOk) | (with_reducible apply State.wrs_memOk) | (with_reducible apply State.zeros_memOk) | (with_reducible apply State.leavesFollow_memOk) | (with_reducible apply State.endScrub_memOk) | (with_reducible apply State.hbmZeroDone_memOk) | (with_reducible apply ite_memOk) | (with_reducible apply ite_memOk_fst) | (with_reducible apply foldl_memOk)

theorem State.relock_memOk {s} (hs : MemOk s) :
    MemOk (State.relock s) := by
  unfold State.relock
  try dsimp only
  repeat' first | (intro _) | (with_reducible assumption) | (with_reducible apply State.wr_memOk)

theorem State.pwdSet_memOk {s f tag digest} (hs : MemOk s) :
    MemOk (State.pwdSet s f tag digest) := by
  unfold State.pwdSet
  try dsimp only
  repeat' first | (intro _) | (with_reducible assumption) | (with_reducible apply State.fwReply_memOk) | (with_reducible apply State.wrs_memOk) | (with_reducible apply ite_memOk)

theorem State.debugReply_memOk {s f tag kind slot} (hs : MemOk s) :
    MemOk (State.debugReply s f tag kind slot) := by
  unfold State.debugReply
  try dsimp only
  repeat' first | (intro _) | (with_reducible assumption) | (with_reducible apply State.debugEvent_memOk)

theorem State.unlockFailed_memOk {s f tag} (hs : MemOk s) :
    MemOk (State.unlockFailed s f tag) := by
  unfold State.unlockFailed
  try dsimp only
  repeat' first | (intro _) | (with_reducible assumption) | (with_reducible apply State.inc_memOk) | (with_reducible apply State.wrs_memOk) | (with_reducible apply State.fwReply_memOk) | (with_reducible apply ite_memOk)

theorem State.unlockKey_memOk {s f tag key sig} (hs : MemOk s) :
    MemOk (State.unlockKey s f tag key sig) := by
  unfold State.unlockKey
  try dsimp only
  repeat' first | (intro _) | (with_reducible assumption) | (with_reducible apply State.fwReply_memOk) | (with_reducible apply State.wr_memOk) | (with_reducible apply State.debugReply_memOk) | (with_reducible apply State.unlock_memOk) | (with_reducible apply State.unlockFailed_memOk) | (with_reducible apply ite_memOk) | (with_reducible apply ite_memOk_fst) | (with_reducible apply foldl_memOk) | (with_reducible apply foldl_memOk_fst) | (with_reducible apply Tbl.wf_set) | (with_reducible apply Tbl.wf_cut) | (with_reducible apply Tbl.wf_copy) | (with_reducible apply Tbl.wf_filter) | split

theorem State.mgmtCmd_memOk {s f tag done} (hs : MemOk s) (hdone : MemOk done) :
    MemOk (State.mgmtCmd s f tag done) := by
  unfold State.mgmtCmd
  try dsimp only
  repeat' first | (intro _) | (with_reducible assumption) | (with_reducible apply State.fwReply_memOk) | (with_reducible apply ite_memOk)

theorem State.readyReport_memOk {s f tag} (hs : MemOk s) :
    MemOk (State.readyReport s f tag) := by
  unfold State.readyReport
  try dsimp only
  repeat' first | (intro _) | (with_reducible assumption) | (with_reducible apply State.fwReply_memOk) | (with_reducible apply ite_memOk)

theorem State.msClocks_memOk {s} (hs : MemOk s) :
    MemOk (State.msClocks s) := by
  unfold State.msClocks
  try dsimp only
  repeat' first | (intro _) | (with_reducible assumption) | (with_reducible apply State.wrs_memOk) | (with_reducible apply State.inc_memOk) | (with_reducible apply State.wr_memOk) | (with_reducible apply ite_memOk) | (with_reducible apply ite_memOk_fst) | (with_reducible apply foldl_memOk)

theorem State.signNext_memOk {s} (hs : MemOk s) :
    MemOk (State.signNext s) := by
  unfold State.signNext
  try dsimp only
  repeat' first | (intro _) | (with_reducible assumption) | (with_reducible apply State.fwReply_memOk) | (with_reducible apply State.meterFlush_memOk) | (with_reducible apply ite_memOk) | (with_reducible apply ite_memOk_fst) | (with_reducible apply foldl_memOk) | (with_reducible apply foldl_memOk_fst) | (with_reducible apply Tbl.wf_set) | (with_reducible apply Tbl.wf_cut) | (with_reducible apply Tbl.wf_copy) | (with_reducible apply Tbl.wf_filter) | split

theorem State.dbgLock_memOk {s f tag} (hs : MemOk s) :
    MemOk (State.dbgLock s f tag) := by
  unfold State.dbgLock
  try dsimp only
  repeat' first | (intro _) | (with_reducible assumption) | (with_reducible apply State.debugReply_memOk) | (with_reducible apply State.relock_memOk)

theorem State.meterTick_memOk {s regions0 stackSet wakes links total} (hs : MemOk s) :
    MemOk (State.meterTick s regions0 stackSet wakes links total) := by
  unfold State.meterTick
  try dsimp only
  repeat' first | (intro _) | (with_reducible assumption) | (with_reducible apply State.meterEnergy_memOk) | (with_reducible apply State.meterHoldings_memOk) | (with_reducible apply State.msClocks_memOk)

theorem State.keySet_memOk {s f tag k digest} (hs : MemOk s) :
    MemOk (State.keySet s f tag k digest) := by
  unfold State.keySet
  try dsimp only
  repeat' first | (intro _) | (with_reducible assumption) | (with_reducible apply State.fwReply_memOk) | (with_reducible apply State.wrs_memOk) | (with_reducible apply ite_memOk)

theorem State.unlockPwd_memOk {s f tag pwd} (hs : MemOk s) :
    MemOk (State.unlockPwd s f tag pwd) := by
  unfold State.unlockPwd
  try dsimp only
  repeat' first | (intro _) | (with_reducible assumption) | (with_reducible apply State.fwReply_memOk) | (with_reducible apply State.debugReply_memOk) | (with_reducible apply State.unlock_memOk) | (with_reducible apply State.unlockFailed_memOk) | (with_reducible apply ite_memOk)

theorem State.csramScrub_memOk {s} (hs : MemOk s) :
    MemOk (State.csramScrub s) := by
  unfold State.csramScrub
  try dsimp only
  repeat' first | (intro _) | (with_reducible assumption) | (with_reducible apply State.inc_memOk)

theorem State.keepTrips_memOk {t s} (ht : MemOk t) :
    MemOk (State.keepTrips t s) := by
  unfold State.keepTrips
  try dsimp only
  repeat' first | (intro _) | (with_reducible assumption) | (with_reducible apply State.wr_memOk) | (with_reducible apply State.wrs_memOk) | (with_reducible apply ite_memOk) | (with_reducible apply ite_memOk_fst) | (with_reducible apply foldl_memOk)

theorem State.coreReset_memOk {s c} (hs : MemOk s) :
    MemOk (State.coreReset s c) := by
  unfold State.coreReset
  try dsimp only
  repeat' first | (intro _) | (with_reducible assumption)

theorem State.ccRun_memOk {s mask0} (hs : MemOk s) :
    MemOk (State.ccRun s mask0) := by
  unfold State.ccRun
  try dsimp only
  repeat' first | (intro _) | (with_reducible assumption) | (with_reducible apply State.coreReset_memOk) | (with_reducible apply State.wr_memOk) | (with_reducible apply ite_memOk) | (with_reducible apply ite_memOk_fst) | (with_reducible apply foldl_memOk)

theorem State.bare_memOk {s keep} (hs : MemOk s) :
    MemOk (State.bare s keep) := by
  unfold State.bare
  try dsimp only
  repeat' first | (intro _) | (with_reducible assumption) | (with_reducible apply State.reset_memOk) | (with_reducible apply ite_memOk) | (with_reducible apply ite_memOk_fst) | (with_reducible apply foldl_memOk) | (with_reducible apply foldl_memOk_fst) | (with_reducible apply Tbl.wf_set) | (with_reducible apply Tbl.wf_cut) | (with_reducible apply Tbl.wf_copy) | (with_reducible apply Tbl.wf_filter)

theorem State.alwaysOn_memOk {s keep} (hs : MemOk s) :
    MemOk (State.alwaysOn s keep) := by
  unfold State.alwaysOn
  try dsimp only
  repeat' first | (intro _) | (with_reducible assumption) | (with_reducible apply State.bare_memOk)

theorem State.relockEvent_memOk {s} (hs : MemOk s) :
    MemOk (State.relockEvent s) := by
  unfold State.relockEvent
  try dsimp only
  repeat' first | (intro _) | (with_reducible assumption) | (with_reducible apply State.debugEvent_memOk) | (with_reducible apply State.relock_memOk) | (with_reducible apply ite_memOk)

theorem State.lostMem_wf {n : Nat} {m : List Host.Cell} (h : Tbl.wf (0 : BitVec 8) m = true) :
    Tbl.wf (0 : BitVec 8) (State.lostMem n m) = true := by
  unfold State.lostMem
  generalize Config.lostCells n = l
  induction l generalizing m with
  | nil => exact h
  | cons q l ih =>
    refine ih ?_
    dsimp only
    split
    · exact Tbl.wf_set h _ _
    · exact h

theorem State.warmReset_memOk {s : State} {cause core} (hs : MemOk s) : MemOk (s.warmReset cause core) := by
  unfold State.warmReset
  dsimp only
  refine State.wr_memOk (State.keepTrips_memOk (foldl_memOk ?_ fun t a h => State.wr_memOk h))
  have h1 : MemOk ({ s.relockEvent.alwaysOn keepWarm with
      mem := State.lostMem s.free (s.relockEvent.alwaysOn keepWarm).mem, clus := State.lostTiles s.free, free := s.free + 1 }) :=
    State.lostMem_wf (State.alwaysOn_memOk (State.relockEvent_memOk hs))
  split
  · exact State.wr_memOk (State.wrs_memOk h1)
  · exact State.wrs_memOk h1

theorem State.iodFault_memOk {s} (hs : MemOk s) :
    MemOk (State.iodFault s) := by
  unfold State.iodFault
  try dsimp only
  repeat' first | (intro _) | (with_reducible assumption) | (with_reducible apply State.warmReset_memOk)

theorem State.wdtKick_memOk {s c key} (hs : MemOk s) :
    MemOk (State.wdtKick s c key) := by
  unfold State.wdtKick
  try dsimp only
  repeat' first | (intro _) | (with_reducible assumption) | (with_reducible apply State.wr_memOk) | (with_reducible apply ite_memOk)

theorem State.warmRequested_memOk {s} (hs : MemOk s) :
    MemOk (State.warmRequested s) := by
  unfold State.warmRequested
  try dsimp only
  repeat' first | (intro _) | (with_reducible assumption) | (with_reducible apply State.warmReset_memOk) | (with_reducible apply ite_memOk)

theorem State.wdtArm_memOk {s c period} (hs : MemOk s) :
    MemOk (State.wdtArm s c period) := by
  unfold State.wdtArm
  try dsimp only
  repeat' first | (intro _) | (with_reducible assumption) | (with_reducible apply State.wr_memOk) | (with_reducible apply ite_memOk)

theorem State.resetCtl_memOk {s} (hs : MemOk s) :
    MemOk (State.resetCtl s) := by
  unfold State.resetCtl
  try dsimp only
  repeat' first | (intro _) | (with_reducible assumption) | (with_reducible apply State.wr_memOk)

theorem State.coldReset_memOk {s} (hs : MemOk s) :
    MemOk (State.coldReset s) := by
  unfold State.coldReset
  try dsimp only
  repeat' first | (intro _) | (with_reducible assumption) | (with_reducible apply State.keepTrips_memOk) | (with_reducible apply State.wrs_memOk) | (with_reducible apply State.bare_memOk)

theorem State.resetLow_memOk {s} (hs : MemOk s) :
    MemOk (State.resetLow s) := by
  unfold State.resetLow
  try dsimp only
  repeat' first | (intro _) | (with_reducible assumption) | (with_reducible apply State.coldReset_memOk) | (with_reducible apply State.wr_memOk) | (with_reducible apply State.wrs_memOk) | (with_reducible apply ite_memOk)

theorem State.takeStraps_memOk {s x} (hs : MemOk s) :
    MemOk (State.takeStraps s x) := by
  unfold State.takeStraps
  try dsimp only
  repeat' first | (intro _) | (with_reducible assumption) | (with_reducible apply State.wrs_memOk)

theorem State.coreParity_memOk {s c} (hs : MemOk s) :
    MemOk (State.coreParity s c) := by
  unfold State.coreParity
  try dsimp only
  repeat' first | (intro _) | (with_reducible assumption) | (with_reducible apply State.wr_memOk) | (with_reducible apply State.warmReset_memOk)

theorem State.resetHigh_memOk {s x} (hs : MemOk s) :
    MemOk (State.resetHigh s x) := by
  unfold State.resetHigh
  try dsimp only
  repeat' first | (intro _) | (with_reducible assumption) | (with_reducible apply State.wrs_memOk) | (with_reducible apply State.takeStraps_memOk) | (with_reducible apply State.coldReset_memOk) | (with_reducible apply State.wr_memOk) | (with_reducible apply ite_memOk)

theorem State.wdtExpiry_memOk {s c} (hs : MemOk s) :
    MemOk (State.wdtExpiry s c) := by
  unfold State.wdtExpiry
  try dsimp only
  repeat' first | (intro _) | (with_reducible assumption) | (with_reducible apply State.warmReset_memOk) | (with_reducible apply ite_memOk)

theorem State.measured_memOk {s m d} (hs : MemOk s) :
    MemOk (State.measured s m d) := by
  unfold State.measured
  try dsimp only
  repeat' first | (intro _) | (with_reducible assumption) | (with_reducible apply State.measLock_memOk) | (with_reducible apply State.measExtend_memOk)

theorem State.bootRom_memOk {s} (hs : MemOk s) :
    MemOk (State.bootRom s) := by
  unfold State.bootRom
  try dsimp only
  repeat' first | (intro _) | (with_reducible assumption) | (with_reducible apply State.wrs_memOk) | (with_reducible apply State.measured_memOk) | (with_reducible apply ite_memOk) | (with_reducible apply ite_memOk_fst) | (with_reducible apply foldl_memOk) | (with_reducible apply foldl_memOk_fst) | (with_reducible apply Tbl.wf_set) | (with_reducible apply Tbl.wf_cut) | (with_reducible apply Tbl.wf_copy) | (with_reducible apply Tbl.wf_filter) | split

theorem State.chooseSlot_memOk {s} (hs : MemOk s) :
    MemOk (State.chooseSlot s).1 := by
  unfold State.chooseSlot
  try dsimp only
  repeat' first | (intro _) | (with_reducible assumption) | (with_reducible apply State.wr_memOk) | (with_reducible apply State.wrs_memOk) | (with_reducible apply ite_memOk) | (with_reducible apply ite_memOk_fst)

theorem State.hostEnable_memOk {s} (hs : MemOk s) :
    MemOk (State.hostEnable s) := by
  unfold State.hostEnable
  try dsimp only
  repeat' first | (intro _) | (with_reducible assumption) | (with_reducible apply State.hostUp_memOk) | (with_reducible apply State.wr_memOk)

theorem State.bootFlows_memOk {s fs} (hs : MemOk s) :
    MemOk (State.bootFlows s fs) := by
  unfold State.bootFlows
  try dsimp only
  repeat' first | (intro _) | (with_reducible assumption) | (with_reducible apply State.flowWrite_memOk) | (with_reducible apply ite_memOk) | (with_reducible apply ite_memOk_fst) | (with_reducible apply foldl_memOk)

theorem State.bootFirst_memOk {s fs} (hs : MemOk s) :
    MemOk (State.bootFirst s fs) := by
  unfold State.bootFirst
  try dsimp only
  repeat' first | (intro _) | (with_reducible assumption) | (with_reducible apply State.chooseSlot_memOk) | (with_reducible apply State.wrs_memOk) | (with_reducible apply State.measured_memOk) | (with_reducible apply State.hostEnable_memOk) | (with_reducible apply State.bootFlows_memOk) | (with_reducible apply ite_memOk) | (with_reducible apply ite_memOk_fst) | (with_reducible apply foldl_memOk) | (with_reducible apply foldl_memOk_fst) | (with_reducible apply Tbl.wf_set) | (with_reducible apply Tbl.wf_cut) | (with_reducible apply Tbl.wf_copy)

theorem State.bootFirmware_memOk {s records remaps} (hs : MemOk s) :
    MemOk (State.bootFirmware s records remaps) := by
  unfold State.bootFirmware
  try dsimp only
  repeat' first | (intro _) | (with_reducible assumption) | (with_reducible apply State.measExtend_memOk) | (with_reducible apply State.wr_memOk) | (with_reducible apply State.remapWrite_memOk) | (with_reducible apply State.measLock_memOk) | (with_reducible apply ite_memOk) | (with_reducible apply ite_memOk_fst) | (with_reducible apply foldl_memOk)

theorem State.bootStacks_memOk {s passes} (hs : MemOk s) :
    MemOk (State.bootStacks s passes) := by
  unfold State.bootStacks
  try dsimp only
  repeat' first | (intro _) | (with_reducible assumption) | (with_reducible apply State.wr_memOk) | (with_reducible apply State.stackLost_memOk) | (with_reducible apply State.stackTraining_memOk) | (with_reducible apply State.inc_memOk) | (with_reducible apply State.zeroStack_memOk) | (with_reducible apply ite_memOk) | (with_reducible apply ite_memOk_fst) | (with_reducible apply foldl_memOk)

theorem State.bootPorts_memOk {s fs} (hs : MemOk s) :
    MemOk (State.bootPorts s fs) := by
  unfold State.bootPorts
  try dsimp only
  repeat' first | (intro _) | (with_reducible assumption) | (with_reducible apply State.wr_memOk) | (with_reducible apply State.hostEnable_memOk) | (with_reducible apply State.bootFlows_memOk) | (with_reducible apply State.ozlEnable_memOk) | (with_reducible apply ite_memOk) | (with_reducible apply ite_memOk_fst) | (with_reducible apply foldl_memOk)

theorem State.bootTest_memOk {s r fail} (hs : MemOk s) :
    MemOk (State.bootTest s r fail) := by
  unfold State.bootTest
  try dsimp only
  repeat' first | (intro _) | (with_reducible assumption) | (with_reducible apply State.wrs_memOk) | (with_reducible apply State.zeroRegion_memOk) | (with_reducible apply State.wakeRegion_memOk) | (with_reducible apply State.noteWaker_memOk) | (with_reducible apply State.hltLog_memOk) | (with_reducible apply ite_memOk)

theorem State.bootTests_memOk {s failed} (hs : MemOk s) :
    MemOk (State.bootTests s failed) := by
  unfold State.bootTests
  try dsimp only
  repeat' first | (intro _) | (with_reducible assumption) | (with_reducible apply State.wr_memOk) | (with_reducible apply State.bootTest_memOk) | (with_reducible apply State.wrs_memOk) | (with_reducible apply ite_memOk) | (with_reducible apply ite_memOk_fst) | (with_reducible apply foldl_memOk)

theorem State.bootReady_memOk {s} (hs : MemOk s) :
    MemOk (State.bootReady s) := by
  unfold State.bootReady
  try dsimp only
  repeat' first | (intro _) | (with_reducible assumption) | (with_reducible apply State.wrs_memOk) | (with_reducible apply State.fwReply_memOk) | (with_reducible apply ite_memOk) | (with_reducible apply ite_memOk_fst) | (with_reducible apply foldl_memOk)

theorem State.bootStage_memOk {s x} (hs : MemOk s) :
    MemOk (State.bootStage s x) := by
  unfold State.bootStage
  try dsimp only
  repeat' first | (intro _) | (with_reducible assumption) | (with_reducible apply State.bootRom_memOk) | (with_reducible apply State.bootFirst_memOk) | (with_reducible apply State.bootFirmware_memOk) | (with_reducible apply State.bootStacks_memOk) | (with_reducible apply State.bootPorts_memOk) | (with_reducible apply State.bootTests_memOk) | (with_reducible apply State.bootReady_memOk) | (with_reducible apply ite_memOk) | (with_reducible apply ite_memOk_fst) | (with_reducible apply foldl_memOk) | (with_reducible apply foldl_memOk_fst) | (with_reducible apply Tbl.wf_set) | (with_reducible apply Tbl.wf_cut) | (with_reducible apply Tbl.wf_copy) | (with_reducible apply Tbl.wf_filter) | split

theorem State.fwConfirm_memOk {s f tag raiseSvn} (hs : MemOk s) :
    MemOk (State.fwConfirm s f tag raiseSvn) := by
  unfold State.fwConfirm
  try dsimp only
  repeat' first | (intro _) | (with_reducible assumption) | (with_reducible apply State.fwReply_memOk) | (with_reducible apply State.wrs_memOk) | (with_reducible apply State.wr_memOk) | (with_reducible apply ite_memOk)

theorem State.imgCopy_memOk {s i a n} (hs : MemOk s) :
    MemOk (State.imgCopy s i a n) := by
  unfold State.imgCopy
  try dsimp only
  repeat' first | (intro _) | (with_reducible assumption) | (with_reducible apply ite_memOk) | (with_reducible apply ite_memOk_fst) | (with_reducible apply foldl_memOk) | (with_reducible apply foldl_memOk_fst) | (with_reducible apply Tbl.wf_set) | (with_reducible apply Tbl.wf_cut) | (with_reducible apply Tbl.wf_copy)

theorem State.bootLimit_memOk {s} (hs : MemOk s) :
    MemOk (State.bootLimit s) := by
  unfold State.bootLimit
  try dsimp only
  repeat' first | (intro _) | (with_reducible assumption) | (with_reducible apply State.warmReset_memOk) | (with_reducible apply ite_memOk)

theorem State.resetCmd_memOk {s f tag} (hs : MemOk s) :
    MemOk (State.resetCmd s f tag) := by
  unfold State.resetCmd
  try dsimp only
  repeat' first | (intro _) | (with_reducible assumption) | (with_reducible apply State.fwReply_memOk) | (with_reducible apply State.wr_memOk) | (with_reducible apply ite_memOk)

theorem State.fwWrite_memOk {s f tag target a n} (hs : MemOk s) :
    MemOk (State.fwWrite s f tag target a n) := by
  unfold State.fwWrite
  try dsimp only
  repeat' first | (intro _) | (with_reducible assumption) | (with_reducible apply State.fwReply_memOk) | (with_reducible apply State.hbmRead_memOk) | (with_reducible apply State.imgCopy_memOk) | (with_reducible apply ite_memOk)

theorem State.fwActivate_memOk {s f tag} (hs : MemOk s) :
    MemOk (State.fwActivate s f tag) := by
  unfold State.fwActivate
  try dsimp only
  repeat' first | (intro _) | (with_reducible assumption) | (with_reducible apply State.fwReply_memOk) | (with_reducible apply State.wrs_memOk) | (with_reducible apply ite_memOk)

theorem State.probeOne_memOk {s k v} (hs : MemOk s) :
    MemOk (State.probeOne s k v).1 := by
  unfold State.probeOne
  try dsimp only
  repeat' first | (intro _) | (with_reducible assumption) | (with_reducible apply State.wr_memOk)

theorem State.probeAll_memOk {s vs} (hs : MemOk s) :
    MemOk (State.probeAll s vs).1 := by
  unfold State.probeAll
  try dsimp only
  repeat' first | (intro _) | (with_reducible assumption) | (with_reducible apply State.probeOne_memOk) | (with_reducible apply ite_memOk) | (with_reducible apply ite_memOk_fst) | (with_reducible apply foldl_memOk) | (with_reducible apply foldl_memOk_fst)

theorem State.wakeFrom_memOk {s b} (hs : MemOk s) :
    MemOk (State.wakeFrom s b) := by
  unfold State.wakeFrom
  try dsimp only
  repeat' first | (intro _) | (with_reducible assumption) | (with_reducible apply State.wrs_memOk) | (with_reducible apply State.wrBit_memOk)

theorem State.entryEnds_memOk {s q w aborted} (hs : MemOk s) :
    MemOk (State.entryEnds s q w aborted) := by
  unfold State.entryEnds
  try dsimp only
  repeat' first | (intro _) | (with_reducible assumption) | (with_reducible apply State.pwrLog_memOk) | (with_reducible apply State.inc_memOk) | (with_reducible apply State.wrs_memOk) | (with_reducible apply State.pwrMsg_memOk)

theorem State.wakeSource_memOk {s b} (hs : MemOk s) :
    MemOk (State.wakeSource s b) := by
  unfold State.wakeSource
  try dsimp only
  repeat' first | (intro _) | (with_reducible assumption) | (with_reducible apply State.wrs_memOk) | (with_reducible apply State.entryEnds_memOk) | (with_reducible apply State.wrBit_memOk) | (with_reducible apply State.wakeFrom_memOk) | (with_reducible apply ite_memOk) | (with_reducible apply ite_memOk_fst) | (with_reducible apply foldl_memOk) | (with_reducible apply foldl_memOk_fst) | (with_reducible apply Tbl.wf_set) | (with_reducible apply Tbl.wf_cut) | (with_reducible apply Tbl.wf_copy) | (with_reducible apply Tbl.wf_filter) | split

theorem State.islandsStop_memOk {s} (hs : MemOk s) :
    MemOk (State.islandsStop s) := by
  unfold State.islandsStop
  try dsimp only
  repeat' first | (intro _) | (with_reducible assumption) | (with_reducible apply State.wr_memOk) | (with_reducible apply ite_memOk) | (with_reducible apply ite_memOk_fst) | (with_reducible apply foldl_memOk)

theorem State.enterFrame_memOk {s : State} {st : Nat} {bank} (hs : MemOk s) : MemOk (s.enterFrame st bank) := by
  unfold State.enterFrame
  dsimp only
  refine State.wrs_memOk (foldl_memOk (foldl_memOk (foldl_memOk ?_ fun t a h => State.wr_memOk h)
    fun t a h => State.wr_memOk h) fun t a h => State.wr_memOk h)
  exact Tbl.wf_filter hs _

theorem State.enterSoil_memOk {s} (hs : MemOk s) :
    MemOk (State.enterSoil s) := by
  unfold State.enterSoil
  try dsimp only
  repeat' first | (intro _) | (with_reducible assumption) | (with_reducible apply State.alwaysOn_memOk) | (with_reducible apply State.relockEvent_memOk) | (with_reducible apply State.wrs_memOk) | (with_reducible apply State.islandsStop_memOk)

theorem State.enterOff_memOk {s} (hs : MemOk s) :
    MemOk (State.enterOff s) := by
  unfold State.enterOff
  try dsimp only
  repeat' first | (intro _) | (with_reducible assumption) | (with_reducible apply State.wrs_memOk) | (with_reducible apply State.islandsStop_memOk) | (with_reducible apply State.bare_memOk)

theorem State.enter_memOk {s c q} (hs : MemOk s) :
    MemOk (State.enter s c q) := by
  unfold State.enter
  try dsimp only
  repeat' first | (intro _) | (with_reducible assumption) | (with_reducible apply State.wrs_memOk) | (with_reducible apply State.entryEnds_memOk) | (with_reducible apply State.enterFrame_memOk) | (with_reducible apply State.enterSoil_memOk) | (with_reducible apply State.enterOff_memOk) | (with_reducible apply ite_memOk) | (with_reducible apply ite_memOk_fst) | (with_reducible apply foldl_memOk) | (with_reducible apply foldl_memOk_fst) | (with_reducible apply Tbl.wf_set) | (with_reducible apply Tbl.wf_cut) | (with_reducible apply Tbl.wf_copy) | (with_reducible apply Tbl.wf_filter) | split

theorem State.soilProbe_memOk {s vs seen} (hs : MemOk s) :
    MemOk (State.soilProbe s vs seen) := by
  unfold State.soilProbe
  try dsimp only
  repeat' first | (intro _) | (with_reducible assumption) | (with_reducible apply State.probeAll_memOk) | (with_reducible apply State.wr_memOk) | (with_reducible apply State.enterFrame_memOk) | (with_reducible apply State.wrBit_memOk) | (with_reducible apply State.wakeFrom_memOk) | (with_reducible apply ite_memOk) | (with_reducible apply ite_memOk_fst) | (with_reducible apply foldl_memOk) | (with_reducible apply foldl_memOk_fst) | (with_reducible apply Tbl.wf_set) | (with_reducible apply Tbl.wf_cut) | (with_reducible apply Tbl.wf_copy) | (with_reducible apply Tbl.wf_filter) | split

theorem State.frameExit_memOk {s} (hs : MemOk s) :
    MemOk (State.frameExit s) := by
  unfold State.frameExit
  try dsimp only
  repeat' first | (intro _) | (with_reducible assumption) | (with_reducible apply State.wr_memOk) | (with_reducible apply State.wrs_memOk) | (with_reducible apply ite_memOk) | (with_reducible apply ite_memOk_fst) | (with_reducible apply foldl_memOk)

theorem State.wakeEdge_memOk {s pin} (hs : MemOk s) :
    MemOk (State.wakeEdge s pin) := by
  unfold State.wakeEdge
  try dsimp only
  repeat' first | (intro _) | (with_reducible assumption) | (with_reducible apply State.wrBit_memOk) | (with_reducible apply ite_memOk)

theorem State.ozlWake_memOk {s p pattern} (hs : MemOk s) :
    MemOk (State.ozlWake s p pattern) := by
  unfold State.ozlWake
  try dsimp only
  repeat' first | (intro _) | (with_reducible assumption) | (with_reducible apply State.wakeSource_memOk) | (with_reducible apply State.inc_memOk) | (with_reducible apply ite_memOk)

theorem State.entryTimeout_memOk {s} (hs : MemOk s) :
    MemOk (State.entryTimeout s) := by
  unfold State.entryTimeout
  try dsimp only
  repeat' first | (intro _) | (with_reducible assumption) | (with_reducible apply State.wrs_memOk) | (with_reducible apply State.entryEnds_memOk) | (with_reducible apply ite_memOk) | (with_reducible apply ite_memOk_fst) | (with_reducible apply foldl_memOk) | (with_reducible apply foldl_memOk_fst) | (with_reducible apply Tbl.wf_set) | (with_reducible apply Tbl.wf_cut) | (with_reducible apply Tbl.wf_copy) | (with_reducible apply Tbl.wf_filter) | split

theorem State.feedRejoin_memOk {s f} (hs : MemOk s) :
    MemOk (State.feedRejoin s f) := by
  unfold State.feedRejoin
  try dsimp only
  repeat' first | (intro _) | (with_reducible assumption) | (with_reducible apply State.wrs_memOk)

theorem State.pinReadback_memOk {s low high} (hs : MemOk s) :
    MemOk (State.pinReadback s low high) := by
  unfold State.pinReadback
  try dsimp only
  repeat' first | (intro _) | (with_reducible assumption) | (with_reducible apply State.wrs_memOk) | (with_reducible apply ite_memOk)

theorem State.feedEvent_memOk {s f used inr iso k} (hs : MemOk s) :
    MemOk (State.feedEvent s f used inr iso k) := by
  unfold State.feedEvent
  try dsimp only
  repeat' first | (intro _) | (with_reducible assumption) | (with_reducible apply State.wrs_memOk) | (with_reducible apply State.wr_memOk) | (with_reducible apply State.hltLog_memOk) | (with_reducible apply ite_memOk)

theorem State.feedCurrent_memOk {s f} (hs : MemOk s) :
    MemOk (State.feedCurrent s f) := by
  unfold State.feedCurrent
  try dsimp only
  repeat' first | (intro _) | (with_reducible assumption) | (with_reducible apply State.feedEvent_memOk) | (with_reducible apply ite_memOk)

theorem State.feedReversed_memOk {s f} (hs : MemOk s) :
    MemOk (State.feedReversed s f) := by
  unfold State.feedReversed
  try dsimp only
  repeat' first | (intro _) | (with_reducible assumption) | (with_reducible apply State.feedEvent_memOk)

theorem State.railRecord_memOk {s rail kind} (hs : MemOk s) :
    MemOk (State.railRecord s rail kind) := by
  unfold State.railRecord
  try dsimp only
  repeat' first | (intro _) | (with_reducible assumption) | (with_reducible apply State.wrs_memOk)

theorem State.refAbsent_memOk {s eth} (hs : MemOk s) :
    MemOk (State.refAbsent s eth) := by
  unfold State.refAbsent
  try dsimp only
  repeat' first | (intro _) | (with_reducible assumption) | (with_reducible apply State.wr_memOk) | (with_reducible apply State.hostDown_memOk) | (with_reducible apply State.wrBit_memOk) | (with_reducible apply State.wrs_memOk) | (with_reducible apply State.dropReplay_memOk) | (with_reducible apply ite_memOk) | (with_reducible apply ite_memOk_fst) | (with_reducible apply foldl_memOk)

theorem State.refPresent_memOk {s eth} (hs : MemOk s) :
    MemOk (State.refPresent s eth) := by
  unfold State.refPresent
  try dsimp only
  repeat' first | (intro _) | (with_reducible assumption) | (with_reducible apply State.wr_memOk) | (with_reducible apply State.wrBit_memOk) | (with_reducible apply State.ozlEnable_memOk) | (with_reducible apply ite_memOk) | (with_reducible apply ite_memOk_fst) | (with_reducible apply foldl_memOk)

theorem State.dieThermal_memOk {s d t stackSet} (hs : MemOk s) :
    MemOk (State.dieThermal s d t stackSet) := by
  unfold State.dieThermal
  try dsimp only
  repeat' first | (intro _) | (with_reducible assumption) | (with_reducible apply State.wr_memOk) | (with_reducible apply State.hltLog_memOk) | (with_reducible apply ite_memOk) | (with_reducible apply ite_memOk_fst) | (with_reducible apply foldl_memOk)

theorem State.dieDark_memOk {s : State} {d} (hs : MemOk s) : MemOk (s.dieDark d) := by
  unfold State.dieDark
  generalize (List.range 8).map (8 * d + ·) = regs
  generalize List.range 8 = cs
  dsimp only
  refine memOk_congr (s := regs.foldl _ s) (foldl_memOk hs fun t r h => ?_) rfl
  exact State.wr_memOk (State.setSeq_memOk (foldl_memOk (State.zeroKeys_memOk h) fun u c h => State.setClu_memOk h))

theorem State.shutdown_memOk {s} (hs : MemOk s) :
    MemOk (State.shutdown s) := by
  unfold State.shutdown
  try dsimp only
  repeat' first | (intro _) | (with_reducible assumption) | (with_reducible apply State.wrs_memOk) | (with_reducible apply State.alwaysOn_memOk)

theorem State.emergency_memOk {s presHigh} (hs : MemOk s) :
    MemOk (State.emergency s presHigh) := by
  unfold State.emergency
  try dsimp only
  repeat' first | (intro _) | (with_reducible assumption) | (with_reducible apply State.shutdown_memOk) | (with_reducible apply State.wr_memOk) | (with_reducible apply ite_memOk)

theorem State.railFault_memOk {s rail kind} (hs : MemOk s) :
    MemOk (State.railFault s rail kind) := by
  unfold State.railFault
  try dsimp only
  repeat' first | (intro _) | (with_reducible assumption) | (with_reducible apply State.wrs_memOk) | (with_reducible apply State.railRecord_memOk) | (with_reducible apply State.shutdown_memOk) | (with_reducible apply State.wr_memOk) | (with_reducible apply ite_memOk)

theorem State.feedAbsent_memOk {s f} (hs : MemOk s) :
    MemOk (State.feedAbsent s f) := by
  unfold State.feedAbsent
  try dsimp only
  repeat' first | (intro _) | (with_reducible assumption) | (with_reducible apply State.feedEvent_memOk)

theorem State.feedOver_memOk {s f} (hs : MemOk s) :
    MemOk (State.feedOver s f) := by
  unfold State.feedOver
  try dsimp only
  repeat' first | (intro _) | (with_reducible assumption) | (with_reducible apply State.feedEvent_memOk)

theorem State.smbusRead_memOk {s code} (hs : MemOk s) :
    MemOk (State.smbusRead s code) := by
  unfold State.smbusRead
  try dsimp only
  repeat' first | (intro _) | (with_reducible assumption) | (with_reducible apply State.wrs_memOk) | (with_reducible apply ite_memOk) | (with_reducible apply ite_memOk_fst) | (with_reducible apply foldl_memOk) | (with_reducible apply foldl_memOk_fst) | (with_reducible apply Tbl.wf_set) | (with_reducible apply Tbl.wf_cut) | (with_reducible apply Tbl.wf_copy) | (with_reducible apply Tbl.wf_filter) | split

theorem State.thermalTick_memOk {s dies iod stackSet} (hs : MemOk s) :
    MemOk (State.thermalTick s dies iod stackSet) := by
  unfold State.thermalTick
  try dsimp only
  repeat' first | (intro _) | (with_reducible assumption) | (with_reducible apply State.refreshRate_memOk) | (with_reducible apply State.wr_memOk) | (with_reducible apply State.dieThermal_memOk) | (with_reducible apply ite_memOk) | (with_reducible apply ite_memOk_fst) | (with_reducible apply foldl_memOk)

theorem State.dieFaults_memOk {s d} (hs : MemOk s) :
    MemOk (State.dieFaults s d) := by
  unfold State.dieFaults
  try dsimp only
  repeat' first | (intro _) | (with_reducible assumption) | (with_reducible apply State.wrs_memOk) | (with_reducible apply State.setLaunch_memOk) | (with_reducible apply State.dropPages_memOk) | (with_reducible apply State.stopLaunch_memOk) | (with_reducible apply ite_memOk) | (with_reducible apply ite_memOk_fst) | (with_reducible apply foldl_memOk)

theorem State.dieTrip_memOk {s d sensor reading} (hs : MemOk s) :
    MemOk (State.dieTrip s d sensor reading) := by
  unfold State.dieTrip
  try dsimp only
  repeat' first | (intro _) | (with_reducible assumption) | (with_reducible apply State.hltLog_memOk) | (with_reducible apply State.wrs_memOk) | (with_reducible apply State.dieDark_memOk) | (with_reducible apply State.dieFaults_memOk) | (with_reducible apply State.stackLost_memOk) | (with_reducible apply ite_memOk) | (with_reducible apply ite_memOk_fst) | (with_reducible apply foldl_memOk)

theorem State.stepPower_memOk {s down up} (hs : MemOk s) :
    MemOk (State.stepPower s down up) := by
  unfold State.stepPower
  try dsimp only
  repeat' first | (intro _) | (with_reducible assumption) | (with_reducible apply State.wr_memOk) | (with_reducible apply ite_memOk) | (with_reducible apply ite_memOk_fst) | (with_reducible apply foldl_memOk)

theorem State.slowLoop_memOk {s w} (hs : MemOk s) :
    MemOk (State.slowLoop s w) := by
  unfold State.slowLoop
  try dsimp only
  repeat' first | (intro _) | (with_reducible assumption) | (with_reducible apply State.pwrMsg_memOk) | (with_reducible apply State.hltLog_memOk) | (with_reducible apply State.wr_memOk) | (with_reducible apply State.stepPower_memOk) | (with_reducible apply ite_memOk)

theorem State.feedOut_memOk {s f} (hs : MemOk s) :
    MemOk (State.feedOut s f) := by
  unfold State.feedOut
  try dsimp only
  repeat' first | (intro _) | (with_reducible assumption) | (with_reducible apply State.feedEvent_memOk)

theorem State.powerSample_memOk {s va vb w} (hs : MemOk s) :
    MemOk (State.powerSample s va vb w) := by
  unfold State.powerSample
  try dsimp only
  repeat' first | (intro _) | (with_reducible assumption) | (with_reducible apply State.wrs_memOk) | (with_reducible apply State.stepPower_memOk) | (with_reducible apply ite_memOk)

theorem State.moduleTrip_memOk {s reading} (hs : MemOk s) :
    MemOk (State.moduleTrip s reading) := by
  unfold State.moduleTrip
  try dsimp only
  repeat' first | (intro _) | (with_reducible assumption) | (with_reducible apply State.shutdown_memOk) | (with_reducible apply State.railRecord_memOk) | (with_reducible apply State.wr_memOk) | (with_reducible apply ite_memOk)

theorem State.smbusStuck_memOk {s scl} (hs : MemOk s) :
    MemOk (State.smbusStuck s scl) := by
  unfold State.smbusStuck
  try dsimp only
  repeat' first | (intro _) | (with_reducible assumption) | (with_reducible apply State.wr_memOk) | (with_reducible apply ite_memOk)

theorem State.presAssert_memOk {s} (hs : MemOk s) :
    MemOk (State.presAssert s) := by
  unfold State.presAssert
  try dsimp only
  repeat' first | (intro _) | (with_reducible assumption) | (with_reducible apply State.wr_memOk)

theorem State.powerUp_memOk {s x} (hs : MemOk s) :
    MemOk (State.powerUp s x) := by
  unfold State.powerUp
  try dsimp only
  repeat' first | (intro _) | (with_reducible assumption) | (with_reducible apply State.wrs_memOk) | (with_reducible apply State.coldReset_memOk) | (with_reducible apply State.hltLog_memOk) | (with_reducible apply State.wr_memOk) | (with_reducible apply State.takeStraps_memOk) | (with_reducible apply ite_memOk)

theorem State.testStart_memOk {s r} (hs : MemOk s) :
    MemOk (State.testStart s r) := by
  unfold State.testStart
  try dsimp only
  repeat' first | (intro _) | (with_reducible assumption) | (with_reducible apply State.wrBit_memOk) | (with_reducible apply State.wakeRegion_memOk) | (with_reducible apply State.noteWaker_memOk)

theorem State.takeBuckets_memOk {s} (hs : MemOk s) :
    MemOk (State.takeBuckets s) := by
  unfold State.takeBuckets
  try dsimp only
  repeat' first | (intro _) | (with_reducible assumption) | (with_reducible apply State.zeros_memOk)

theorem State.mapFailed_memOk {s c bank row} (hs : MemOk s) :
    MemOk (State.mapFailed s c bank row).1 := by
  unfold State.mapFailed
  try dsimp only
  repeat' first | (intro _) | (with_reducible assumption) | (with_reducible apply State.mapOut_memOk) | (with_reducible apply State.mapOutRequest_memOk)

theorem State.riskScore_memOk {s0} (hs0 : MemOk s0) :
    MemOk (State.riskScore s0) := by
  unfold State.riskScore
  try dsimp only
  repeat' first | (intro _) | (with_reducible assumption) | (with_reducible apply State.takeBuckets_memOk) | (with_reducible apply State.hltLog_memOk) | (with_reducible apply State.wr_memOk) | (with_reducible apply State.wrs_memOk) | (with_reducible apply ite_memOk) | (with_reducible apply ite_memOk_fst) | (with_reducible apply foldl_memOk)

theorem State.riskTick_memOk {s} (hs : MemOk s) :
    MemOk (State.riskTick s) := by
  unfold State.riskTick
  try dsimp only
  repeat' first | (intro _) | (with_reducible assumption) | (with_reducible apply State.riskScore_memOk) | (with_reducible apply ite_memOk)

theorem State.logicClears_memOk {s r} (hs : MemOk s) :
    MemOk (State.logicClears s r) := by
  unfold State.logicClears
  try dsimp only
  repeat' first | (intro _) | (with_reducible assumption) | (with_reducible apply State.setSeq_memOk) | (with_reducible apply State.setClu_memOk) | (with_reducible apply ite_memOk) | (with_reducible apply ite_memOk_fst) | (with_reducible apply foldl_memOk)

theorem State.testWork_memOk {s r} (hs : MemOk s) :
    MemOk (State.testWork s r) := by
  unfold State.testWork
  try dsimp only
  repeat' first | (intro _) | (with_reducible assumption) | (with_reducible apply State.zeroRegion_memOk) | (with_reducible apply State.logicClears_memOk) | (with_reducible apply ite_memOk)

theorem State.testAbort_memOk {s r} (hs : MemOk s) :
    MemOk (State.testAbort s r) := by
  unfold State.testAbort
  try dsimp only
  repeat' first | (intro _) | (with_reducible assumption) | (with_reducible apply State.wrBit_memOk) | (with_reducible apply State.wrs_memOk) | (with_reducible apply State.testWork_memOk) | (with_reducible apply ite_memOk)

theorem State.testDeferred_memOk {s r} (hs : MemOk s) :
    MemOk (State.testDeferred s r) := by
  unfold State.testDeferred
  try dsimp only
  repeat' first | (intro _) | (with_reducible assumption) | (with_reducible apply State.testStart_memOk) | (with_reducible apply ite_memOk)

theorem State.probeTick_memOk {s vs seen} (hs : MemOk s) :
    MemOk (State.probeTick s vs seen) := by
  unfold State.probeTick
  try dsimp only
  repeat' first | (intro _) | (with_reducible assumption) | (with_reducible apply State.soilProbe_memOk) | (with_reducible apply State.riskScore_memOk) | (with_reducible apply ite_memOk)

theorem State.testRequest_memOk {s r full} (hs : MemOk s) :
    MemOk (State.testRequest s r full) := by
  unfold State.testRequest
  try dsimp only
  repeat' first | (intro _) | (with_reducible assumption) | (with_reducible apply State.wr_memOk) | (with_reducible apply State.wrBit_memOk) | (with_reducible apply State.testStart_memOk) | (with_reducible apply ite_memOk)

theorem State.testDone_memOk {s r unit cl rows periods} (hs : MemOk s) :
    MemOk (State.testDone s r unit cl rows periods) := by
  unfold State.testDone
  try dsimp only
  repeat' first | (intro _) | (with_reducible assumption) | (with_reducible apply State.testWork_memOk) | (with_reducible apply State.mapFailed_memOk) | (with_reducible apply State.zeroRegion_memOk) | (with_reducible apply State.wrBit_memOk) | (with_reducible apply State.wrs_memOk) | (with_reducible apply State.charge_memOk) | (with_reducible apply State.inc48_memOk) | (with_reducible apply State.hltLog_memOk) | (with_reducible apply State.wr_memOk) | (with_reducible apply ite_memOk) | (with_reducible apply ite_memOk_fst) | (with_reducible apply foldl_memOk) | (with_reducible apply foldl_memOk_fst)

end Sys2Proof.Machine
end

