-- ==== Sys2Proof/Laws/MemRest.lean ====
section
/-!
SUPPORT. Memory keeps its canonical form: the operations of debug, snapshots, register accesses, control cores and the TAP.
-/


namespace Sys2Proof.Machine

theorem State.touchRegion_memOk {s r} (hs : MemOk s) :
    MemOk (State.touchRegion s r) := by
  unfold State.touchRegion
  try dsimp only
  repeat' first | (intro _) | (with_reducible assumption) | (with_reducible apply State.setLaunch_memOk) | (with_reducible apply ite_memOk) | (with_reducible apply ite_memOk_fst) | (with_reducible apply foldl_memOk) | (with_reducible apply foldl_memOk_fst) | (with_reducible apply Tbl.wf_set) | (with_reducible apply Tbl.wf_cut) | (with_reducible apply Tbl.wf_copy) | (with_reducible apply Tbl.wf_filter) | split

theorem State.archPut_memOk {s r c space o v} (hs : MemOk s) :
    MemOk (State.archPut s r c space o v) := by
  unfold State.archPut
  try dsimp only
  repeat' first | (intro _) | (with_reducible assumption) | (with_reducible apply State.setIx_memOk) | (with_reducible apply State.setClu_memOk) | (with_reducible apply State.setMu_memOk) | (with_reducible apply State.setTile_memOk) | (with_reducible apply State.setSeq_memOk) | (with_reducible apply ite_memOk) | (with_reducible apply ite_memOk_fst) | (with_reducible apply foldl_memOk) | (with_reducible apply foldl_memOk_fst) | (with_reducible apply Tbl.wf_set) | (with_reducible apply Tbl.wf_cut) | (with_reducible apply Tbl.wf_copy) | (with_reducible apply Tbl.wf_filter) | split

theorem State.dbgDataHi_memOk {s hi} (hs : MemOk s) :
    MemOk (State.dbgDataHi s hi) := by
  unfold State.dbgDataHi
  try dsimp only
  repeat' first | (intro _) | (with_reducible assumption) | (with_reducible apply State.wr_memOk) | (with_reducible apply State.touchRegion_memOk) | (with_reducible apply State.archPut_memOk) | (with_reducible apply ite_memOk)

theorem State.dbgDataWrite_memOk {s lo hi} (hs : MemOk s) :
    MemOk (State.dbgDataWrite s lo hi) := by
  unfold State.dbgDataWrite
  try dsimp only
  repeat' first | (intro _) | (with_reducible assumption) | (with_reducible apply State.dbgDataHi_memOk) | (with_reducible apply State.wr_memOk) | (with_reducible apply ite_memOk)

theorem State.dbgStep_memOk {s r} (hs : MemOk s) :
    MemOk (State.dbgStep s r) := by
  unfold State.dbgStep
  try dsimp only
  repeat' first | (intro _) | (with_reducible assumption) | (with_reducible apply State.issueKernel_memOk) | (with_reducible apply ite_memOk)

theorem State.scanPut_memOk {s r v} (hs : MemOk s) :
    MemOk (State.scanPut s r v) := by
  unfold State.scanPut
  try dsimp only
  repeat' first | (intro _) | (with_reducible assumption) | (with_reducible apply State.setIx_memOk) | (with_reducible apply State.touchRegion_memOk) | (with_reducible apply State.wrs_memOk) | (with_reducible apply State.setSeq_memOk) | (with_reducible apply ite_memOk) | (with_reducible apply ite_memOk_fst) | (with_reducible apply foldl_memOk)

theorem State.dbgInj_memOk {s target two addr} (hs : MemOk s) :
    MemOk (State.dbgInj s target two addr) := by
  unfold State.dbgInj
  try dsimp only
  repeat' first | (intro _) | (with_reducible assumption) | (with_reducible apply State.wrs_memOk) | (with_reducible apply ite_memOk)

theorem State.haltPeriods_memOk {s r n} (hs : MemOk s) :
    MemOk (State.haltPeriods s r n) := by
  unfold State.haltPeriods
  try dsimp only
  repeat' first | (intro _) | (with_reducible assumption) | (with_reducible apply State.charge_memOk) | (with_reducible apply State.inc48_memOk) | (with_reducible apply State.inc_memOk)

theorem State.dbgHalt_memOk {s mask0 periods} (hs : MemOk s) :
    MemOk (State.dbgHalt s mask0 periods) := by
  unfold State.dbgHalt
  try dsimp only
  repeat' first | (intro _) | (with_reducible assumption) | (with_reducible apply State.haltPeriods_memOk) | (with_reducible apply State.wrBit_memOk) | (with_reducible apply ite_memOk) | (with_reducible apply ite_memOk_fst) | (with_reducible apply foldl_memOk)

theorem State.openStacks_memOk {s : State} {j st n} (hs : MemOk s) :
    MemOk (((setBits st 12).foldl (fun t k => t.openRange (2 ^ 36 * k) n) s).wrs
      [(Reg.SNP_JOB_STAT_STATE j, 0), (Reg.SNP_JOB_STAT_ERR j, 3)]) :=
  State.wrs_memOk (foldl_memOk hs fun _ _ h => State.openRange_memOk h)

theorem State.restoreStops_memOk {s : State} {j st} (hs : MemOk s) : MemOk (s.restoreStops j st) := by
  delta State.restoreStops
  exact State.openStacks_memOk hs

theorem State.restorePage_memOk {s : State} {p put} (hs : MemOk s) (hp : ∀ a t, MemOk t → MemOk (put a t)) :
    MemOk (s.restorePage p put) := by
  unfold State.restorePage
  dsimp only
  split
  · exact hs
  · exact memOk_congr (hp _ _ (State.cacheRange_memOk hs)) rfl

theorem State.pageZero_memOk {s p} (hs : MemOk s) :
    MemOk (State.pageZero s p) := by
  unfold State.pageZero
  try dsimp only
  repeat' first | (intro _) | (with_reducible assumption) | (with_reducible apply State.restorePage_memOk) | (with_reducible apply ite_memOk) | (with_reducible apply ite_memOk_fst) | (with_reducible apply foldl_memOk) | (with_reducible apply foldl_memOk_fst) | (with_reducible apply Tbl.wf_set) | (with_reducible apply Tbl.wf_cut)

theorem State.pageBack_memOk {s base p} (hs : MemOk s) :
    MemOk (State.pageBack s base p) := by
  unfold State.pageBack
  try dsimp only
  repeat' first | (intro _) | (with_reducible assumption) | (with_reducible apply State.restorePage_memOk) | (with_reducible apply ite_memOk) | (with_reducible apply ite_memOk_fst) | (with_reducible apply foldl_memOk) | (with_reducible apply foldl_memOk_fst) | (with_reducible apply Tbl.wf_set) | (with_reducible apply Tbl.wf_cut) | (with_reducible apply Tbl.wf_copy)

theorem State.restoreState_memOk {s : State} {k t} (hs : MemOk s) : MemOk (s.restoreState k t) := by
  unfold State.restoreState
  generalize List.range 4096 = l
  generalize List.range 256 = l2
  refine State.wr_memOk (foldl_memOk (foldl_memOk (foldl_memOk (foldl_memOk hs fun u i h => ?_) fun u i h => ?_)
    fun u i h => ?_) fun u i h => ?_)
  · exact State.wrs_memOk h
  · exact foldl_memOk h fun v n hv => State.wr_memOk hv
  · exact ite_memOk (State.wrs_memOk h) h
  · exact ite_memOk (State.setPoolTop_memOk (State.wr_memOk h)) h

theorem State.chunkBack_memOk {s base c} (hs : MemOk s) :
    MemOk (State.chunkBack s base c) := by
  unfold State.chunkBack
  try dsimp only
  repeat' first | (intro _) | (with_reducible assumption) | (with_reducible apply State.rowAccess_memOk) | (with_reducible apply State.pokes_memOk) | (with_reducible apply ite_memOk) | (with_reducible apply ite_memOk_fst) | (with_reducible apply foldl_memOk)

theorem State.restore_memOk {s j src} (hs : MemOk s) : MemOk (State.restore s j src).1 := by
  unfold State.restore
  extract_lets base k t code stk pages staged
  split
  · exact hs
  · split
    · exact State.restoreStops_memOk hs
    · split
      · exact foldl_memOk (State.restoreStops_memOk (foldl_memOk hs fun u q h => State.handleWrite_memOk h)) fun u c h => State.openRange_memOk h
      · exact State.wrs_memOk (State.restoreState_memOk (foldl_memOk (foldl_memOk (foldl_memOk (foldl_memOk hs
          fun u p h => State.pageBack_memOk h) fun u p h => State.pageZero_memOk h) fun u q h => State.handleWrite_memOk h)
          fun u c h => State.chunkBack_memOk h))

theorem State.putKeys_memOk {s k a} (hs : MemOk s) :
    MemOk (State.putKeys s k a) := by
  fun_induction State.putKeys s k a <;>
    (repeat' first | (intro _) | extract_lets | (with_reducible assumption) | (with_reducible apply_assumption) | (with_reducible apply State.memSet_memOk))

theorem State.toFlash_memOk {s src dst n} (hs : MemOk s) :
    MemOk (State.toFlash s src dst n) := by
  unfold State.toFlash
  try dsimp only
  repeat' first | (intro _) | (with_reducible assumption) | (with_reducible apply State.wrs_memOk) | (with_reducible apply ite_memOk) | (with_reducible apply ite_memOk_fst) | (with_reducible apply foldl_memOk) | (with_reducible apply foldl_memOk_fst) | (with_reducible apply Tbl.wf_set) | (with_reducible apply Tbl.wf_cut) | (with_reducible apply Tbl.wf_copy)

theorem State.pageToFlash_optOk {s : State} {a dst} (hs : MemOk s) : SomeOk (s.pageToFlash a dst) := by
  unfold State.pageToFlash
  dsimp only
  split
  · exact SomeOk_none
  · split
    · exact SomeOk_some (State.toFlash_memOk (State.cacheRange_memOk hs))
    · exact SomeOk_none

theorem State.chunkToFlash_memOk {s base c o n} (hs : MemOk s) :
    MemOk (State.chunkToFlash s base c o n) := by
  unfold State.chunkToFlash
  try dsimp only
  repeat' first | (intro _) | (with_reducible assumption) | (with_reducible apply State.wrs_memOk) | (with_reducible apply State.putKeys_memOk)

theorem State.flashUnit_optOk {s : State} {j x} (hs : MemOk s) : SomeOk (s.flashUnit j x) := by
  have h1 : ∀ (o : Option (Nat × Nat × Nat)) (a : Nat), MemOk (match o with
      | some c => s.chunkToFlash a c.1 c.2.1 c.2.2
      | none => s) := by
    intro o a
    cases o
    · exact hs
    · exact State.chunkToFlash_memOk hs
  unfold State.flashUnit
  split
  · exact SomeOk_map (State.pageToFlash_optOk hs) fun t h => State.wr_memOk h
  · dsimp only
    split
    · exact SomeOk_some (ite_memOk (h1 _ _) (h1 _ _))
    · split
      · exact SomeOk_map (State.pageToFlash_optOk hs) fun t h => State.wpCmd_memOk h
      · exact SomeOk_some hs

theorem State.showLeft_memOk {s j} (hs : MemOk s) :
    MemOk (State.showLeft s j) := by
  unfold State.showLeft
  try dsimp only
  repeat' first | (intro _) | (with_reducible assumption) | (with_reducible apply State.wr_memOk)

theorem State.setSnap_memOk {s j x} (hs : MemOk s) :
    MemOk (State.setSnap s j x) := by
  unfold State.setSnap
  try dsimp only
  repeat' first | (intro _) | (with_reducible assumption)

theorem State.snapFail_memOk {s j x err} (hs : MemOk s) :
    MemOk (State.snapFail s j x err) := by
  unfold State.snapFail
  try dsimp only
  repeat' first | (intro _) | (with_reducible assumption) | (with_reducible apply State.wpCmd_memOk) | (with_reducible apply State.wr_memOk) | (with_reducible apply State.showLeft_memOk) | (with_reducible apply State.inc_memOk) | (with_reducible apply State.wrs_memOk) | (with_reducible apply State.setSnap_memOk) | (with_reducible apply ite_memOk) | (with_reducible apply ite_memOk_fst) | (with_reducible apply foldl_memOk)

theorem State.flashWrite_memOk {s : State} {ok} (hs : MemOk s) : MemOk (s.flashWrite ok) := by
  unfold State.flashWrite
  dsimp only
  split
  · exact hs
  · split
    · exact hs
    · split
      · next hf =>
        split at hf
        · exact State.showLeft_memOk ((State.flashUnit_optOk (State.wr_memOk hs)).memOk _ hf)
        · cases hf
      · exact State.snapFail_memOk (State.wr_memOk hs)

theorem State.snapTimer_memOk {s j} (hs : MemOk s) :
    MemOk (State.snapTimer s j) := by
  unfold State.snapTimer
  try dsimp only
  repeat' first | (intro _) | (with_reducible assumption) | (with_reducible apply State.wrs_memOk) | (with_reducible apply ite_memOk)

theorem State.partnerBytes_memOk {s j image last} (hs : MemOk s) :
    MemOk (State.partnerBytes s j image last) := by
  unfold State.partnerBytes
  try dsimp only
  repeat' first | (intro _) | (with_reducible assumption) | (with_reducible apply State.memSet_memOk) | (with_reducible apply ite_memOk) | (with_reducible apply ite_memOk_fst) | (with_reducible apply foldl_memOk)

theorem State.partnerCopy_memOk {s j e} (hs : MemOk s) :
    MemOk (State.partnerCopy s j e) := by
  unfold State.partnerCopy
  try dsimp only
  repeat' first | (intro _) | (with_reducible assumption) | (with_reducible apply State.partnerBytes_memOk) | (with_reducible apply State.wr_memOk) | (with_reducible apply State.wrs_memOk) | (with_reducible apply ite_memOk) | (with_reducible apply ite_memOk_fst) | (with_reducible apply foldl_memOk) | (with_reducible apply foldl_memOk_fst) | (with_reducible apply Tbl.wf_set) | (with_reducible apply Tbl.wf_cut) | (with_reducible apply Tbl.wf_copy) | (with_reducible apply Tbl.wf_filter) | split

theorem State.snapRequest_memOk {s j step} (hs : MemOk s) :
    MemOk (State.snapRequest s j step) := by
  unfold State.snapRequest
  try dsimp only
  repeat' first | (intro _) | (with_reducible assumption) | (with_reducible apply State.wr_memOk) | (with_reducible apply ite_memOk)

theorem State.showLatest_memOk {s j} (hs : MemOk s) :
    MemOk (State.showLatest s j) := by
  unfold State.showLatest
  try dsimp only
  repeat' first | (intro _) | (with_reducible assumption) | (with_reducible apply State.wrs_memOk)

theorem State.protectStack_memOk {s g} (hs : MemOk s) :
    MemOk (State.protectStack s g) := by
  unfold State.protectStack
  try dsimp only
  repeat' first | (intro _) | (with_reducible assumption) | (with_reducible apply State.wpCmd_memOk)

theorem State.snpAnswer_memOk {s code} (hs : MemOk s) :
    MemOk (State.snpAnswer s code) := by
  unfold State.snpAnswer
  try dsimp only
  repeat' first | (intro _) | (with_reducible assumption) | (with_reducible apply State.wrs_memOk)

theorem State.snpStart_memOk {s j} (hs : MemOk s) :
    MemOk (State.snpStart s j) := by
  unfold State.snpStart
  try dsimp only
  repeat' first | (intro _) | (with_reducible assumption) | (with_reducible apply State.snpAnswer_memOk) | (with_reducible apply State.showLatest_memOk) | (with_reducible apply State.memSet_memOk) | (with_reducible apply State.protectStack_memOk) | (with_reducible apply State.wr_memOk) | (with_reducible apply State.hbmRead_memOk) | (with_reducible apply State.showLeft_memOk) | (with_reducible apply State.wrs_memOk) | (with_reducible apply State.setSnap_memOk) | (with_reducible apply ite_memOk) | (with_reducible apply ite_memOk_fst) | (with_reducible apply foldl_memOk)

theorem State.writeRecord_memOk {s j x area seq} (hs : MemOk s) :
    MemOk (State.writeRecord s j x area seq) := by
  unfold State.writeRecord
  try dsimp only
  repeat' first | (intro _) | (with_reducible assumption) | (with_reducible apply State.putKeys_memOk) | (with_reducible apply ite_memOk) | (with_reducible apply ite_memOk_fst) | (with_reducible apply foldl_memOk) | (with_reducible apply foldl_memOk_fst) | (with_reducible apply Tbl.wf_set) | (with_reducible apply Tbl.wf_cut)

theorem State.recordCommit_memOk {s j} (hs : MemOk s) :
    MemOk (State.recordCommit s j) := by
  unfold State.recordCommit
  try dsimp only
  repeat' first | (intro _) | (with_reducible assumption) | (with_reducible apply State.writeRecord_memOk) | (with_reducible apply State.inc_memOk) | (with_reducible apply State.wrs_memOk) | (with_reducible apply State.setSnap_memOk) | (with_reducible apply State.wr_memOk) | (with_reducible apply ite_memOk) | (with_reducible apply ite_memOk_fst) | (with_reducible apply foldl_memOk) | (with_reducible apply foldl_memOk_fst) | (with_reducible apply Tbl.wf_set) | (with_reducible apply Tbl.wf_cut) | (with_reducible apply Tbl.wf_copy) | (with_reducible apply Tbl.wf_filter) | split

theorem State.withPartner_memOk {s : State} {image act} (hs : MemOk s) (hf : ∀ t, MemOk t → MemOk (act t)) :
    MemOk (s.withPartner image act) := by
  unfold State.withPartner
  exact Tbl.wf_cut (hf _ (foldl_memOk hs fun t q h => State.memSet_memOk h)) _ _

theorem State.snpRestore_memOk {s : State} {j src image} (hs : MemOk s) : MemOk (s.snpRestore j src image) := by
  unfold State.snpRestore
  exact State.withPartner_memOk hs fun t h => State.snpAnswer_memOk (State.wr_memOk (State.restore_memOk h))

theorem State.outcome_memOk {s j status} (hs : MemOk s) :
    MemOk (State.outcome s j status) := by
  unfold State.outcome
  try dsimp only
  repeat' first | (intro _) | (with_reducible assumption) | (with_reducible apply State.wr_memOk) | (with_reducible apply State.fwReply_memOk) | (with_reducible apply ite_memOk)

theorem State.replayCompare_memOk {s0 j} (hs0 : MemOk s0) :
    MemOk (State.replayCompare s0 j) := by
  unfold State.replayCompare
  try dsimp only
  repeat' first | (intro _) | (with_reducible assumption) | (with_reducible apply State.wr_memOk) | (with_reducible apply State.outcome_memOk) | (with_reducible apply State.hbmRead_memOk) | (with_reducible apply State.inc_memOk) | (with_reducible apply State.wrs_memOk) | (with_reducible apply ite_memOk)

theorem State.snapRate_memOk {s f tag j m} (hs : MemOk s) :
    MemOk (State.snapRate s f tag j m) := by
  unfold State.snapRate
  try dsimp only
  repeat' first | (intro _) | (with_reducible assumption) | (with_reducible apply State.fwReply_memOk) | (with_reducible apply State.wrs_memOk)

theorem State.snapStatus_memOk {s f tag j} (hs : MemOk s) :
    MemOk (State.snapStatus s f tag j) := by
  unfold State.snapStatus
  try dsimp only
  repeat' first | (intro _) | (with_reducible assumption) | (with_reducible apply State.fwReply_memOk)

theorem State.snpCommit_memOk {s j} (hs : MemOk s) :
    MemOk (State.snpCommit s j) := by
  unfold State.snpCommit
  try dsimp only
  repeat' first | (intro _) | (with_reducible assumption) | (with_reducible apply State.hbmRead_memOk) | (with_reducible apply State.snpAnswer_memOk) | (with_reducible apply State.wrs_memOk) | (with_reducible apply State.setSnap_memOk) | (with_reducible apply ite_memOk) | (with_reducible apply ite_memOk_fst) | (with_reducible apply foldl_memOk) | (with_reducible apply foldl_memOk_fst) | (with_reducible apply Tbl.wf_set) | (with_reducible apply Tbl.wf_cut) | (with_reducible apply Tbl.wf_copy) | (with_reducible apply Tbl.wf_filter) | split

theorem State.restoreCmd_memOk {s : State} {f tag j src image} (hs : MemOk s) :
    MemOk (s.restoreCmd f tag j src image) := by
  unfold State.restoreCmd
  refine State.withPartner_memOk hs fun t h => ?_
  have h1 := State.restore_memOk (j := j) (src := src) h
  dsimp only
  split
  · exact State.fwReply_memOk (State.wrs_memOk h1)
  all_goals exact State.fwReply_memOk h1

theorem State.snapConfig_memOk {s f tag j t job cursor loss verify fmt} (hs : MemOk s) :
    MemOk (State.snapConfig s f tag j t job cursor loss verify fmt) := by
  unfold State.snapConfig
  try dsimp only
  repeat' first | (intro _) | (with_reducible assumption) | (with_reducible apply State.fwReply_memOk) | (with_reducible apply State.showLatest_memOk) | (with_reducible apply State.wrs_memOk) | (with_reducible apply ite_memOk)

theorem State.partnerSet_memOk {s f tag serial feed force standby} (hs : MemOk s) :
    MemOk (State.partnerSet s f tag serial feed force standby) := by
  unfold State.partnerSet
  try dsimp only
  repeat' first | (intro _) | (with_reducible assumption) | (with_reducible apply State.fwReply_memOk) | (with_reducible apply State.wrs_memOk) | (with_reducible apply State.hltLog_memOk) | (with_reducible apply ite_memOk)

theorem State.snapOrder_memOk {s f tag j step} (hs : MemOk s) :
    MemOk (State.snapOrder s f tag j step) := by
  unfold State.snapOrder
  try dsimp only
  repeat' first | (intro _) | (with_reducible assumption) | (with_reducible apply State.fwReply_memOk) | (with_reducible apply State.wr_memOk) | (with_reducible apply ite_memOk)

theorem State.snpAbort_memOk {s j} (hs : MemOk s) :
    MemOk (State.snpAbort s j) := by
  unfold State.snpAbort
  try dsimp only
  repeat' first | (intro _) | (with_reducible assumption) | (with_reducible apply State.snpAnswer_memOk) | (with_reducible apply State.snapFail_memOk) | (with_reducible apply ite_memOk) | (with_reducible apply ite_memOk_fst) | (with_reducible apply foldl_memOk) | (with_reducible apply foldl_memOk_fst) | (with_reducible apply Tbl.wf_set) | (with_reducible apply Tbl.wf_cut) | (with_reducible apply Tbl.wf_copy) | (with_reducible apply Tbl.wf_filter) | split

theorem State.stestCtl_memOk {s w} (hs : MemOk s) :
    MemOk (State.stestCtl s w) := by
  unfold State.stestCtl
  try dsimp only
  repeat' first | (intro _) | (with_reducible assumption) | (with_reducible apply State.testRequest_memOk) | (with_reducible apply State.testAbort_memOk) | (with_reducible apply ite_memOk)

theorem State.memberPair_memOk {s g k v m} (hs : MemOk s) :
    MemOk (State.memberPair s g k v m) := by
  unfold State.memberPair
  try dsimp only
  repeat' first | (intro _) | (with_reducible assumption) | (with_reducible apply State.memberWrite_memOk) | (with_reducible apply ite_memOk)

theorem noAct_memOk {a x1 x2 x3 x4} (hx4 : MemOk x4) :
    MemOk (noAct a x1 x2 x3 x4) := by
  unfold noAct
  try dsimp only
  repeat' first | (intro _) | (with_reducible assumption)

theorem State.pinsSeen_memOk {s} (hs : MemOk s) :
    MemOk (State.pinsSeen s) := by
  unfold State.pinsSeen
  try dsimp only
  repeat' first | (intro _) | (with_reducible assumption) | (with_reducible apply State.wr_memOk) | (with_reducible apply ite_memOk)

theorem State.ozlCtl_memOk {s p w m} (hs : MemOk s) :
    MemOk (State.ozlCtl s p w m) := by
  unfold State.ozlCtl
  try dsimp only
  repeat' first | (intro _) | (with_reducible assumption) | (with_reducible apply State.ozlEnable_memOk) | (with_reducible apply State.ozlDisable_memOk) | (with_reducible apply State.ozlRetrain_memOk) | (with_reducible apply State.ozlAccept_memOk) | (with_reducible apply State.wakeTx_memOk) | (with_reducible apply ite_memOk)

theorem State.roleWrite_memOk {s x} (hs : MemOk s) :
    MemOk (State.roleWrite s x) := by
  unfold State.roleWrite
  try dsimp only
  repeat' first | (intro _) | (with_reducible assumption) | (with_reducible apply State.wr_memOk) | (with_reducible apply ite_memOk)

theorem State.snpCtl_memOk {s op j src} (hs : MemOk s) :
    MemOk (State.snpCtl s op j src) := by
  unfold State.snpCtl
  try dsimp only
  repeat' first | (intro _) | (with_reducible assumption) | (with_reducible apply State.snpStart_memOk) | (with_reducible apply State.snpCommit_memOk) | (with_reducible apply State.snpAbort_memOk) | (with_reducible apply State.wr_memOk) | (with_reducible apply State.snpRestore_memOk) | (with_reducible apply ite_memOk) | (with_reducible apply ite_memOk_fst) | (with_reducible apply foldl_memOk) | (with_reducible apply foldl_memOk_fst) | (with_reducible apply Tbl.wf_set) | (with_reducible apply Tbl.wf_cut) | (with_reducible apply Tbl.wf_copy) | (with_reducible apply Tbl.wf_filter) | split

theorem State.abortWrite_memOk {s w m} (hs : MemOk s) :
    MemOk (State.abortWrite s w m) := by
  unfold State.abortWrite
  try dsimp only
  repeat' first | (intro _) | (with_reducible assumption) | (with_reducible apply State.wr_memOk) | (with_reducible apply State.htpAbort_memOk) | (with_reducible apply ite_memOk)

theorem RegHit.putFld_memOk {h0 w m s p} (hs : MemOk s) :
    MemOk (RegHit.putFld h0 w m s p) := by
  unfold RegHit.putFld
  try dsimp only
  repeat' first | (intro _) | (with_reducible assumption) | (with_reducible apply State.wr_memOk) | (with_reducible apply ite_memOk) | (with_reducible apply ite_memOk_fst) | (with_reducible apply foldl_memOk) | (with_reducible apply foldl_memOk_fst) | (with_reducible apply Tbl.wf_set) | (with_reducible apply Tbl.wf_cut) | (with_reducible apply Tbl.wf_copy) | (with_reducible apply Tbl.wf_filter) | split

/-- The effects of register rows keep the memory in canonical form. -/
structure RowsOk (l : List RegRow) : Prop where
  memOk : ∀ row ∈ l, ∀ i v w m s, MemOk s → MemOk (row.act i v w m s)

theorem RowsOk.nil : RowsOk [] := ⟨fun _ h => nomatch h⟩

theorem RowsOk.cons {off count stride size : Nat} {flds : Nat → List (Fld × Nat)}
    {act : Nat → (Fld → Nat) → Nat → Nat → State → State} {l : List RegRow}
    (h : ∀ i v w m s, MemOk s → MemOk (act i v w m s)) (hl : RowsOk l) :
    RowsOk (⟨off, count, stride, size, flds, act⟩ :: l) :=
  ⟨fun row hr => by
    cases hr with
    | head => exact h
    | tail _ hr => exact hl.memOk row hr⟩

theorem RowsOk.quiet {off count stride size : Nat} {flds : Nat → List (Fld × Nat)} {l : List RegRow} (hl : RowsOk l) :
    RowsOk (⟨off, count, stride, size, flds, noAct⟩ :: l) :=
  RowsOk.cons (fun _ _ _ _ _ h => h) hl

theorem RowsOk.append {l k : List RegRow} (hl : RowsOk l) (hk : RowsOk k) : RowsOk (l ++ k) :=
  ⟨fun row hr => by
    cases List.mem_append.mp hr with
    | inl h => exact hl.memOk row h
    | inr h => exact hk.memOk row h⟩

theorem rowsSP_ok {c : Nat} : RowsOk (rowsSP c) := by
  unfold rowsSP
  repeat' first | (with_reducible exact RowsOk.nil) | (with_reducible apply RowsOk.quiet) | (with_reducible apply RowsOk.cons) | (intro _) | (with_reducible assumption) | (with_reducible apply noAct_memOk) | (with_reducible apply State.mapOutRequest_memOk) | (with_reducible apply State.spClear_memOk) | (with_reducible apply State.remapWrite_memOk) | (with_reducible apply ite_memOk)

theorem rowsMU_ok {c : Nat} : RowsOk (rowsMU c) := by
  unfold rowsMU
  repeat' first | (with_reducible exact RowsOk.nil) | (with_reducible apply RowsOk.quiet) | (with_reducible apply RowsOk.cons) | (intro _) | (with_reducible assumption) | (with_reducible apply noAct_memOk) | (with_reducible apply State.muClear_memOk) | (with_reducible apply ite_memOk)

theorem rowsSV_ok {c : Nat} : RowsOk (rowsSV c) := by
  unfold rowsSV
  repeat' first | (with_reducible exact RowsOk.nil) | (with_reducible apply RowsOk.quiet) | (with_reducible apply RowsOk.cons) | (intro _) | (with_reducible assumption) | (with_reducible apply noAct_memOk) | (with_reducible apply State.svFaultEn_memOk) | (with_reducible apply State.svClear_memOk) | (with_reducible apply ite_memOk)

theorem rowsSH0_ok {c : Nat} : RowsOk (rowsSH0 c) := by
  unfold rowsSH0
  repeat' first | (with_reducible exact RowsOk.nil) | (with_reducible apply RowsOk.quiet)

theorem rowsSH1_ok {c : Nat} : RowsOk (rowsSH1 c) := by
  unfold rowsSH1
  repeat' first | (with_reducible exact RowsOk.nil) | (with_reducible apply RowsOk.quiet) | (with_reducible apply RowsOk.cons) | (intro _) | (with_reducible assumption) | (with_reducible apply State.shFaultEn_memOk) | (with_reducible apply noAct_memOk) | (with_reducible apply State.shClear_memOk) | (with_reducible apply ite_memOk)

theorem rowsSH_ok {c : Nat} : RowsOk (rowsSH c) := by
  unfold rowsSH
  exact RowsOk.append rowsSH0_ok rowsSH1_ok

theorem rowsSPR_ok {r : Nat} : RowsOk (rowsSPR r) := by
  unfold rowsSPR
  repeat' first | (with_reducible exact RowsOk.nil) | (with_reducible apply RowsOk.quiet) | (with_reducible apply RowsOk.cons) | (intro _) | (with_reducible assumption) | (with_reducible apply State.spZero_memOk) | (with_reducible apply noAct_memOk) | (with_reducible apply State.handleWrite_memOk) | (with_reducible apply ite_memOk)

theorem rowsSQ0_ok {r : Nat} : RowsOk (rowsSQ0 r) := by
  unfold rowsSQ0
  repeat' first | (with_reducible exact RowsOk.nil) | (with_reducible apply RowsOk.quiet) | (with_reducible apply RowsOk.cons) | (intro _) | (with_reducible assumption) | (with_reducible apply noAct_memOk) | (with_reducible apply State.sqAbort_memOk) | (with_reducible apply State.sqClear_memOk) | (with_reducible apply ite_memOk)

theorem rowsSQ1_ok {r : Nat} : RowsOk (rowsSQ1 r) := by
  unfold rowsSQ1
  repeat' first | (with_reducible exact RowsOk.nil) | (with_reducible apply RowsOk.quiet)

theorem rowsSQ_ok {r : Nat} : RowsOk (rowsSQ r) := by
  unfold rowsSQ
  exact RowsOk.append rowsSQ0_ok rowsSQ1_ok

theorem rowsSTD0_ok {d : Nat} : RowsOk (rowsSTD0 d) := by
  unfold rowsSTD0
  repeat' first | (with_reducible exact RowsOk.nil) | (with_reducible apply RowsOk.quiet) | (with_reducible apply RowsOk.cons) | (intro _) | (with_reducible assumption) | (with_reducible apply noAct_memOk) | (with_reducible apply State.poolWrite_memOk) | (with_reducible apply State.stdCmd_memOk)

theorem rowsSTD1_ok {d : Nat} : RowsOk (rowsSTD1 d) := by
  unfold rowsSTD1
  repeat' first | (with_reducible exact RowsOk.nil) | (with_reducible apply RowsOk.quiet) | (with_reducible apply RowsOk.cons) | (intro _) | (with_reducible assumption) | (with_reducible apply noAct_memOk) | (with_reducible apply State.stdClear_memOk) | (with_reducible apply ite_memOk)

theorem rowsSTD_ok {d : Nat} : RowsOk (rowsSTD d) := by
  unfold rowsSTD
  exact RowsOk.append rowsSTD0_ok rowsSTD1_ok

theorem rowsHC0_ok {d : Nat} : RowsOk (rowsHC0 d) := by
  unfold rowsHC0
  repeat' first | (with_reducible exact RowsOk.nil) | (with_reducible apply RowsOk.quiet) | (with_reducible apply RowsOk.cons) | (intro _) | (with_reducible assumption) | (with_reducible apply noAct_memOk) | (with_reducible apply State.hcFlush_memOk) | (with_reducible apply State.wpCmd_memOk) | (with_reducible apply ite_memOk)

theorem rowsHC1_ok {d : Nat} : RowsOk (rowsHC1 d) := by
  unfold rowsHC1
  repeat' first | (with_reducible exact RowsOk.nil) | (with_reducible apply RowsOk.quiet) | (with_reducible apply RowsOk.cons) | (intro _) | (with_reducible assumption) | (with_reducible apply noAct_memOk) | (with_reducible apply State.hcClear_memOk) | (with_reducible apply ite_memOk)

theorem rowsHC_ok {d : Nat} : RowsOk (rowsHC d) := by
  unfold rowsHC
  exact RowsOk.append rowsHC0_ok rowsHC1_ok

theorem rowsARBD_ok {d : Nat} : RowsOk (rowsARBD d) := by
  unfold rowsARBD
  repeat' first | (with_reducible exact RowsOk.nil) | (with_reducible apply RowsOk.quiet) | (with_reducible apply RowsOk.cons) | (intro _) | (with_reducible assumption) | (with_reducible apply noAct_memOk) | (with_reducible apply State.arbDieClear_memOk) | (with_reducible apply State.prioWrite_memOk) | (with_reducible apply ite_memOk)

theorem rowsDMA_ok {d : Nat} : RowsOk (rowsDMA d) := by
  unfold rowsDMA
  repeat' first | (with_reducible exact RowsOk.nil) | (with_reducible apply RowsOk.quiet) | (with_reducible apply RowsOk.cons) | (intro _) | (with_reducible assumption) | (with_reducible apply noAct_memOk) | (with_reducible apply State.dmaClear_memOk) | (with_reducible apply ite_memOk)

theorem rowsHBM_ok {k : Nat} : RowsOk (rowsHBM k) := by
  unfold rowsHBM
  repeat' first | (with_reducible exact RowsOk.nil) | (with_reducible apply RowsOk.quiet) | (with_reducible apply RowsOk.cons) | (intro _) | (with_reducible assumption) | (with_reducible apply noAct_memOk) | (with_reducible apply State.refreshRate_memOk) | (with_reducible apply State.hbmZero_memOk) | (with_reducible apply State.hbmClear_memOk) | (with_reducible apply ite_memOk)

theorem rowsMOD0_ok : RowsOk (rowsMOD0) := by
  unfold rowsMOD0
  repeat' first | (with_reducible exact RowsOk.nil) | (with_reducible apply RowsOk.quiet) | (with_reducible apply RowsOk.cons) | (intro _) | (with_reducible assumption) | (with_reducible apply noAct_memOk) | (with_reducible apply State.wr_memOk) | (with_reducible apply State.resetCtl_memOk) | (with_reducible apply ite_memOk)

theorem rowsMOD1_ok : RowsOk (rowsMOD1) := by
  unfold rowsMOD1
  repeat' first | (with_reducible exact RowsOk.nil) | (with_reducible apply RowsOk.quiet) | (with_reducible apply RowsOk.cons) | (intro _) | (with_reducible assumption) | (with_reducible apply noAct_memOk) | (with_reducible apply State.ccRun_memOk) | (with_reducible apply State.wdtArm_memOk) | (with_reducible apply State.wdtKick_memOk) | (with_reducible apply State.launchSubmit_memOk) | (with_reducible apply ite_memOk)

theorem rowsMOD_ok : RowsOk (rowsMOD) := by
  unfold rowsMOD
  exact RowsOk.append rowsMOD0_ok rowsMOD1_ok

theorem rowsPWR0_ok : RowsOk (rowsPWR0) := by
  unfold rowsPWR0
  repeat' first | (with_reducible exact RowsOk.nil) | (with_reducible apply RowsOk.quiet) | (with_reducible apply RowsOk.cons) | (intro _) | (with_reducible assumption) | (with_reducible apply noAct_memOk) | (with_reducible apply State.gateRequest_memOk) | (with_reducible apply State.wakeRequest_memOk) | (with_reducible apply State.wr_memOk)

theorem rowsPWR1_ok : RowsOk (rowsPWR1) := by
  unfold rowsPWR1
  repeat' first | (with_reducible exact RowsOk.nil) | (with_reducible apply RowsOk.quiet) | (with_reducible apply RowsOk.cons) | (intro _) | (with_reducible assumption) | (with_reducible apply noAct_memOk) | (with_reducible apply State.pwrClear_memOk) | (with_reducible apply ite_memOk)

theorem rowsPWR2_ok : RowsOk (rowsPWR2) := by
  unfold rowsPWR2
  repeat' first | (with_reducible exact RowsOk.nil) | (with_reducible apply RowsOk.quiet)

theorem rowsPWR_ok : RowsOk (rowsPWR) := by
  unfold rowsPWR
  exact RowsOk.append (RowsOk.append rowsPWR0_ok rowsPWR1_ok) rowsPWR2_ok

theorem rowsHLT0_ok : RowsOk (rowsHLT0) := by
  unfold rowsHLT0
  repeat' first | (with_reducible exact RowsOk.nil) | (with_reducible apply RowsOk.quiet) | (with_reducible apply RowsOk.cons) | (intro _) | (with_reducible assumption) | (with_reducible apply noAct_memOk) | (with_reducible apply State.stestCtl_memOk) | (with_reducible apply State.hltClear_memOk) | (with_reducible apply ite_memOk)

theorem rowsHLT1_ok : RowsOk (rowsHLT1) := by
  unfold rowsHLT1
  repeat' first | (with_reducible exact RowsOk.nil) | (with_reducible apply RowsOk.quiet) | (with_reducible apply RowsOk.cons) | (intro _) | (with_reducible assumption) | (with_reducible apply State.pinsSeen_memOk)

theorem rowsHLT_ok : RowsOk (rowsHLT) := by
  unfold rowsHLT
  exact RowsOk.append rowsHLT0_ok rowsHLT1_ok

theorem rowsSEC_ok : RowsOk (rowsSEC) := by
  unfold rowsSEC
  repeat' first | (with_reducible exact RowsOk.nil) | (with_reducible apply RowsOk.quiet) | (with_reducible apply RowsOk.cons) | (intro _) | (with_reducible assumption) | (with_reducible apply noAct_memOk) | (with_reducible apply State.measGo_memOk) | (with_reducible apply State.measLock_memOk) | (with_reducible apply ite_memOk)

theorem rowsTEN_ok : RowsOk (rowsTEN) := by
  unfold rowsTEN
  repeat' first | (with_reducible exact RowsOk.nil) | (with_reducible apply RowsOk.quiet) | (with_reducible apply RowsOk.cons) | (intro _) | (with_reducible assumption) | (with_reducible apply State.tenRegion_memOk) | (with_reducible apply State.tenStack_memOk) | (with_reducible apply noAct_memOk) | (with_reducible apply State.meterTail_memOk) | (with_reducible apply ite_memOk)

theorem rowsSNP0_ok : RowsOk (rowsSNP0) := by
  unfold rowsSNP0
  repeat' first | (with_reducible exact RowsOk.nil) | (with_reducible apply RowsOk.quiet) | (with_reducible apply RowsOk.cons) | (intro _) | (with_reducible assumption) | (with_reducible apply State.snpCtl_memOk)

theorem rowsSNP1_ok : RowsOk (rowsSNP1) := by
  unfold rowsSNP1
  repeat' first | (with_reducible exact RowsOk.nil) | (with_reducible apply RowsOk.quiet) | (with_reducible apply RowsOk.cons) | (intro _) | (with_reducible assumption) | (with_reducible apply noAct_memOk) | (with_reducible apply State.snpClear_memOk) | (with_reducible apply ite_memOk)

theorem rowsSNP_ok : RowsOk (rowsSNP) := by
  unfold rowsSNP
  exact RowsOk.append rowsSNP0_ok rowsSNP1_ok

theorem rowsDBG_ok : RowsOk (rowsDBG) := by
  unfold rowsDBG
  repeat' first | (with_reducible exact RowsOk.nil) | (with_reducible apply RowsOk.quiet) | (with_reducible apply RowsOk.cons) | (intro _) | (with_reducible assumption) | (with_reducible apply noAct_memOk) | (with_reducible apply State.dbgHalt_memOk) | (with_reducible apply State.dbgStep_memOk) | (with_reducible apply State.dbgDataHi_memOk)

theorem rowsCLK_ok : RowsOk (rowsCLK) := by
  unfold rowsCLK
  repeat' first | (with_reducible exact RowsOk.nil) | (with_reducible apply RowsOk.quiet) | (with_reducible apply RowsOk.cons) | (intro _) | (with_reducible assumption) | (with_reducible apply noAct_memOk) | (with_reducible apply State.clkClear_memOk) | (with_reducible apply ite_memOk)

theorem rowsARBP_ok : RowsOk (rowsARBP) := by
  unfold rowsARBP
  repeat' first | (with_reducible exact RowsOk.nil) | (with_reducible apply RowsOk.quiet) | (with_reducible apply RowsOk.cons) | (intro _) | (with_reducible assumption) | (with_reducible apply noAct_memOk) | (with_reducible apply State.shadowWrite_memOk) | (with_reducible apply State.arbPortClear_memOk) | (with_reducible apply ite_memOk)

theorem rowsOZL0_ok {p : Nat} : RowsOk (rowsOZL0 p) := by
  unfold rowsOZL0
  repeat' first | (with_reducible exact RowsOk.nil) | (with_reducible apply RowsOk.quiet) | (with_reducible apply RowsOk.cons) | (intro _) | (with_reducible assumption) | (with_reducible apply State.ozlCtl_memOk)

theorem rowsOZL1_ok {p : Nat} : RowsOk (rowsOZL1 p) := by
  unfold rowsOZL1
  repeat' first | (with_reducible exact RowsOk.nil) | (with_reducible apply RowsOk.quiet) | (with_reducible apply RowsOk.cons) | (intro _) | (with_reducible assumption) | (with_reducible apply noAct_memOk) | (with_reducible apply State.ozlClear_memOk) | (with_reducible apply ite_memOk)

theorem rowsOZL_ok {p : Nat} : RowsOk (rowsOZL p) := by
  unfold rowsOZL
  exact RowsOk.append rowsOZL0_ok rowsOZL1_ok

theorem rowsOZLC_ok : RowsOk (rowsOZLC) := by
  unfold rowsOZLC
  repeat' first | (with_reducible exact RowsOk.nil) | (with_reducible apply RowsOk.quiet)

theorem rowsHTP0_ok : RowsOk (rowsHTP0) := by
  unfold rowsHTP0
  repeat' first | (with_reducible exact RowsOk.nil) | (with_reducible apply RowsOk.quiet) | (with_reducible apply RowsOk.cons) | (intro _) | (with_reducible assumption) | (with_reducible apply State.hostDown_memOk) | (with_reducible apply noAct_memOk) | (with_reducible apply State.wr_memOk) | (with_reducible apply ite_memOk)

theorem rowsHTP1_ok : RowsOk (rowsHTP1) := by
  unfold rowsHTP1
  repeat' first | (with_reducible exact RowsOk.nil) | (with_reducible apply RowsOk.quiet) | (with_reducible apply RowsOk.cons) | (intro _) | (with_reducible assumption) | (with_reducible apply noAct_memOk) | (with_reducible apply State.txqGo_memOk) | (with_reducible apply State.abortWrite_memOk)

theorem rowsHTP2_ok : RowsOk (rowsHTP2) := by
  unfold rowsHTP2
  repeat' first | (with_reducible exact RowsOk.nil) | (with_reducible apply RowsOk.quiet) | (with_reducible apply RowsOk.cons) | (intro _) | (with_reducible assumption) | (with_reducible apply noAct_memOk) | (with_reducible apply State.htpClear_memOk) | (with_reducible apply State.flowWords_memOk) | (with_reducible apply ite_memOk)

theorem rowsHTP_ok : RowsOk (rowsHTP) := by
  unfold rowsHTP
  exact RowsOk.append (RowsOk.append rowsHTP0_ok rowsHTP1_ok) rowsHTP2_ok

theorem rowsHCA_ok {c : Nat} : RowsOk (rowsHCA c) := by
  unfold rowsHCA
  repeat' first | (with_reducible exact RowsOk.nil) | (with_reducible apply RowsOk.quiet) | (with_reducible apply RowsOk.cons) | (intro _) | (with_reducible assumption) | (with_reducible apply noAct_memOk) | (with_reducible apply State.atomPort_memOk) | (with_reducible apply State.wr_memOk) | (with_reducible apply ite_memOk)

theorem rowsSTR_ok : RowsOk (rowsSTR) := by
  unfold rowsSTR
  repeat' first | (with_reducible exact RowsOk.nil) | (with_reducible apply RowsOk.quiet) | (with_reducible apply RowsOk.cons) | (intro _) | (with_reducible assumption) | (with_reducible apply State.streamWrite_memOk)

theorem rowsCOL0_ok : RowsOk (rowsCOL0) := by
  unfold rowsCOL0
  repeat' first | (with_reducible exact RowsOk.nil) | (with_reducible apply RowsOk.quiet) | (with_reducible apply RowsOk.cons) | (intro _) | (with_reducible assumption) | (with_reducible apply noAct_memOk) | (with_reducible apply State.colSubmit_memOk) | (with_reducible apply State.roleWrite_memOk) | (with_reducible apply State.routeSwapRequest_memOk) | (with_reducible apply ite_memOk)

theorem rowsCOL1_ok : RowsOk (rowsCOL1) := by
  unfold rowsCOL1
  repeat' first | (with_reducible exact RowsOk.nil) | (with_reducible apply RowsOk.quiet)

theorem rowsCOL2_ok : RowsOk (rowsCOL2) := by
  unfold rowsCOL2
  repeat' first | (with_reducible exact RowsOk.nil) | (with_reducible apply RowsOk.quiet) | (with_reducible apply RowsOk.cons) | (intro _) | (with_reducible assumption) | (with_reducible apply noAct_memOk) | (with_reducible apply State.colCntClear_memOk) | (with_reducible apply State.groupWrite_memOk) | (with_reducible apply State.wr_memOk) | (with_reducible apply State.memberPair_memOk) | (with_reducible apply ite_memOk)

theorem rowsCOL_ok : RowsOk (rowsCOL) := by
  unfold rowsCOL
  exact RowsOk.append (RowsOk.append rowsCOL0_ok rowsCOL1_ok) rowsCOL2_ok

theorem iodBlock_ok {o : Nat} {x : Nat × List RegRow} (h : iodBlock o = some x) : RowsOk x.2 := by
  unfold iodBlock at h
  split at h
  · split at h
    all_goals try dsimp only at h
    all_goals try split at h
    all_goals
      injection h with h
      subst h
    all_goals first | exact rowsMOD_ok | exact rowsPWR_ok | exact rowsHLT_ok | exact rowsSEC_ok | exact rowsTEN_ok | exact rowsSNP_ok | exact rowsDBG_ok | exact rowsCLK_ok | exact rowsARBP_ok | exact rowsOZL_ok | exact rowsOZLC_ok | exact rowsHTP_ok
  · split at h
    · injection h with h
      subst h
      exact rowsHCA_ok
    · split at h
      · injection h with h
        subst h
        exact rowsSTR_ok
      · split at h
        · injection h with h
          subst h
          exact rowsCOL_ok
        · cases h

theorem clusterBlock_ok {a c b : Nat} {x : Nat × List RegRow}
    (h : (if a < 0x20000 then some (b, rowsSP c) else if a < 0x21000 then some (b + 0x20000, rowsMU c)
      else if a < 0x22000 then some (b + 0x21000, rowsSV c) else some (b + 0x22000, rowsSH c)) = some x) : RowsOk x.2 := by
  split at h
  · injection h with h
    subst h
    exact rowsSP_ok
  · split at h
    · injection h with h
      subst h
      exact rowsMU_ok
    · split at h
      · injection h with h
        subst h
        exact rowsSV_ok
      · injection h with h
        subst h
        exact rowsSH_ok

theorem hbmRows_ok {d k : Nat} : RowsOk (if k < 3 then rowsHBM (3 * d + k) else []) := by
  split
  · exact rowsHBM_ok
  · exact RowsOk.nil

theorem dieBlock_ok {o b d : Nat} {x : Nat × List RegRow}
    (h : (if o < 0x10000 then some (b, rowsSTD d) else if o < 0x14000 then some (b + 0x10000, rowsHC d)
      else if o < 0x18000 then some (b + 0x14000, rowsARBD d)
      else if o < 0x1C000 then
        let k := (o - 0x18000) / 0x1000
        some (b + 0x18000 + 0x1000 * k, if k < 3 then rowsHBM (3 * d + k) else [])
      else some (b + 0x1C000, rowsDMA d)) = some x) : RowsOk x.2 := by
  split at h
  · injection h with h
    subst h
    exact rowsSTD_ok
  · split at h
    · injection h with h
      subst h
      exact rowsHC_ok
    · split at h
      · injection h with h
        subst h
        exact rowsARBD_ok
      · split at h
        · injection h with h
          subst h
          exact hbmRows_ok
        · injection h with h
          subst h
          exact rowsDMA_ok

theorem blockAt_ok {a : Nat} {x : Nat × List RegRow} (h : blockAt a = some x) : RowsOk x.2 := by
  unfold blockAt at h
  split at h
  · cases h
  · split at h
    · exact clusterBlock_ok h
    · split at h
      · dsimp only at h
        split at h
        · injection h with h
          subst h
          exact rowsSPR_ok
        · injection h with h
          subst h
          exact rowsSQ_ok
      · split at h
        · exact dieBlock_ok h
        · split at h
          · obtain ⟨y, hy, hx⟩ := Option.map_eq_some_iff.mp h
            subst hx
            exact iodBlock_ok (x := y) hy
          · cases h

/-- The row of a register that an address meets keeps the memory in canonical form. -/
theorem findReg_ok {a : Nat} {h : RegHit} (hf : findReg a = some h) : ∀ i v w m s, MemOk s → MemOk (h.row.act i v w m s) := by
  unfold findReg at hf
  split at hf
  · cases hf
  · next x hx =>
    obtain ⟨row, hr, hh⟩ := List.exists_of_findSome?_eq_some hf
    unfold rowHit at hh
    dsimp only at hh
    split at hh
    · cases hh
      exact (blockAt_ok hx).memOk row hr
    · cases hh

theorem RegHit.write_memOk {s : State} {h : RegHit} {w m a : Nat} (hs : MemOk s) (hf : findReg a = some h) :
    MemOk (h.write s w m) := by
  unfold RegHit.write
  exact findReg_ok hf _ _ _ _ _ (foldl_memOk hs fun t p ht => RegHit.putFld_memOk ht)

theorem State.csramCheck_memOk {s a} (hs : MemOk s) :
    MemOk (State.csramCheck s a).1 := by
  unfold State.csramCheck
  try dsimp only
  repeat' first | (intro _) | (with_reducible assumption) | (with_reducible apply State.inc_memOk) | (with_reducible apply State.risk_memOk) | (with_reducible apply ite_memOk) | (with_reducible apply ite_memOk_fst) | (with_reducible apply foldl_memOk) | (with_reducible apply foldl_memOk_fst) | (with_reducible apply Tbl.wf_set) | (with_reducible apply Tbl.wf_cut) | (with_reducible apply Tbl.wf_copy) | (with_reducible apply Tbl.wf_filter) | split

theorem State.regWrite1_memOk {s : State} {a n v} (hs : MemOk s) : MemOk (s.regWrite1 a n v) := by
  unfold State.regWrite1
  split
  · exact hs
  · next h hf => exact ite_memOk hs (RegHit.write_memOk hs hf)

theorem State.regWrite_memOk {s a n v} (hs : MemOk s) :
    MemOk (State.regWrite s a n v) := by
  unfold State.regWrite
  try dsimp only
  repeat' first | (intro _) | (with_reducible assumption) | (with_reducible apply State.regWrite1_memOk) | (with_reducible apply ite_memOk)

theorem State.coreBank_memOk {s c g} (hs : MemOk s) :
    MemOk (State.coreBank s c g).1 := by
  unfold State.coreBank
  try dsimp only
  repeat' first | (intro _) | (with_reducible assumption) | (with_reducible apply State.rowAccess_memOk) | (with_reducible apply State.wakeRegion_memOk) | (with_reducible apply State.noteWaker_memOk) | (with_reducible apply State.noteFar_memOk) | (with_reducible apply ite_memOk)

theorem State.regRead4_memOk {s a n} (hs : MemOk s) :
    MemOk (State.regRead4 s a n).1 := by
  unfold State.regRead4
  try dsimp only
  repeat' first | (intro _) | (with_reducible assumption) | (with_reducible apply ite_memOk) | (with_reducible apply ite_memOk_fst) | (with_reducible apply foldl_memOk) | (with_reducible apply foldl_memOk_fst) | (with_reducible apply Tbl.wf_set) | (with_reducible apply Tbl.wf_cut) | (with_reducible apply Tbl.wf_copy) | (with_reducible apply Tbl.wf_filter) | split

theorem State.regRead_memOk {s a n} (hs : MemOk s) :
    MemOk (State.regRead s a n).1 := by
  unfold State.regRead
  try dsimp only
  repeat' first | (intro _) | (with_reducible assumption) | (with_reducible apply State.regRead4_memOk) | (with_reducible apply ite_memOk) | (with_reducible apply ite_memOk_fst)

theorem State.busLoad_memOk {s a n} (hs : MemOk s) :
    MemOk (State.busLoad s a n).1 := by
  unfold State.busLoad
  try dsimp only
  repeat' first | (intro _) | (with_reducible assumption) | (with_reducible apply State.hbmRead_memOk) | (with_reducible apply State.coreBank_memOk) | (with_reducible apply State.csramCheck_memOk) | (with_reducible apply State.regRead_memOk) | (with_reducible apply ite_memOk) | (with_reducible apply ite_memOk_fst) | (with_reducible apply foldl_memOk) | (with_reducible apply foldl_memOk_fst) | (with_reducible apply Tbl.wf_set) | (with_reducible apply Tbl.wf_cut) | (with_reducible apply Tbl.wf_copy) | (with_reducible apply Tbl.wf_filter) | split

theorem State.busStore_memOk {s src a n v} (hs : MemOk s) :
    MemOk (State.busStore s src a n v).1 := by
  unfold State.busStore
  try dsimp only
  repeat' first | (intro _) | (with_reducible assumption) | (with_reducible apply State.hbmWriteBy_memOk) | (with_reducible apply State.coreBank_memOk) | (with_reducible apply State.inject_memOk) | (with_reducible apply State.pokes_memOk) | (with_reducible apply State.csramCheck_memOk) | (with_reducible apply State.regWrite_memOk) | (with_reducible apply ite_memOk) | (with_reducible apply ite_memOk_fst) | (with_reducible apply foldl_memOk) | (with_reducible apply foldl_memOk_fst) | (with_reducible apply Tbl.wf_set) | (with_reducible apply Tbl.wf_cut) | (with_reducible apply Tbl.wf_copy) | (with_reducible apply Tbl.wf_filter) | split

theorem State.registerWrite_memOk {s a n v} (hs : MemOk s) :
    MemOk (State.registerWrite s a n v) := by
  unfold State.registerWrite
  try dsimp only
  repeat' first | (intro _) | (with_reducible assumption) | (with_reducible apply State.regWrite_memOk) | (with_reducible apply ite_memOk)

theorem State.setPc_memOk {s c a} (hs : MemOk s) :
    MemOk (State.setPc s c a) := by
  unfold State.setPc
  try dsimp only
  repeat' first | (intro _) | (with_reducible assumption) | (with_reducible apply State.wr_memOk)

theorem State.setGpr_memOk {s c n v} (hs : MemOk s) :
    MemOk (State.setGpr s c n v) := by
  unfold State.setGpr
  try dsimp only
  repeat' first | (intro _) | (with_reducible assumption) | (with_reducible apply State.wr_memOk) | (with_reducible apply ite_memOk)

theorem State.jalr_ccOk {c d s1 i s} (hs : MemOk s) :
    CcOk (State.jalr c d s1 i s) := by
  unfold State.jalr
  try dsimp only
  repeat' first | (intro _) | (with_reducible assumption) | (with_reducible apply State.setGpr_memOk) | exact CcOk_stall | (with_reducible apply CcOk_next) | (with_reducible apply CcOk_jump)

theorem State.aluImm_ccOk {f c d s1 i s} (hs : MemOk s) :
    CcOk (State.aluImm f c d s1 i s) := by
  unfold State.aluImm
  try dsimp only
  repeat' first | (intro _) | (with_reducible assumption) | (with_reducible apply State.setGpr_memOk) | exact CcOk_stall | (with_reducible apply CcOk_next)

theorem State.seeCycle_memOk {s now} (hs : MemOk s) :
    MemOk (State.seeCycle s now) := by
  unfold State.seeCycle
  try dsimp only
  repeat' first | (intro _) | (with_reducible assumption) | (with_reducible apply State.wr_memOk) | (with_reducible apply ite_memOk) | (with_reducible apply ite_memOk_fst) | (with_reducible apply foldl_memOk)

theorem State.csrRead_ccOk {c d n now w s} (hs : MemOk s) :
    CcOk (State.csrRead c d n now w s) := by
  unfold State.csrRead
  try dsimp only
  repeat' first | (intro _) | (with_reducible assumption) | (with_reducible apply State.seeCycle_memOk) | (with_reducible apply State.setGpr_memOk) | (with_reducible apply State.wr_memOk) | exact CcOk_stall | (with_reducible apply CcOk_next) | (with_reducible apply CcOk_jump) | (with_reducible apply CcOk_trap) | (with_reducible apply ite_ccOk) | (with_reducible apply ite_memOk) | (with_reducible apply ite_memOk_fst) | (with_reducible apply foldl_memOk) | (with_reducible apply foldl_memOk_fst) | (with_reducible apply Tbl.wf_set) | (with_reducible apply Tbl.wf_cut) | (with_reducible apply Tbl.wf_copy) | (with_reducible apply Tbl.wf_filter) | split

theorem State.ccFetch_memOk {s c} (hs : MemOk s) :
    MemOk (State.ccFetch s c).1 := by
  unfold State.ccFetch
  try dsimp only
  repeat' first | (intro _) | (with_reducible assumption) | (with_reducible apply State.busLoad_memOk) | (with_reducible apply ite_memOk) | (with_reducible apply ite_memOk_fst)

theorem State.ccTrap_memOk {s c cause tval} (hs : MemOk s) :
    MemOk (State.ccTrap s c cause tval) := by
  unfold State.ccTrap
  try dsimp only
  repeat' first | (intro _) | (with_reducible assumption) | (with_reducible apply State.setPc_memOk) | (with_reducible apply State.wrs_memOk)

theorem State.coreStep_memOk {s : State} {c w f} (hs : MemOk s) (hf : ∀ t, MemOk t → CcOk (f t)) :
    MemOk (s.coreStep c w f) := by
  unfold State.coreStep
  have h1 : MemOk (s.ccFetch c).1 := State.ccFetch_memOk hs
  have h2 := hf _ h1
  dsimp only
  split
  · exact hs
  · split
    · exact State.ccTrap_memOk h1
    · split
      · exact State.ccTrap_memOk h1
      · split
        · exact hs
        · split
          · next t ht => rw [ht] at h2; exact State.setPc_memOk h2
          · next t a ht =>
            rw [ht] at h2
            exact ite_memOk (State.setPc_memOk h2) (State.ccTrap_memOk h1)
          · next t cause v ht => rw [ht] at h2; exact State.ccTrap_memOk h2
          · exact hs

theorem State.shiftImm_ccOk {c d s1 i s} (hs : MemOk s) :
    CcOk (State.shiftImm c d s1 i s) := by
  unfold State.shiftImm
  try dsimp only
  repeat' first | (intro _) | (with_reducible assumption) | (with_reducible apply State.setGpr_memOk) | exact CcOk_stall | (with_reducible apply CcOk_next) | (with_reducible apply CcOk_jump) | (with_reducible apply CcOk_trap) | (with_reducible apply ite_ccOk)

theorem State.alu_ccOk {f c d s1 s2 s} (hs : MemOk s) :
    CcOk (State.alu f c d s1 s2 s) := by
  unfold State.alu
  try dsimp only
  repeat' first | (intro _) | (with_reducible assumption) | (with_reducible apply State.setGpr_memOk) | exact CcOk_stall | (with_reducible apply CcOk_next)

theorem State.load_ccOk {n signed c d s1 i s} (hs : MemOk s) :
    CcOk (State.load n signed c d s1 i s) := by
  unfold State.load
  try dsimp only
  repeat' first | (intro _) | (with_reducible assumption) | (with_reducible apply State.busLoad_memOk) | (with_reducible apply State.setGpr_memOk) | exact CcOk_stall | (with_reducible apply CcOk_next) | (with_reducible apply CcOk_jump) | (with_reducible apply CcOk_trap) | (with_reducible apply ite_ccOk)

theorem State.csrPut_memOk {s c n v} (hs : MemOk s) :
    MemOk (State.csrPut s c n v) := by
  unfold State.csrPut
  try dsimp only
  repeat' first | (intro _) | (with_reducible assumption) | (with_reducible apply State.wr_memOk) | (with_reducible apply State.wrs_memOk) | (with_reducible apply ite_memOk) | (with_reducible apply ite_memOk_fst) | (with_reducible apply foldl_memOk) | (with_reducible apply foldl_memOk_fst) | (with_reducible apply Tbl.wf_set) | (with_reducible apply Tbl.wf_cut) | (with_reducible apply Tbl.wf_copy) | (with_reducible apply Tbl.wf_filter) | split

theorem State.csrWrite_ccOk {c s1 n w s} (hs : MemOk s) :
    CcOk (State.csrWrite c s1 n w s) := by
  unfold State.csrWrite
  try dsimp only
  repeat' first | (intro _) | (with_reducible assumption) | (with_reducible apply State.csrPut_memOk) | exact CcOk_stall | (with_reducible apply CcOk_next) | (with_reducible apply CcOk_jump) | (with_reducible apply CcOk_trap) | (with_reducible apply ite_ccOk) | (with_reducible apply ite_memOk) | (with_reducible apply ite_memOk_fst) | (with_reducible apply foldl_memOk) | (with_reducible apply foldl_memOk_fst) | (with_reducible apply Tbl.wf_set) | (with_reducible apply Tbl.wf_cut) | (with_reducible apply Tbl.wf_copy) | (with_reducible apply Tbl.wf_filter) | split

theorem State.callOut_ccOk {cause w s} (hs : MemOk s) :
    CcOk (State.callOut cause w s) := by
  unfold State.callOut
  try dsimp only
  repeat' first | (intro _) | (with_reducible assumption) | exact CcOk_stall | (with_reducible apply CcOk_next) | (with_reducible apply CcOk_jump) | (with_reducible apply CcOk_trap)

theorem State.store_ccOk {n c s2 s1 i s} (hs : MemOk s) :
    CcOk (State.store n c s2 s1 i s) := by
  unfold State.store
  try dsimp only
  repeat' first | (intro _) | (with_reducible assumption) | (with_reducible apply State.busStore_memOk) | exact CcOk_stall | (with_reducible apply CcOk_next) | (with_reducible apply CcOk_jump) | (with_reducible apply CcOk_trap) | (with_reducible apply ite_ccOk)

theorem State.ccReturn_ccOk {s c} (hs : MemOk s) :
    CcOk (State.ccReturn s c) := by
  unfold State.ccReturn
  try dsimp only
  repeat' first | (intro _) | (with_reducible assumption) | (with_reducible apply State.wr_memOk) | exact CcOk_stall | (with_reducible apply CcOk_next) | (with_reducible apply CcOk_jump)

theorem State.ccFence_ccOk {scope w c s} (hs : MemOk s) :
    CcOk (State.ccFence scope w c s) := by
  unfold State.ccFence
  try dsimp only
  repeat' first | (intro _) | (with_reducible assumption) | exact CcOk_stall | (with_reducible apply CcOk_next) | (with_reducible apply CcOk_jump) | (with_reducible apply CcOk_trap) | (with_reducible apply ite_ccOk)

theorem State.branch_ccOk {f c a b i s} (hs : MemOk s) :
    CcOk (State.branch f c a b i s) := by
  unfold State.branch
  try dsimp only
  repeat' first | (intro _) | (with_reducible assumption) | exact CcOk_stall | (with_reducible apply CcOk_next) | (with_reducible apply CcOk_jump) | (with_reducible apply CcOk_trap) | (with_reducible apply ite_ccOk)

theorem State.sys_ccOk {u priv w c f} {s : State} (hs : MemOk s) (hf : ∀ t, MemOk t → CcOk (f t)) :
    CcOk (State.sys u priv w c f s) := by
  unfold State.sys
  exact ite_ccOk (CcOk_trap hs) (ite_ccOk (CcOk_trap hs) (hf _ hs))

theorem State.waitWake_memOk {s c now} (hs : MemOk s) :
    MemOk (State.waitWake s c now) := by
  unfold State.waitWake
  try dsimp only
  repeat' first | (intro _) | (with_reducible assumption) | (with_reducible apply State.seeCycle_memOk) | (with_reducible apply State.wrs_memOk) | (with_reducible apply ite_memOk)

theorem State.jal_ccOk {c d i s} (hs : MemOk s) :
    CcOk (State.jal c d i s) := by
  unfold State.jal
  try dsimp only
  repeat' first | (intro _) | (with_reducible assumption) | (with_reducible apply State.setGpr_memOk) | exact CcOk_stall | (with_reducible apply CcOk_next) | (with_reducible apply CcOk_jump)

theorem State.waitStart_ccOk {c now s} (hs : MemOk s) :
    CcOk (State.waitStart c now s) := by
  unfold State.waitStart
  try dsimp only
  repeat' first | (intro _) | (with_reducible assumption) | (with_reducible apply State.seeCycle_memOk) | (with_reducible apply State.wr_memOk) | exact CcOk_stall | (with_reducible apply CcOk_next) | (with_reducible apply CcOk_jump) | (with_reducible apply CcOk_trap) | (with_reducible apply ite_ccOk)

theorem State.resultIc_memOk {s r} (hs : MemOk s) :
    MemOk (State.resultIc s r) := by
  unfold State.resultIc
  try dsimp only
  repeat' first | (intro _) | (with_reducible assumption) | (with_reducible apply State.issue_memOk) | (with_reducible apply State.finish_memOk) | (with_reducible apply ite_memOk)

theorem State.unitFault_memOk {s r c k} (hs : MemOk s) :
    MemOk (State.unitFault s r c k) := by
  unfold State.unitFault
  try dsimp only
  repeat' first | (intro _) | (with_reducible assumption) | (with_reducible apply State.svFault_memOk) | (with_reducible apply State.shFault_memOk) | (with_reducible apply State.regionFault_memOk) | (with_reducible apply ite_memOk)

theorem State.shearsOp_memOk {s r rcd op} (hs : MemOk s) :
    MemOk (State.shearsOp s r rcd op) := by
  unfold State.shearsOp
  try dsimp only
  repeat' first | (intro _) | (with_reducible assumption) | (with_reducible apply State.issueOp_memOk) | (with_reducible apply ite_memOk)

theorem State.tapLoad_memOk {s ir out} (hs : MemOk s) :
    MemOk (State.tapLoad s ir out) := by
  unfold State.tapLoad
  try dsimp only
  repeat' first | (intro _) | (with_reducible assumption) | (with_reducible apply State.wrs_memOk)

theorem State.dbgMark_memOk {s a} (hs : MemOk s) :
    MemOk (State.dbgMark s a) := by
  unfold State.dbgMark
  try dsimp only
  repeat' first | (intro _) | (with_reducible assumption) | (with_reducible apply State.touchRegion_memOk) | (with_reducible apply State.touchDebug_memOk) | (with_reducible apply ite_memOk) | (with_reducible apply ite_memOk_fst) | (with_reducible apply foldl_memOk) | (with_reducible apply foldl_memOk_fst) | (with_reducible apply Tbl.wf_set) | (with_reducible apply Tbl.wf_cut) | (with_reducible apply Tbl.wf_copy) | (with_reducible apply Tbl.wf_filter) | split

theorem State.tapRelease_memOk {s} (hs : MemOk s) :
    MemOk (State.tapRelease s) := by
  unfold State.tapRelease
  try dsimp only
  repeat' first | (intro _) | (with_reducible assumption) | (with_reducible apply State.wrs_memOk) | (with_reducible apply State.wr_memOk) | (with_reducible apply ite_memOk)

theorem State.tapPlain_memOk {s ir out} (hs : MemOk s) :
    MemOk (State.tapPlain s ir out) := by
  unfold State.tapPlain
  try dsimp only
  repeat' first | (intro _) | (with_reducible assumption) | (with_reducible apply State.tapLoad_memOk) | (with_reducible apply State.tapRelease_memOk) | (with_reducible apply ite_memOk)

theorem State.tapReset_memOk {s} (hs : MemOk s) :
    MemOk (State.tapReset s) := by
  unfold State.tapReset
  try dsimp only
  repeat' first | (intro _) | (with_reducible assumption) | (with_reducible apply State.tapPlain_memOk)

theorem State.dbgMem_memOk {s write a v} (hs : MemOk s) :
    MemOk (State.dbgMem s write a v) := by
  unfold State.dbgMem
  try dsimp only
  repeat' first | (intro _) | (with_reducible assumption) | (with_reducible apply State.tapRelease_memOk) | (with_reducible apply State.tapLoad_memOk) | (with_reducible apply State.busStore_memOk) | (with_reducible apply State.dbgMark_memOk) | (with_reducible apply State.busLoad_memOk) | (with_reducible apply ite_memOk)

theorem State.tapHold_memOk {s ir out} (hs : MemOk s) :
    MemOk (State.tapHold s ir out) := by
  unfold State.tapHold
  try dsimp only
  repeat' first | (intro _) | (with_reducible assumption) | (with_reducible apply State.coldReset_memOk) | (with_reducible apply State.wr_memOk) | (with_reducible apply State.tapLoad_memOk) | (with_reducible apply ite_memOk)

theorem State.tapExtest_memOk {s ir pins cells} (hs : MemOk s) :
    MemOk (State.tapExtest s ir pins cells) := by
  unfold State.tapExtest
  try dsimp only
  repeat' first | (intro _) | (with_reducible assumption) | (with_reducible apply State.wr_memOk) | (with_reducible apply State.tapHold_memOk) | (with_reducible apply ite_memOk)

theorem State.tapSample_memOk {s pins cells} (hs : MemOk s) :
    MemOk (State.tapSample s pins cells) := by
  unfold State.tapSample
  try dsimp only
  repeat' first | (intro _) | (with_reducible assumption) | (with_reducible apply State.tapRelease_memOk) | (with_reducible apply State.wr_memOk) | (with_reducible apply State.tapLoad_memOk) | (with_reducible apply ite_memOk)

theorem State.dbgScan_memOk {s din} (hs : MemOk s) :
    MemOk (State.dbgScan s din) := by
  unfold State.dbgScan
  try dsimp only
  repeat' first | (intro _) | (with_reducible assumption) | (with_reducible apply State.tapRelease_memOk) | (with_reducible apply State.tapLoad_memOk) | (with_reducible apply State.scanPut_memOk) | (with_reducible apply ite_memOk)

end Sys2Proof.Machine
end

