-- ==== Sys2Proof/Laws/Region.lean ====
section
/-!
SUPPORT. A region sequencer's ic: what issuing one operation of one slot comes to, and what going on to the next ic changes.
-/

namespace Sys2Proof.Machine.State

variable {s : State} {r : Nat}

/-! ### Acts that are not due yet -/

/-- Acts whose turn has not come stay. -/
theorem flush_idle {due : Pend → Bool} (h : ∀ p ∈ (s.seq r).pend, due p = false) (n : Nat) : s.flush r due n = (s, none) := by
  cases n with
  | zero => rfl
  | succ n =>
    unfold flush
    dsimp only
    cases hp : (s.seq r).pend with
    | nil => rfl
    | cons p l =>
      dsimp only
      simp only [h p (by rw [hp]; exact List.mem_cons_self), Bool.not_false, if_true]

/-- An operation that does nothing in any cluster. -/
theorem eachCluster_none {f : State → Nat → OpR} (h : ∀ u c, f u c = (u, none)) (cs : List Nat) : eachCluster f s cs = (s, none) := by
  induction cs with
  | nil => rfl
  | cons c cs ih =>
    unfold eachCluster
    rw [h]
    exact ih

theorem thenOp_none (x : OpR) : thenOp x (fun u => (u, none)) = x := by
  obtain ⟨u, _ | f⟩ := x <;> rfl

theorem thenOp_some (u : State) (f : State → OpR) : thenOp (u, none) f = f u := rfl

/-! ### A bundle of one operation -/

theorem slots_mu (t : Nat) (op : MuOp) : s.slots r t { Bundle.nop with mu := op } = eachCluster (fun u c => u.muSlot r t op c) s (List.range 8) := by
  unfold slots
  dsimp only [Bundle.nop]
  simp only [eachCluster_none (f := fun u c => u.vuSlot r t .nop c) fun _ _ => rfl, eachCluster_none (f := fun u c => u.svSlot r t .nop c) fun _ _ => rfl,
    eachCluster_none (f := fun u c => u.shSlot r t .nop c) fun _ _ => rfl, eachCluster_none (f := fun u c => u.mvSlot r t .nop c) fun _ _ => rfl,
    show (fun u : State => u.control r t .nop) = fun u => (u, none) from rfl, thenOp_none]

theorem slots_vu (t : Nat) (op : VuOp) : s.slots r t { Bundle.nop with vu := op } = eachCluster (fun u c => u.vuSlot r t op c) s (List.range 8) := by
  unfold slots
  dsimp only [Bundle.nop]
  simp only [eachCluster_none (f := fun u c => u.muSlot r t .nop c) fun _ _ => rfl, eachCluster_none (f := fun u c => u.svSlot r t .nop c) fun _ _ => rfl,
    eachCluster_none (f := fun u c => u.shSlot r t .nop c) fun _ _ => rfl, eachCluster_none (f := fun u c => u.mvSlot r t .nop c) fun _ _ => rfl,
    show (fun u : State => u.control r t .nop) = fun u => (u, none) from rfl, thenOp_none, thenOp_some]

theorem slots_sv (t : Nat) (op : SvOp) : s.slots r t { Bundle.nop with sv := op } = eachCluster (fun u c => u.svSlot r t op c) s (List.range 8) := by
  unfold slots
  dsimp only [Bundle.nop]
  simp only [eachCluster_none (f := fun u c => u.muSlot r t .nop c) fun _ _ => rfl, eachCluster_none (f := fun u c => u.vuSlot r t .nop c) fun _ _ => rfl,
    eachCluster_none (f := fun u c => u.shSlot r t .nop c) fun _ _ => rfl, eachCluster_none (f := fun u c => u.mvSlot r t .nop c) fun _ _ => rfl,
    show (fun u : State => u.control r t .nop) = fun u => (u, none) from rfl, thenOp_none, thenOp_some]

theorem slots_sh (t : Nat) (op : ShOp) : s.slots r t { Bundle.nop with sh := op } = eachCluster (fun u c => u.shSlot r t op c) s (List.range 8) := by
  unfold slots
  dsimp only [Bundle.nop]
  simp only [eachCluster_none (f := fun u c => u.muSlot r t .nop c) fun _ _ => rfl, eachCluster_none (f := fun u c => u.vuSlot r t .nop c) fun _ _ => rfl,
    eachCluster_none (f := fun u c => u.svSlot r t .nop c) fun _ _ => rfl, eachCluster_none (f := fun u c => u.mvSlot r t .nop c) fun _ _ => rfl,
    show (fun u : State => u.control r t .nop) = fun u => (u, none) from rfl, thenOp_none, thenOp_some]

theorem slots_mv (t : Nat) (op : MvOp) : s.slots r t { Bundle.nop with mv := op } = eachCluster (fun u c => u.mvSlot r t op c) s (List.range 8) := by
  unfold slots
  dsimp only [Bundle.nop]
  simp only [eachCluster_none (f := fun u c => u.muSlot r t .nop c) fun _ _ => rfl, eachCluster_none (f := fun u c => u.vuSlot r t .nop c) fun _ _ => rfl,
    eachCluster_none (f := fun u c => u.svSlot r t .nop c) fun _ _ => rfl, eachCluster_none (f := fun u c => u.shSlot r t .nop c) fun _ _ => rfl,
    show (fun u : State => u.control r t .nop) = fun u => (u, none) from rfl, thenOp_none, thenOp_some]

theorem slots_ct (t : Nat) (op : CtOp) : s.slots r t { Bundle.nop with ct := op } = s.control r t op := by
  unfold slots
  dsimp only [Bundle.nop]
  simp only [eachCluster_none (f := fun u c => u.muSlot r t .nop c) fun _ _ => rfl, eachCluster_none (f := fun u c => u.vuSlot r t .nop c) fun _ _ => rfl,
    eachCluster_none (f := fun u c => u.svSlot r t .nop c) fun _ _ => rfl, eachCluster_none (f := fun u c => u.shSlot r t .nop c) fun _ _ => rfl,
    eachCluster_none (f := fun u c => u.mvSlot r t .nop c) fun _ _ => rfl, thenOp_some]

/-- The state in which the operation of a bundle acts: the bundle is the current one, and the next follows it. -/
def issued (s : State) (r : Nat) : State := s.setSeq r { s.seq r with cur := (s.seq r).next, next := (s.seq r).next + 1 }

/-- A region with no work left over issues a legal bundle: when its operations act without a fault, the ic ends; -/
theorem issueOp_done {b : Bundle} {u : State} (hi : s.issuing r = true) (hp : (s.seq r).pend = []) (hb : legal b = .ok b)
    (hu : (s.issued r).slots r (s.seq r).ic b = (u, none)) : s.issueOp r b = u.finish r := by
  unfold issueOp
  rw [if_pos hi, hb]
  unfold issue
  dsimp only
  rw [flush_idle (s := s.setSeq r { s.seq r with cur := (s.seq r).next, next := (s.seq r).next + 1 }) (by rw [seq_setSeq_self]; simp [hp]), thenOp_some]
  unfold issued at hu
  rw [hu]

/-- otherwise the launch faults. -/
theorem issueOp_fault {b : Bundle} {u : State} {f : Flt} (hi : s.issuing r = true) (hp : (s.seq r).pend = []) (hb : legal b = .ok b)
    (hu : (s.issued r).slots r (s.seq r).ic b = (u, some f)) : s.issueOp r b = u.regionFault r (s.seq r).ic f := by
  unfold issueOp
  rw [if_pos hi, hb]
  unfold issue
  dsimp only
  rw [flush_idle (s := s.setSeq r { s.seq r with cur := (s.seq r).next, next := (s.seq r).next + 1 }) (by rw [seq_setSeq_self]; simp [hp]), thenOp_some]
  unfold issued at hu
  rw [hu]

/-! ### The end of an ic -/

/-- No product waits where nothing is due. -/
theorem waitingProducts_later (hp : ∀ p ∈ (s.seq r).pend, (s.seq r).ic < p.due) : s.waitingProducts r (s.seq r).ic = [] := by
  unfold waitingProducts
  dsimp only
  rw [List.filterMap_eq_nil_iff]
  intro p h
  have := hp p h
  split
  · rw [if_neg (by omega)]
  · rfl

/-- The Sieve holds nothing where no look-up runs and no product is due. -/
theorem endIc_later (hp : ∀ p ∈ (s.seq r).pend, (s.seq r).ic < p.due) (hl : (s.seq r).looks = []) :
    s.endIc r = (s.setSeq r (s.seq r)).advance r 0 := by
  have w := waitingProducts_later hp
  have c : s.countSieve r (s.seq r).ic = s.setSeq r (s.seq r) := by
    unfold countSieve
    dsimp only
    rw [w, hl]
    have e : ({ s.seq r with looks := [] } : Seq) = s.seq r := by rw [← hl]
    simp only [List.filter_nil, List.map_nil, List.foldl_nil, List.length_nil, if_true, and_self, List.foldl_fixed, hl, e]
  unfold endIc
  dsimp only
  have d : s.sieveDue r (s.seq r).ic = 0 := by
    unfold sieveDue
    rw [w, hl]
    rfl
  rw [c, d]
  unfold sieveAdvance
  rw [if_pos rfl, flush_idle (s := s.setSeq r (s.seq r)) (by rw [seq_setSeq_self]; intro p h; simpa using hp p h)]

/-- An ic in which nothing is due and nothing holds the island ends. -/
theorem finish_later (hp : ∀ p ∈ (s.seq r).pend, (s.seq r).ic < p.due) (hh : (s.seq r).holds = []) (hl : (s.seq r).looks = []) :
    s.finish r = ((s.setSeq r (s.seq r)).setSeq r (s.seq r)).advance r 0 := by
  unfold finish
  dsimp only
  rw [flush_idle (s := s) (by intro p h; have := hp p h; exact decide_eq_false (by omega))]
  dsimp only
  rw [hh]
  have e : ({ s.seq r with holds := [] } : Seq) = s.seq r := by rw [← hh]
  simp only [List.contains_nil, Bool.false_eq_true, if_false, List.map_nil, List.filter_nil, e, seq_setSeq_self, hh, List.isEmpty_nil, if_true]
  rw [endIc_later (by rw [seq_setSeq_self]; exact hp) (by rw [seq_setSeq_self]; exact hl), seq_setSeq_self]

/-- Bank accesses of no cluster set no stretch. -/
theorem stretchOf_nil (k : Nat) : stretchOf [] k = (0, false) := by
  have h : ∀ l : List Nat, l.foldl (fun (m : Nat × Bool) b =>
      let e := (Tbl.get 0 ([] : Tbl Nat) b - 1) + 2 * Tbl.get 0 ([] : Tbl Nat) b
      if e > m.1 then (e, decide (Tbl.get 0 ([] : Tbl Nat) b > 0)) else m) (0, false) = (0, false) := by
    intro l
    induction l with
    | nil => rfl
    | cons b l ih => exact ih
  exact h _

/-- An ic without bank accesses lasts one period, charged to the launch's tenant; the sequencer goes on by one ic. -/
theorem advance_quiet (hw : ∀ w ∈ (s.seq r).waves, w.ic < (s.seq r).ic) : s.advance r 0 =
    ((((s.inc48 (Reg.CLK_PER_LO_COUNT r) (Reg.CLK_PER_HI_COUNT r) 1).charge 0 (s.regionUser r) 1).setSeq r
      { s.seq r with ic := (s.seq r).ic + 1, waves := [] }).wrs
      [(Reg.SQ_IC_LO_COUNT r, (s.seq r).ic + 1), (Reg.SQ_IC_HI_COUNT r, ((s.seq r).ic + 1) / 2 ^ 32)]) := by
  have n1 : ((s.seq r).waves.filter fun w => w.ic == (s.seq r).ic) = [] := by
    rw [List.filter_eq_nil_iff]
    intro w h
    have := hw w h
    simp; omega
  have n2 : ((s.seq r).waves.filter fun w => w.ic == (s.seq r).ic && !w.own) = [] := by
    rw [List.filter_eq_nil_iff]
    intro w h
    have := hw w h
    simp; omega
  have n3 : ((s.seq r).waves.filter fun w => decide ((s.seq r).ic ≤ w.ic)) = [] := by
    rw [List.filter_eq_nil_iff]
    intro w h
    have := hw w h
    simp; omega
  have g : s.groupHit r (s.seq r).ic = none := by
    unfold groupHit
    dsimp only
    rw [n2]
    simp
  have c : s.countStretch r (s.seq r).ic 0 =
      (s.inc48 (Reg.CLK_PER_LO_COUNT r) (Reg.CLK_PER_HI_COUNT r) 1).charge 0 (s.regionUser r) 1 := by
    unfold countStretch
    dsimp only
    rw [n1]
    have z : ∀ l : List Nat, (l.map fun c => (cix r c, ((0, false) : Nat × Bool))).foldl (fun m e => max m e.2.1) 0 = 0 := by
      intro l
      induction l with
      | nil => rfl
      | cons c l ih => exact ih
    simp only [stretchOf_nil, z, Nat.max_self, Nat.add_zero, if_true]
  unfold advance
  dsimp only
  rw [g]
  dsimp only
  rw [c]
  have q : ((s.inc48 (Reg.CLK_PER_LO_COUNT r) (Reg.CLK_PER_HI_COUNT r) 1).charge 0 (s.regionUser r) 1).seq r = s.seq r := by
    unfold charge inc inc48
    rw [seq_wr, seq_wr, seq_wr]
  rw [q, n3]

/-! ### Results of the VU -/

/-- A new act that comes after those that wait goes to their end. -/
theorem insPend_last {x : Pend} {l : List Pend} (h : ∀ y ∈ l, y.due = x.due ∧ y.rank = x.rank ∧ y.cl ≤ x.cl) : insPend x l = l ++ [x] := by
  induction l with
  | nil => rfl
  | cons y l ih =>
    obtain ⟨h1, h2, h3⟩ := h y List.mem_cons_self
    unfold insPend
    rw [if_pos (.inr ⟨h1, .inr ⟨h2, h3⟩⟩), ih fun z hz => h z (List.mem_cons_of_mem y hz)]
    rfl

/-- The counts of VU events change register fields of the VU alone. -/
theorem vuEvents_only (c : Nat) (evs : List Ev) : OnlyRegs s (s.vuEvents r c evs) ∧
    Untouched [Reg.SQ_VU_SAT_COUNT r c, Reg.SQ_VU_UFLOW_COUNT r c, Reg.SQ_VU_INFCLAMP_COUNT r c, Reg.SQ_VU_NANBLK_COUNT r c] s (s.vuEvents r c evs) := by
  unfold vuEvents
  induction evs generalizing s with
  | nil => exact ⟨OnlyRegs.refl s, Untouched.refl _ s⟩
  | cons e l ih =>
    rw [List.foldl_cons]
    obtain ⟨h1, h2⟩ := ih (s := match e with
      | .sat => s.inc (Reg.SQ_VU_SAT_COUNT r c) 1
      | .uflow => s.inc (Reg.SQ_VU_UFLOW_COUNT r c) 1
      | .infClamp => s.inc (Reg.SQ_VU_INFCLAMP_COUNT r c) 1
      | .nanBlock => s.inc (Reg.SQ_VU_NANBLK_COUNT r c) 1
      | _ => s)
    refine ⟨OnlyRegs.trans ?_ h1, Untouched.trans ?_ h2⟩
    · cases e <;> first | exact OnlyRegs.wr s _ _ | exact OnlyRegs.refl s
    · cases e <;> first | exact Untouched.wr s _ (by simp) | exact Untouched.refl _ s

/-- Every cluster of a list puts a result in register `vd` after `lat` ic, where none is due in the region but theirs. -/
theorem vuResult_all {f : State → Nat → OpR} {t lat vd : Nat} {srcs : List Nat} {g : Nat → List Nat × List Ev}
    (hf : ∀ u c, u.clus = s.clus → f u c = u.vuResult r c t lat vd srcs (g c).1 (g c).2) (cs : List Nat) (u : State)
    (hu : u.clus = s.clus) (hc : cs.Pairwise (· < ·)) (ha : (u.seq r).asks = []) (hp : ∀ p ∈ (u.seq r).pend, p.due = t + lat ∧ p.rank = 0 ∧ ∀ c ∈ cs, p.cl < c) :
    ∃ v, eachCluster f u cs = (v, none) ∧ v = { u with regs := v.regs, seqs := v.seqs } ∧ (∀ k, k ≠ r → v.seq k = u.seq k) ∧
      v.seq r = { u.seq r with pend := (u.seq r).pend ++ cs.map (fun c => ⟨t + lat, 0, c, .vreg vd (g c).1⟩),
                                last := if cs = [] then (u.seq r).last else max (u.seq r).last (t + lat) } ∧
      Untouched (cs.flatMap fun c => [Reg.SQ_VU_SAT_COUNT r c, Reg.SQ_VU_UFLOW_COUNT r c, Reg.SQ_VU_INFCLAMP_COUNT r c,
        Reg.SQ_VU_NANBLK_COUNT r c]) u v := by
  induction cs generalizing u with
  | nil => exact ⟨u, rfl, rfl, fun _ _ => rfl, by simp, Untouched.refl _ u⟩
  | cons c cs ih =>
    have hne : ∀ p ∈ (u.seq r).pend, (p.cl == c) = false := fun p h => by
      have := (hp p h).2.2 c List.mem_cons_self
      simp; omega
    have h0 : ∀ v, u.vregOwed r c v = [] := by
      intro v
      unfold vregOwed
      rw [ha, List.flatMap_nil, List.append_nil, List.filterMap_eq_nil_iff]
      intro p h
      rw [if_pos (by simpa using hne p h)]
    have h1 : srcs.any (u.vregPending r c t) = false := by
      rw [List.any_eq_false]
      intro v _
      unfold vregPending
      rw [h0]
      simp
    have h2 : u.vregDue r c vd (t + lat) = false := by
      unfold vregDue
      rw [h0]
      rfl
    have e := hf u c hu
    unfold vuResult at e
    rw [h1, h2] at e
    simp only [Bool.or_self, Bool.false_eq_true, if_false] at e
    obtain ⟨o1, o2⟩ := vuEvents_only (s := u.pend r (t + lat) 0 c (.vreg vd (g c).1)) (r := r) c (g c).2
    have q1 : ((u.pend r (t + lat) 0 c (.vreg vd (g c).1)).vuEvents r c (g c).2).seqs = (u.pend r (t + lat) 0 c (.vreg vd (g c).1)).seqs := by
      rw [o1]
    have qr : ((u.pend r (t + lat) 0 c (.vreg vd (g c).1)).vuEvents r c (g c).2).seq r =
        { u.seq r with pend := (u.seq r).pend ++ [⟨t + lat, 0, c, .vreg vd (g c).1⟩], last := max (u.seq r).last (t + lat) } := by
      unfold seq
      rw [q1]
      refine (seq_setSeq_self u r _).trans ?_
      rw [insPend_last (x := ⟨t + lat, 0, c, .vreg vd (g c).1⟩) (l := (u.seq r).pend) fun y hy =>
        ⟨(hp y hy).1, (hp y hy).2.1, Nat.le_of_lt ((hp y hy).2.2 c List.mem_cons_self)⟩]
      rfl
    have qk : ∀ k, k ≠ r → ((u.pend r (t + lat) 0 c (.vreg vd (g c).1)).vuEvents r c (g c).2).seq k = u.seq k := fun k hk => by
      unfold seq
      rw [q1]
      exact seq_setSeq_ne u _ hk
    obtain ⟨v, v1, v2, v3, v4, v5⟩ := ih ((u.pend r (t + lat) 0 c (.vreg vd (g c).1)).vuEvents r c (g c).2)
      (by rw [o1]; exact hu) (List.pairwise_cons.mp hc).2 (by rw [qr]; exact ha) (by
        rw [qr]
        intro p h
        rw [List.mem_append, List.mem_singleton] at h
        rcases h with h | rfl
        · exact ⟨(hp p h).1, (hp p h).2.1, fun d hd => (hp p h).2.2 d (List.mem_cons_of_mem c hd)⟩
        · exact ⟨rfl, rfl, fun d hd => (List.pairwise_cons.mp hc).1 d hd⟩)
    refine ⟨v, ?_, ?_, fun k hk => (v3 k hk).trans (qk k hk), ?_, ?_⟩
    · unfold eachCluster
      rw [e]
      exact v1
    · rw [v2, o1]
      rfl
    · rw [v4, qr]
      simp
    · rw [List.flatMap_cons]
      refine Untouched.trans (Untouched.mono (s := u) (t := (u.pend r (t + lat) 0 c (.vreg vd (g c).1)).vuEvents r c (g c).2)
        (fs := [Reg.SQ_VU_SAT_COUNT r c, Reg.SQ_VU_UFLOW_COUNT r c, Reg.SQ_VU_INFCLAMP_COUNT r c, Reg.SQ_VU_NANBLK_COUNT r c])
        (fun x hx => o2 x hx) (fun x hx => List.mem_append_left _ hx)) (v5.mono fun x hx => List.mem_append_right _ hx)

theorem satAdd_lt (w a b : Nat) : satAdd w a b < 2 ^ w :=
  Nat.lt_of_le_of_lt (Nat.min_le_right _ _) (Nat.sub_lt (Nat.two_pow_pos w) Nat.one_pos)

theorem split_mul (k m n : Nat) (h : n < k * m) : n % k + n / k % m * k = n := by
  rw [Nat.mod_eq_of_lt (a := n / k) (Nat.div_lt_of_lt_mul h), Nat.mod_add_div']

/-- A 48-bit count in its two registers. -/
theorem lo_hi (w a b : Nat) : satAdd (w + 16) a b % 2 ^ w + satAdd (w + 16) a b / 2 ^ w % 2 ^ 16 * 2 ^ w = satAdd (w + 16) a b :=
  split_mul (2 ^ w) (2 ^ 16) _ (Nat.lt_of_lt_of_eq (satAdd_lt (w + 16) a b) (Nat.pow_add 2 w 16))

/-- Five fields written around a sequencer. -/
theorem counted {v t : State} {r : Nat} {q : Seq} {A B C D E : Fld} {a b c x y : Nat}
    (ht : t = ((((v.wr A a).wr B b).wr C c).setSeq r q).wrs [(D, x), (E, y)])
    (AB : A.bit ≠ B.bit) (AC : A.bit ≠ C.bit) (AD : A.bit ≠ D.bit) (AE : A.bit ≠ E.bit) (BC : B.bit ≠ C.bit) (BD : B.bit ≠ D.bit)
    (BE : B.bit ≠ E.bit) (DE : D.bit ≠ E.bit) :
    t = { v with regs := t.regs, seqs := t.seqs } ∧ t.seq r = q ∧ (∀ k, k ≠ r → t.seq k = v.seq k) ∧ t.rd D = x % 2 ^ D.w ∧
      t.rd A = a % 2 ^ A.w ∧ t.rd B = b % 2 ^ B.w ∧ Untouched [D, E, A, B, C] v t := by
  refine ⟨by rw [ht]; rfl, ?_, ?_, ?_, ?_, ?_, ?_⟩
  · rw [ht]
    simp only [wrs_cons, wrs_nil, seq_wr, seq_setSeq_self]
  · intro k h
    rw [ht]
    simp only [wrs_cons, wrs_nil, seq_wr]
    rw [seq_setSeq_ne _ _ h]
    simp only [seq_wr]
  · rw [ht]
    simp only [wrs_cons, wrs_nil]
    rw [rd_wr_ne _ _ DE, rd_wr_self]
  · rw [ht]
    simp only [wrs_cons, wrs_nil]
    rw [rd_wr_ne _ _ AE, rd_wr_ne _ _ AD, rd_setSeq, rd_wr_ne _ _ AC, rd_wr_ne _ _ AB, rd_wr_self]
  · rw [ht]
    simp only [wrs_cons, wrs_nil]
    rw [rd_wr_ne _ _ BE, rd_wr_ne _ _ BD, rd_setSeq, rd_wr_ne _ _ BC, rd_wr_self]
  · intro f h
    have hA := h A (by simp)
    have hB := h B (by simp)
    have hC := h C (by simp)
    have hD := h D (by simp)
    have hE := h E (by simp)
    rw [ht]
    simp only [wrs_cons, wrs_nil]
    rw [rd_wr_ne _ _ hE, rd_wr_ne _ _ hD, rd_setSeq, rd_wr_ne _ _ hC, rd_wr_ne _ _ hB, rd_wr_ne _ _ hA]

theorem inc48_eq (v : State) (lo hi : Fld) (n : Nat) : v.inc48 lo hi n =
    (v.wr lo (satAdd 48 (v.rd lo + v.rd hi * 2 ^ 32) n)).wr hi (satAdd 48 (v.rd lo + v.rd hi * 2 ^ 32) n / 2 ^ 32) := rfl

/-- A quiet ic whose operation has acted ends: the sequencer goes on by one ic. -/
theorem finish_passed {u : State} {R : RegionId} (hu : u = { s with regs := u.regs, seqs := u.seqs }) (hk : ∀ k, k ≠ R.val → u.seq k = s.seq k)
    (hp : ∀ p ∈ (u.seq R.val).pend, (u.seq R.val).ic < p.due) (hh : (u.seq R.val).holds = []) (hlk : (u.seq R.val).looks = [])
    (hw : ∀ w ∈ (u.seq R.val).waves, w.ic < (u.seq R.val).ic)
    (hi : (u.seq R.val).ic = (s.seq R.val).ic) (hl : (u.seq R.val).launch = (s.seq R.val).launch) {fs : List Fld} (hf : Untouched fs s u)
    (h1 : ∀ g ∈ fs, (Reg.CLK_PER_LO_COUNT R.val).bit ≠ g.bit) (h2 : ∀ g ∈ fs, (Reg.CLK_PER_HI_COUNT R.val).bit ≠ g.bit) :
    Passed R { u.seq R.val with ic := (s.seq R.val).ic + 1, waves := [] } fs s (u.finish R.val) := by
  have e := finish_later (s := u) (r := R.val) hp hh hlk
  have hr := R.isLt
  generalize hv : (u.setSeq R.val (u.seq R.val)).setSeq R.val (u.seq R.val) = v at e
  have vq : v.seq R.val = u.seq R.val := by rw [← hv, seq_setSeq_self]
  have vk : ∀ k, k ≠ R.val → v.seq k = s.seq k := fun k h => by
    rw [← hv, seq_setSeq_ne _ _ h, seq_setSeq_ne u _ h]; exact hk k h
  have vu : v = { s with regs := v.regs, seqs := v.seqs } := by rw [← hv]; unfold setSeq; rw [hu]
  have vf : Untouched fs s v := fun f h => by rw [← hv, rd_setSeq, rd_setSeq, hf f h]
  have hus : v.regionUser R.val = s.regionUser R.val := by
    unfold regionUser launch
    rw [vq, hl, vu]
  rw [advance_quiet (by rw [vq]; exact hw), vq, hi, hus] at e
  rw [inc48_eq] at e
  unfold charge inc at e
  obtain ⟨c1, c2, c3, c4, c5, c6, c7⟩ := counted e
    (by unfold Reg.CLK_PER_LO_COUNT Reg.CLK_PER_HI_COUNT Reg.iodB; dsimp only; omega)
    (by unfold Reg.CLK_PER_LO_COUNT In.meter In.fld Reg.iodB Reg.intB; dsimp only; omega)
    (by unfold Reg.CLK_PER_LO_COUNT Reg.SQ_IC_LO_COUNT Reg.regionB Reg.iodB; dsimp only; omega)
    (by unfold Reg.CLK_PER_LO_COUNT Reg.SQ_IC_HI_COUNT Reg.regionB Reg.iodB; dsimp only; omega)
    (by unfold Reg.CLK_PER_HI_COUNT In.meter In.fld Reg.iodB Reg.intB; dsimp only; omega)
    (by unfold Reg.CLK_PER_HI_COUNT Reg.SQ_IC_LO_COUNT Reg.regionB Reg.iodB; dsimp only; omega)
    (by unfold Reg.CLK_PER_HI_COUNT Reg.SQ_IC_HI_COUNT Reg.regionB Reg.iodB; dsimp only; omega)
    (by unfold Reg.SQ_IC_LO_COUNT Reg.SQ_IC_HI_COUNT Reg.regionB; dsimp only; omega)
  refine ⟨?_, c2, fun k h => (c3 k h).trans (vk k h), c4, ?_, ?_⟩
  · rw [c1, vu]
  · rw [c5, c6, vf _ h1, vf _ h2]
    exact lo_hi 32 _ 1
  · exact (vf.mono fun g hg => List.mem_append_left _ hg).trans (c7.mono fun g hg => List.mem_append_right _ hg)

end Sys2Proof.Machine.State
end

