-- ==== Sys2Proof/WellFormed.lean ====
section
/-!
DEFINITION. Well-formed commands: operand values that the encodings of the spec admit. A command that is not well-formed still has
its meaning, which is the fault or exception that the spec names for it (SQ_ILLEGAL by R283, cause 1 by R309), or that nothing happens.
-/

namespace Sys2Proof

/-- Whether a command's operands are ones that the spec admits: QEN with quarter 3 (R287), RAKE from MU 0 to 2 (R140), the functions of
VTR (R293), the scopes of Table 10.15, unused fields of control-core instructions at 0 (R308), the kinds of SHIFTI, and the stacks of a
die (R343). -/
def Instr.wf : Instr → Bool
  | .lda _ _ _ _ qen q _ _ _ _ => qen || q.val != 3
  | .ldb _ _ _ _ qen q _ _ _ _ => qen || q.val != 3
  | .rake _ mu _ _ => decide (mu.val ≤ 2)
  | .vtr _ _ _ fn => decide (fn.val < 10)
  | .evinc _ _ _ scope _ => decide (scope.val < 6)
  | .fence _ scope => decide (scope.val < 6)
  | .shifti _ _ _ imm => (imm >>> 6) &&& 3 != 3
  | .syscall _ unused => unused == 0
  | .pret _ unused => unused == 0
  | .wait _ unused _ => unused == 0
  | .brk _ unused => unused == 0
  | .ccFence _ scope d s1 mid top => decide (scope.toNat < 6) && d == 0 && s1 == 0 && mid == 0 && top == 0
  | .csrr _ _ _ s1 mid _ => s1 == 0 && mid == 0
  | .csrw _ _ _ d mid => d == 0 && mid == 0
  | .hcWpProtect _ stack _ _ => decide (stack.val < 3)
  | .hcWpRelease _ stack _ _ => decide (stack.val < 3)
  | _ => true

end Sys2Proof
end

