-- ==== Sys2Proof/Tests/Slice0.lean ====
section
/-!
SUPPORT. Tests: an ill-formed command for each check of WellFormed, bundle words written out from the spec's encoding tables, the spec's
own vectors and worked examples, the effect of a few commands, and a witness that the hypotheses of each obligation can be met together.
-/

namespace Sys2Proof.Tests

set_option Elab.async false

open Sys2Proof.Machine

/-! ### Well-formedness: one term that each check refuses -/

theorem test_wf_lda : (Instr.lda 0 0 0 false false 3 0 0 0 0).wf = false ∧ (Instr.lda 0 0 0 false true 3 0 0 0 0).wf = true := by decide
theorem test_wf_ldb : (Instr.ldb 0 0 0 false false 3 0 0 0 0).wf = false ∧ (Instr.ldb 0 0 0 false false 2 0 0 0 0).wf = true := by decide
theorem test_wf_rake : (Instr.rake 0 3 0 0).wf = false ∧ (Instr.rake 0 2 0 0).wf = true := by decide
theorem test_wf_vtr : (Instr.vtr 0 0 0 10).wf = false ∧ (Instr.vtr 0 0 0 9).wf = true := by decide
theorem test_wf_evinc : (Instr.evinc 0 0 0 6 0).wf = false ∧ (Instr.evinc 0 0 0 5 0).wf = true := by decide
theorem test_wf_fence : (Instr.fence 0 6).wf = false ∧ (Instr.fence 0 5).wf = true := by decide
theorem test_wf_shifti : (Instr.shifti 0 1 1 0xC0).wf = false ∧ (Instr.shifti 0 1 1 0xBF).wf = true := by decide
theorem test_wf_syscall : (Instr.syscall 0 1).wf = false ∧ (Instr.syscall 0 0).wf = true := by decide
theorem test_wf_pret : (Instr.pret 0 1).wf = false ∧ (Instr.pret 0 0).wf = true := by decide
theorem test_wf_wait : (Instr.wait 0 1 0).wf = false ∧ (Instr.wait 0 0 0).wf = true := by decide
theorem test_wf_brk : (Instr.brk 0 1).wf = false ∧ (Instr.brk 0 0).wf = true := by decide
theorem test_wf_ccFence : (Instr.ccFence 0 6 0 0 0 0).wf = false ∧ (Instr.ccFence 0 5 1 0 0 0).wf = false ∧
    (Instr.ccFence 0 5 0 0 0 0).wf = true := by decide
theorem test_wf_csrr : (Instr.csrr 0 1 0 1 0 0).wf = false ∧ (Instr.csrr 0 1 0 0 0 0).wf = true := by decide
theorem test_wf_csrw : (Instr.csrw 0 5 1 1 0).wf = false ∧ (Instr.csrw 0 5 1 0 0).wf = true := by decide
theorem test_wf_hcWpProtect : (Instr.hcWpProtect 0 3 0 0).wf = false ∧ (Instr.hcWpProtect 0 2 0 0).wf = true := by decide
theorem test_wf_hcWpRelease : (Instr.hcWpRelease 0 3 0 0).wf = false ∧ (Instr.hcWpRelease 0 2 0 0).wf = true := by decide

/-! ### Bundle words written out from Tables 10.5 to 10.10, 10.13 and 10.21 -/

/-- The word decodes to the bundle. -/
def reads (n : Nat) (b : Bundle) : Bool := match decodeBundle n with
  | .ok x => decide (x = b)
  | .error _ => false

/-- The slot in which the word is illegal. -/
def rejects (n : Nat) : Option Nat := match decodeBundle n with
  | .ok _ => none
  | .error k => some k

/-- MMA with MU = 1 at [6:5], TILE = 2 at [8:7], SA = 1 at [9], SB = 0 and MODE = 1 at [11] (Table 10.6). -/
theorem test_word_mma : reads (3 + 1 * 2 ^ 5 + 2 * 2 ^ 7 + 1 * 2 ^ 9 + 1 * 2 ^ 11) { Bundle.nop with mu := .mma 1 2 1 0 true } = true := by
  decide +kernel
/-- LDA of half 1 of slot A1, read transposed. -/
theorem test_word_lda : reads (1 + 2 * 2 ^ 5 + 1 * 2 ^ 9 + 1 * 2 ^ 12 + 2 * 2 ^ 14 + 0x9C * 2 ^ 20 + 1 * 2 ^ 36 + 2 * 2 ^ 40 + 15 * 2 ^ 44)
    { Bundle.nop with mu := .load false 2 1 true false 2 0x9C 1 2 15 } = true := by decide +kernel
theorem test_word_drain : reads (7 + 3 * 2 ^ 5 + 1 * 2 ^ 7 + 0x55 * 2 ^ 20 + 1 * 2 ^ 28 + 0x41 * 2 ^ 29 + 4 * 2 ^ 36 + 5 * 2 ^ 40 + 6 * 2 ^ 44)
    { Bundle.nop with mu := .drain 3 1 0x55 true 0x41 4 5 6 } = true := by decide +kernel
theorem test_word_rake : reads (6 + 2 * 2 ^ 5 + 3 * 2 ^ 7 + 1 * 2 ^ 17) { Bundle.nop with mu := .rake 2 3 1 } = true := by decide +kernel
/-- VFMA of BF16 lanes (Table 10.9). -/
theorem test_word_vfma : reads ((8 + 31 * 2 ^ 6 + 1 * 2 ^ 11 + 2 * 2 ^ 16 + 3 * 2 ^ 21 + 1 * 2 ^ 26) * 2 ^ 64)
    { Bundle.nop with vu := .alu 8 31 1 2 3 true } = true := by decide +kernel
theorem test_word_vmovi : reads ((15 + 5 * 2 ^ 6 + 0xDEADBEEF * 2 ^ 16) * 2 ^ 64) { Bundle.nop with vu := .movi 5 0xDEADBEEF } = true := by
  decide +kernel
/-- VSTS with REF in [23:16] and LAST at [27]. -/
theorem test_word_vsts : reads ((4 + 7 * 2 ^ 11 + 0x81 * 2 ^ 16 + 1 * 2 ^ 27 + 0x42 * 2 ^ 28 + 1 * 2 ^ 40 + 2 * 2 ^ 44) * 2 ^ 64)
    { Bundle.nop with vu := .vsts 7 0x81 true 0x42 0 1 2 } = true := by decide +kernel
theorem test_word_svLoad : reads ((1 + 2 * 2 ^ 4 + 1 * 2 ^ 6 + 1 * 2 ^ 7 + 0x12 * 2 ^ 10 + 1 * 2 ^ 18 + 2 * 2 ^ 22 + 3 * 2 ^ 26) * 2 ^ 112)
    { Bundle.nop with sv := .load 2 1 1 0x12 1 2 3 } = true := by decide +kernel
/-- SH.PASS has REC at [10:3] of its slot (R289). -/
theorem test_word_shPass : reads ((1 + 0x80 * 2 ^ 3) * 2 ^ 152) { Bundle.nop with sh := .pass 0x80 } = true := by decide +kernel
/-- DMA.GO has REC at [11:4] and the index registers at [23:12] (R294). -/
theorem test_word_dma : reads ((1 + 0xA5 * 2 ^ 4 + 1 * 2 ^ 12 + 2 * 2 ^ 16 + 3 * 2 ^ 20) * 2 ^ 168) { Bundle.nop with mv := .dma 0xA5 1 2 3 } = true := by
  decide +kernel
/-- A jump to the bundle before: IMM = −1 in [39:13] (R299). -/
theorem test_word_jmp : reads ((2 + (2 ^ 27 - 1) * 2 ^ 13) * 2 ^ 216) { Bundle.nop with ct := .jmp (-1) } = true := by decide +kernel
/-- DECBNZ of IX4 in the C form. -/
theorem test_word_decbnz : reads ((8 + 4 * 2 ^ 5 + (2 ^ 27 - 6) * 2 ^ 13) * 2 ^ 216) { Bundle.nop with ct := .decbnz 4 (-6) } = true := by decide +kernel
/-- EVINC in the E form: CTR [10:5], REGION [15:11], SCOPE [18:16], IMM [39:19]. -/
theorem test_word_evinc : reads ((9 + 63 * 2 ^ 5 + 31 * 2 ^ 11 + 2 * 2 ^ 16 + 1 * 2 ^ 19) * 2 ^ 216) { Bundle.nop with ct := .evinc 63 31 2 1 } = true := by
  decide +kernel
/-- HALT alone; a bit that HALT does not use, a reserved opcode, RAKE from MU 3 and a quarter 3 are illegal in their slots (R283). -/
theorem test_word_illegal : reads (2 ^ 216) { Bundle.nop with ct := .halt } = true ∧ rejects (2 ^ 216 + 2 ^ 229) = some 5 ∧ rejects 9 = some 0 ∧
    rejects (6 + 3 * 2 ^ 5) = some 0 ∧ rejects (1 + 3 * 2 ^ 14) = some 0 ∧ rejects (19 * 2 ^ 64) = some 1 ∧ rejects (2 ^ 167) = some 3 := by
  decide +kernel

/-! ### The spec's vectors and worked examples -/

/-- Table 2.9: the blocks (y1, y0) of vectors A and B, and C which equals A. -/
theorem test_random_block : rngBlock 0 0 = (0xB00C789EEBC49517, 0x187BDDEC3F518A23) ∧ rngBlock 0 1 = (0x92126882C9A8A50A, 0x287CDEEC0F578922) ∧
    rngBlock 5 (5 * 2 ^ 96 + 5) = rngBlock 0 0 := by decide +kernel
/-- The worked example of R51: elements 0 and 1 round up, element 2 and round to nearest do not. -/
theorem test_stochastic : (List.range 3).map (fun i => (convElem 0 1 (rndOf (some (0, 0, 0)) i) (f32 0x3F814000)).1) = [0x3F82, 0x3F82, 0x3F81] ∧
    (convElem 0 1 .rne (f32 0x3F814000)).1 = 0x3F81 := by decide +kernel
/-- The worked example of the banks: byte 0x1A07D0 of the window of cluster CD2:5:3 lies in logical row 104 of bank 47, byte 208. -/
theorem test_bank_place : place 0x0105581A07D0 = .sp 171 0x1A07D0 ∧ bankOf (0x1A07D0 / 256) = 47 ∧ 0x1A07D0 / 256 / 64 = 104 := by decide +kernel
/-- The worked example of HBM: address 0x001016175000 lies in HS1 and in page 18,608. -/
theorem test_hbm_place : place 0x001016175000 = .hbm 1 0x16175000 ∧ State.pageOf 0x001016175000 = 18608 := by decide +kernel

/-! ### Effects -/

/-- The state at reset with register fields set. -/
def put (l : List (Fld × Nat)) : State := State.reset.wrs l
/-- The state after a command. -/
def after (i : Instr) (s : State) : State := match exec i s with
  | .next t => t
  | _ => s
/-- The sequencer of a launch that issues bundles, with a parameter block. -/
def running (p : List Nat) : Seq :=
  { Seq.idle with launch := some 0, kern := [2 ^ 216, 2 ^ 216, 2 ^ 216], param := p, ix := List.replicate 16 0, started := true }
/-- Region 0 issues bundles. -/
def issuing (p : List Nat) : State := State.reset.setSeq 0 (running p)
/-- A state at reset but for register fields, with the word `w` where core 0 fetches. -/
def prog (w : Nat) (l : List (Fld × Nat)) : State := let s := put l; (at' (s.pcOf 0).toNat (toLe 4 w)).foldl (fun s p => s.memSet p.1 p.2) s
/-- The state after core 0, with 7 in G1, −1 in G2 and 70 in G3, has executed the instruction `i` whose word is `w`. -/
def ran (w : Nat) (i : Instr) : State := after i (prog w [(In.gpr 0 1, 7), (In.gpr 0 2, 2 ^ 64 - 1), (In.gpr 0 3, 70)])

/-- ADD wraps modulo 2^64: MAJOR 1, D 4 at [10:6], S1 1 at [15:11], S2 2 at [20:16], FN 0 (Table 10.17). -/
theorem test_add : (ran (1 + 4 * 2 ^ 6 + 1 * 2 ^ 11 + 2 * 2 ^ 16) (.add 0 4 1 2)).gpr 0 4 = 6 ∧
    (ran (1 + 4 * 2 ^ 6 + 1 * 2 ^ 11 + 2 * 2 ^ 16) (.add 0 4 1 2)).pcOf 0 = (put []).pcOf 0 + 4 := by decide +kernel
/-- A write of G0 is discarded (R308). -/
theorem test_g0 : (ran (2 + 1 * 2 ^ 11 + 5 * 2 ^ 16) (.addi 0 0 1 5)).gpr 0 0 = 0 := by decide +kernel
theorem test_mulhu : (ran (1 + 4 * 2 ^ 6 + 2 * 2 ^ 11 + 2 * 2 ^ 16 + 11 * 2 ^ 21) (.mulhu 0 4 2 2)).gpr 0 4 = BitVec.ofNat 64 (2 ^ 64 - 2) := by
  decide +kernel
theorem test_divu_zero : (ran (1 + 4 * 2 ^ 6 + 1 * 2 ^ 11 + 12 * 2 ^ 21) (.divu 0 4 1 0)).gpr 0 4 = BitVec.ofNat 64 (2 ^ 64 - 1) ∧
    (ran (1 + 4 * 2 ^ 6 + 1 * 2 ^ 11 + 13 * 2 ^ 21) (.remu 0 4 1 0)).gpr 0 4 = 7 := by decide +kernel
/-- SLT is signed and SLTU is not. -/
theorem test_slt : (ran (1 + 4 * 2 ^ 6 + 2 * 2 ^ 11 + 1 * 2 ^ 16 + 8 * 2 ^ 21) (.slt 0 4 2 1)).gpr 0 4 = 1 ∧
    (ran (1 + 4 * 2 ^ 6 + 2 * 2 ^ 11 + 1 * 2 ^ 16 + 9 * 2 ^ 21) (.sltu 0 4 2 1)).gpr 0 4 = 0 := by decide +kernel
/-- LUI has MAJOR 8 and a signed 21-bit immediate at [31:11]. -/
theorem test_lui : (ran (8 + 4 * 2 ^ 6 + (2 ^ 21 - 1) * 2 ^ 11) (.lui 0 4 (-1))).gpr 0 4 = BitVec.ofNat 64 (2 ^ 64 - 65536) := by decide +kernel
/-- BREAK (MAJOR 28, FN 6 at [18:16]) saves the PC, sets cause 6 and goes to MOD_CC_TVEC. -/
theorem test_brk : let t := after (.brk 0 0) (prog (28 + 6 * 2 ^ 16) [(Reg.MOD_CC_TVEC 0, 0x80)])
    t.rd (Reg.MOD_CC_CAUSE 0) = 6 ∧ t.pcOf 0 = 0x80 := by decide +kernel
/-- SB (MAJOR 16, S2 at [10:6]) in control-complex SRAM; the neighbour keeps its byte. -/
theorem test_store_byte : let t := after (.sb 0 2 1 1) (prog (16 + 2 * 2 ^ 6 + 1 * 2 ^ 11 + 1 * 2 ^ 16) [(In.gpr 0 1, csramB), (In.gpr 0 2, 0x1FF)])
    t.memGet (csramB + 1) = 0xFF ∧ t.memGet (csramB + 2) = 0 := by decide +kernel
/-- The all-zero word is illegal, and where another instruction's word stands at the program counter ADD does not take place. -/
theorem test_word_decides : (after (.add 0 4 1 2) State.reset).rd (Reg.MOD_CC_CAUSE 0) = 1 ∧
    (ran (1 + 4 * 2 ^ 6 + 1 * 2 ^ 21) (.add 0 4 0 0)).pcOf 0 = (put []).pcOf 0 := by decide +kernel
/-- The loop register counts below 0 modulo 2^32, and the jump is taken. -/
theorem test_decbnz : ((after (.decbnz 0 4 1) (issuing [])).seq 0).ix.getD 4 0 = 2 ^ 32 - 1 ∧ ((after (.decbnz 0 4 1) (issuing [])).seq 0).next = 1 := by
  decide +kernel
/-- A jump in front of bundle 0 is SQ_ILLEGAL in the control slot. -/
theorem test_jump_out : (after (.jmp 0 (-1)) (issuing [])).rd (Reg.SQ_FAULT_CODE 0) = 1 ∧
    (after (.jmp 0 (-1)) (issuing [])).rd (Reg.SQ_FAULT_SLOT 0) = 5 := by decide +kernel
/-- VIADD wraps modulo 2^32, and its result waits for ic 4. -/
theorem test_viadd : (((after (.viadd 0 3 1 1) ((issuing []).setClu 0 { Clu.empty with vregs := [(256, 2 ^ 31)] })).seq 0).pend.map fun p => p.due) =
    List.replicate 8 4 := by decide +kernel
/-- IADD32 at a core's port returns the old value and wraps. -/
theorem test_iadd32 : (after (.iadd32 0) (put [(Reg.HC_ATOM_ADDR_ADDR 0, 0x100), (Reg.HC_ATOM_OPND_V 0, 2 ^ 32 + 5)])).memGet 0x100 = 5 ∧
    (after (.iadd32 0) (put [(Reg.HC_ATOM_ADDR_ADDR 0, 0x102), (Reg.HC_ATOM_OPND_V 0, 5)])).rd (Reg.HC_ATOM_STAT_STATUS 0) = 2 := by decide +kernel
/-- A handle whose offset is no multiple of 256 is refused. -/
theorem test_handle_bounds : (after (.handleWrite 0 0 true false false false 0 0 0x80 0x100) State.reset).rd (Reg.SP_HT_VALID 0 0) = 0 ∧
    (after (.handleWrite 0 0 true false false false 0 0 0x100 0x100) State.reset).rd (Reg.SP_HT_VALID 0 0) = 1 := by decide +kernel
/-- Reset leaves CC0 alone running, and no tenant owns a region. -/
theorem test_reset : State.reset.rd Reg.MOD_CC_RUN_RUN = 1 ∧ State.reset.rd (Reg.TEN_REGION_OWNER 31) = 0xFF := by decide +kernel
/-- An empty queue with no region at work counts an idle period of island 0 (log 3). -/
theorem test_idle_step : (match step State.reset with | .next t => t.rd (Reg.CLK_PER_LO_COUNT 0) | _ => 0) = 1 := by decide +kernel


/-! ### Witnesses: concrete states and operands that meet the hypotheses of the obligations together -/

/-- The section table of a parameter block: offset and count of each section. -/
def table : Nat → List (Nat × List Nat) → List Nat
  | _, [] => []
  | o, x :: l => toLe 4 o ++ toLe 2 x.1 ++ [0, 0] ++ table (o + x.2.length) l
/-- A parameter block of sections given by their counts and bytes, after its header of sixteen entries. -/
def block (l : List (Nat × List Nat)) : List Nat :=
  let m := l ++ List.replicate (16 - l.length) (0, [])
  table 128 m ++ m.flatMap (·.2)
/-- Descriptors: 0 a 64×64 FP32 matrix, 1 a bit matrix of 512 bytes, 2 a tile array, 3 one row of 16 elements, 4 one without elements,
5 a tile array without elements, all through handle 0, and 6 as 3 at address 0 of HBM. -/
def descs : List Nat :=
  toLe 256 (2 * 2 ^ 4 + 1 * 2 ^ 7 + 64 * 2 ^ 256 + (64 + 256 * 2 ^ 64) * 2 ^ 512) ++
  toLe 256 (15 + 2 * 2 ^ 4 + 1 * 2 ^ 7 + 128 * 2 ^ 256 + (1 + 512 * 2 ^ 64) * 2 ^ 512) ++
  toLe 256 (2 * 2 ^ 4 + 1 * 2 ^ 7 + 1 * 2 ^ 13 + 64 * 2 ^ 256 + 64 * 2 ^ 512) ++
  toLe 256 (2 * 2 ^ 4 + 1 * 2 ^ 7 + 16 * 2 ^ 256 + (1 + 64 * 2 ^ 64) * 2 ^ 512) ++
  toLe 256 (2 * 2 ^ 4 + 1 * 2 ^ 7) ++
  toLe 256 (2 * 2 ^ 4 + 1 * 2 ^ 7 + 1 * 2 ^ 13) ++
  toLe 256 (2 * 2 ^ 4 + 16 * 2 ^ 256 + (1 + 64 * 2 ^ 64) * 2 ^ 512)
/-- A block with those descriptors and one record each: drain to 0, Sieve, Shears (REMASK_RAND over one tile), SGW of position 0, a
derivative record, and DMA records of the whole of 3 to itself and of 6 to 3. -/
def params : List Nat :=
  block [(7, descs), (1, List.replicate 64 0), (1, toLe 64 (2 + 2 * 2 ^ 8)), (1, toLe 64 (5 + 1 * 2 ^ 320)), (1, toLe 64 (2 ^ 16)),
    (1, List.replicate 64 0), (2, toLe 64 (3 + 3 * 2 ^ 8 + 2 ^ 18) ++ toLe 64 (6 + 3 * 2 ^ 8 + 2 ^ 18))]
/-- Region 0 issues bundles of a kernel with the block `params`; in every cluster an array of one ZERO tile lies at offset 0. -/
def working : State := (List.range 8).foldl (fun s c => s.pokes ([(0, 1), (2, 1), (8, 3), (64, 2), (68, 1)].map fun p => (spBase + spWin * c + p.1, p.2)))
  (issuing params)

theorem quiet_of {s : State} {r : RegionId} (h : s.issuing r.val = true ∧ (s.seq r.val).pend = [] ∧ (s.seq r.val).asks = [] ∧
    (s.seq r.val).looks = [] ∧ ∀ w ∈ (s.seq r.val).waves, w.ic < (s.seq r.val).ic) : Quiet s r := h
theorem quiet_working : Quiet working 0 := quiet_of (by decide +kernel)
/-- With no cluster in use and no word in error, nothing stands in the way of any access. -/
theorem open_fresh {s : State} {r : RegionId} (us : ClusterId → List Nat) (h : s.clus = [] ∧ s.spErr = [] ∧ s.spPoison = []) : Open s r us := by
  refine ⟨h.2.1, h.2.2, fun k _ => ⟨List.find?_eq_none.mpr fun p _ => ?_, fun m _ p hp => ?_⟩⟩
  · simp [State.tileInUse, State.tile, State.muOf, State.clu, h.1, Clu.empty, Mu.empty, AccTile.zero]
  · simp [State.muOf, State.clu, h.1, Clu.empty, Mu.empty] at hp
theorem fresh_working : working.clus = [] ∧ working.spErr = [] ∧ working.spPoison = [] := by decide +kernel
/-- Core 0 fetches the word that stands at its program counter. -/
theorem fetched_core (w : Nat) (l : List (Fld × Nat)) (h : (prog w l).awake = true ∧ (prog w l).runs 0 = true ∧ ((prog w l).ccFetch 0).2 = (0, w)) :
    Fetched (prog w l) 0 w ((prog w l).ccFetch 0).1 := ⟨h.1, h.2.1, Prod.ext rfl h.2.2⟩
/-- No address of the list lies in HBM. -/
def offHbm (l : List Nat) : Bool := l.all fun a => match place a with
  | .hbm _ _ => false
  | _ => true
theorem not_hbm {l : List Nat} (h : offHbm l = true) : ∀ a ∈ l, ∀ k o, place a ≠ .hbm k o := by
  intro a ha k o e
  have := List.all_eq_true.mp h a ha
  simp [e] at this

/-- O1: an empty queue, no region at work, the module awake; and a command in front. -/
theorem witness_StepRunsTheFrontCommand : State.reset.pending = [] ∧ State.reset.seqs = [] ∧ State.reset.awake = true := by decide
/-- O3 -/
theorem witness_StepKeepsMemoryCanonical : Memory.wf State.reset.mem = true ∧
    ∃ t, step { State.reset with pending := [.modResetCtl] } = .next t := ⟨by decide, _, rfl⟩
/-- O5: a legal bundle of six operations, and a word that decodes. -/
theorem witness_BundleRoundTrip : (MuOp.rake 2 3 1).ok = true ∧ (VuOp.vtr 1 2 9).ok = true ∧ (SvOp.load 1 0 1 255 15 0 0).ok = true ∧
    (CtOp.fence 5).ok = true ∧ reads (2 ^ 216) { Bundle.nop with ct := .halt } = true := by decide +kernel

/-- Core 0 fetches each of the words. -/
def fetchable (l : List (Fld × Nat)) (ws : List Nat) : Bool :=
  ws.all fun w => decide ((prog w l).awake = true ∧ (prog w l).runs 0 = true ∧ ((prog w l).ccFetch 0).2 = (0, w))
theorem fetched_each {l : List (Fld × Nat)} {ws : List Nat} (h : fetchable l ws = true) :
    ∀ w ∈ ws, Fetched (prog w l) 0 w ((prog w l).ccFetch 0).1 :=
  fun w hw => fetched_core w l (of_decide_eq_true (List.all_eq_true.mp h w hw))

/-- O7: each word; a shift amount below and one above the width, a zero divisor, and each kind of SHIFTI. -/
theorem witness_RegisterArithmetic : let l := [(In.gpr 0 1, 63), (In.gpr 0 2, 64)]
    let u := ((prog (aluWord 5 4 3 1) l).ccFetch 0).1
    (∀ w ∈ (List.range 14).map (fun fn => aluWord fn 4 3 1) ++ [2, 3, 4, 5, 6].map (fun m => immWord m 4 1 (-1)) ++
      [0, 64, 128, 192].map (fun i => immWord 7 4 1 i) ++ [longWord 8 4 (-1)], Fetched (prog w l) 0 w ((prog w l).ccFetch 0).1) ∧
    (u.gpr 0 1).toNat < 64 ∧ 64 ≤ (u.gpr 0 2).toNat ∧ u.gpr 0 0 = 0 ∧ (0 : BitVec 16).toNat / 64 % 4 = 0 ∧ (64 : BitVec 16).toNat / 64 % 4 = 1 ∧
    (128 : BitVec 16).toNat / 64 % 4 = 2 ∧ (192 : BitVec 16).toNat / 64 % 4 = 3 := by
  intro l u; exact ⟨fetched_each (by decide +kernel), by decide +kernel⟩
/-- O8: an aligned and a misaligned address, the last word of SRAM, boot ROM, a word in error, an unmapped address, a hole, a LOST stack, a
core that may not read and one with a held write. -/
theorem witness_LoadsOfControlCores : let l := [(In.gpr 0 1, csramB + 0x7FFFF8), (In.gpr 0 2, csramB + 1), (Reg.MOD_CC_ULIM 0, csramB)]
    let u := ((prog (immWord 12 4 1 0) l).ccFetch 0).1
    (∀ w ∈ [9, 10, 11, 12, 13, 14, 15].map (fun m => immWord m 4 1 0), Fetched (prog w l) 0 w ((prog w l).ccFetch 0).1) ∧
    (u.gpr 0 1).toNat % 8 = 0 ∧ u.mayAccess 0 (u.gpr 0 1) 8 = true ∧ u.ownHeld 0 (u.gpr 0 1).toNat 8 = false ∧
    (u.busLoad (u.gpr 0 1).toNat 8).2.1 = 0 ∧ (u.gpr 0 2).toNat % 2 ≠ 0 ∧ place (csramB + 0x7FFFF8) = .csram 0x7FFFF8 ∧ place romB = .rom 0 ∧
    (put ((Reg.MOD_CC_MODE_CUR 0, 0) :: l)).mayAccess 0 (u.gpr 0 1) 8 = false ∧ place 0x0F0000000000 = .unmapped ∧ place (2 ^ 36 - 8) = .hole 0 ∧
    u.csErr = [] ∧ 1 < Tbl.get 0 ({ u with csErr := [(csramB, 2)] } : State).csErr (csramB / 8 * 8) ∧ place (2 ^ 36 + 8) = .hbm 1 8 ∧
    (put [(Reg.HBM_STAT_STATE 1, 5)]).rd (Reg.HBM_STAT_STATE 1) = 5 ∧
    ({ put l with heldw := [⟨0, [(csramB + 8, 0)], true, []⟩] } : State).ownHeld 0 (csramB + 8) 8 = true := by
  intro l u; exact ⟨fetched_each (by decide +kernel), by decide +kernel⟩
/-- O9: SRAM, an unprotected page of HBM and an unmapped address. -/
theorem witness_StoresOfControlCores : let l := [(In.gpr 0 1, csramB), (In.gpr 0 2, 8), (In.gpr 0 3, 0x0F0000000000)]
    let u := ((prog (immWord 19 4 1 0) l).ccFetch 0).1
    (∀ w ∈ [16, 17, 18, 19].map (fun m => immWord m 4 1 0), Fetched (prog w l) 0 w ((prog w l).ccFetch 0).1) ∧ place (u.gpr 0 1).toNat = .csram 0 ∧
    u.mayAccess 0 (u.gpr 0 1) 8 = true ∧ place (u.gpr 0 2).toNat = .hbm 0 8 ∧ u.mayAccess 0 (u.gpr 0 2) 8 = true ∧
    u.stackStatus 0 = 0 ∧ u.protectedPage (State.pageOf 8) = false ∧ u.mayAccess 0 (u.gpr 0 3) 8 = true ∧ place (u.gpr 0 3).toNat = .unmapped := by
  intro l u; exact ⟨fetched_each (by decide +kernel), by decide +kernel⟩
/-- O10: an aligned and a misaligned target of JALR, and equal and unequal registers. -/
theorem witness_BranchesAndJumps : let l := [(In.gpr 0 1, 4), (In.gpr 0 2, 2)]
    let u := ((prog (immWord 27 4 1 0) l).ccFetch 0).1
    (∀ w ∈ [20, 21, 22, 23, 24, 25, 27].map (fun m => immWord m 4 1 0) ++ [longWord 26 4 1], Fetched (prog w l) 0 w ((prog w l).ccFetch 0).1) ∧
    (u.gpr 0 1).toNat % 4 = 0 ∧ (u.gpr 0 2).toNat % 4 ≠ 0 ∧ u.gpr 0 1 ≠ u.gpr 0 2 := by
  intro l u; exact ⟨fetched_each (by decide +kernel), by decide +kernel⟩
/-- O11: a privileged core with an aligned and with a misaligned EPC, and an unprivileged one; words with a bit set where there is none, and
words of no instruction. -/
theorem witness_ControlCoreExceptions : let l := [(Reg.MOD_CC_EPC 0, 0x100)]
    let m := [(Reg.MOD_CC_EPC 0, 0x102)]
    let n := [(Reg.MOD_CC_MODE_CUR 0, 0), (Reg.MOD_CC_ULIM 0, 0x1000), (In.pc 0, 0xFFC)]
    let v := fun (l : List (Fld × Nat)) (f : Fld) => (((prog 65564 l).ccFetch 0).1.rd f)
    (∀ w ∈ [28, 393244, 65564, 28 + 1 * 2 ^ 6, 28 + 1 * 2 ^ 19, 0, 29, 63, aluWord 14 0 0 0, 28 + 7 * 2 ^ 16], Fetched (prog w l) 0 w ((prog w l).ccFetch 0).1) ∧
    v l (Reg.MOD_CC_MODE_CUR 0) ≠ 0 ∧ v l (Reg.MOD_CC_EPC 0) % 4 = 0 ∧
    (∀ w ∈ [65564], Fetched (prog w m) 0 w ((prog w m).ccFetch 0).1) ∧ v m (Reg.MOD_CC_EPC 0) % 4 ≠ 0 ∧
    (∀ w ∈ [65564, 131100, 28 + 1 * 2 ^ 11 + 5 * 2 ^ 16 + 1 * 2 ^ 21, 28 + 1 * 2 ^ 6 + 4 * 2 ^ 16 + 1 * 2 ^ 21],
      Fetched (prog w n) 0 w ((prog w n).ccFetch 0).1) ∧ v n (Reg.MOD_CC_MODE_CUR 0) = 0 := by
  intro l m n v
  exact ⟨fetched_each (by decide +kernel), by decide +kernel, by decide +kernel, fetched_each (by decide +kernel), by decide +kernel,
    fetched_each (by decide +kernel), by decide +kernel⟩
/-- O12: a WAIT that names a power state, one whose condition holds, one with none; a suspended core; each scope of a fence, with and without a
held write of the core. -/
theorem witness_WaitingControlCores : let l := [(Reg.PWR_MODE_REQ, 1)]
    let m := [(Reg.MOD_CC_WAITMASK 0, 2), (In.ccDone 0, 1)]
    let n := [(In.ccWait 0, 1), (Reg.MOD_CC_WAITMASK 0, 2), (In.ccDone 0, 1)]
    let v := fun l : List (Fld × Nat) => ((prog 131100 l).ccFetch 0).1
    (∀ w ∈ [131100], Fetched (prog w l) 0 w ((prog w l).ccFetch 0).1) ∧ (v l).rd (Reg.MOD_CC_MODE_CUR 0) ≠ 0 ∧
    ((v l).seeCycle 0).rd Reg.PWR_MODE_REQ ≠ 0 ∧ (∀ w ∈ [131100], Fetched (prog w m) 0 w ((prog w m).ccFetch 0).1) ∧
    ((v m).seeCycle 0).rd Reg.PWR_MODE_REQ = 0 ∧ ((v m).seeCycle 0).waitHeld 0 ≠ 0 ∧
    (∀ w ∈ 131100 :: (List.range 8).map fun n => 28 + 3 * 2 ^ 16 + n * 2 ^ 21, Fetched (prog w []) 0 w ((prog w []).ccFetch 0).1) ∧
    ((v []).seeCycle 0).rd Reg.PWR_MODE_REQ = 0 ∧ ((v []).seeCycle 0).waitHeld 0 = 0 ∧ (put n).awake = true ∧
    ((put n).seeCycle 0).rd (In.ccWait 0) = 1 ∧ ((put n).seeCycle 0).waitHeld 0 ≠ 0 ∧ ((put n).seeCycle 0).released 0 = true ∧
    ((put n).seeCycle 0).rd (In.ccStop 0) = 0 ∧ ((put m).seeCycle 0).rd (In.ccWait 0) ≠ 1 ∧ (v []).heldw = [] ∧
    let k : State := { prog (28 + 3 * 2 ^ 16 + 3 * 2 ^ 21) [] with heldw := [⟨0, [(0, 0)], true, []⟩] }
    k.awake = true ∧ k.runs 0 = true ∧ (k.ccFetch 0).2 = (0, 28 + 3 * 2 ^ 16 + 3 * 2 ^ 21) ∧ (k.ccFetch 0).1.heldw.map (·.src) = [0] := by
  intro l m n v
  exact ⟨fetched_each (by decide +kernel), by decide +kernel, by decide +kernel, fetched_each (by decide +kernel), by decide +kernel, by decide +kernel,
    fetched_each (by decide +kernel), by decide +kernel⟩
/-- O13: the words that read and write each register of Table 10.18, and the least number that has none. -/
theorem witness_ControlCoreRegisters :
    (∀ w ∈ (List.range 14).map (fun n => 28 + 4 * 2 ^ 6 + 4 * 2 ^ 16 + n * 2 ^ 21) ++ (List.range 14).map (fun n => 28 + 1 * 2 ^ 11 + 5 * 2 ^ 16 + n * 2 ^ 21),
      Fetched (prog w []) 0 w ((prog w []).ccFetch 0).1) ∧ ((prog 28 []).ccFetch 0).1.rd (Reg.MOD_CC_MODE_CUR 0) ≠ 0 :=
  ⟨fetched_each (by decide +kernel), by decide +kernel⟩
/-- O14: an armed and an unarmed watchdog, no tripped die, a warm reset that was asked for, one that falls due with nothing left to send and
one with a packet left, debug locked. -/
theorem witness_CoreControlAndResets : let s := put [(Reg.MOD_RESET_CTL_WARM, 1), (Reg.MOD_WDT_EN 0, 1)]
    let f : State := (put [(Reg.HTP_STAT_LINK, 1)]).setLink 6 { Link.idle with outq := [⟨0, []⟩] }
    s.awake = true ∧ (∀ d < 4, s.rd (In.dieOff d) = 0) ∧ s.rd Reg.SEC_DBG_STAT_STATE = 0 ∧ s.rd Reg.MOD_RESET_CTL_WARM = 1 ∧
    (put [(In.softDue, 1)]).rd In.softDue = 1 ∧ (put [(In.softDue, 1)]).egressIdle = true ∧ f.egressIdle = false ∧ f.rd Reg.MOD_RESET_CTL_WARM = 0 ∧
    s.rd (Reg.MOD_WDT_EN 0) = 1 ∧ s.rd (Reg.MOD_WDT_EN 1) = 0 ∧ (s.rd Reg.MOD_CC_RUN_RUN).testBit 0 = true ∧
    (s.rd Reg.MOD_CC_RUN_RUN).testBit 1 = false ∧ s.rd In.reported = 0 ∧
    s.rd In.exitBoot = 0 ∧ s.rd In.hold % 2 = 0 ∧ (put [(In.hold, 1)]).rd In.hold % 2 = 1 ∧ (put [(In.reported, 1)]).rd In.reported = 1 := by decide +kernel
/-- O15: each stage of the boot, no valid image, a management flow and another, with and without a trial. -/
theorem witness_BootAndFirmware : State.reset.awake = true ∧ State.reset.rd Reg.MOD_BOOT_STAGE = 0 ∧
    (put [(Reg.MOD_BOOT_STAGE, 5)]).rd Reg.MOD_BOOT_STAGE = 5 ∧ (put [(Reg.MOD_BOOT_STAGE, 6)]).rd In.exitBoot = 0 ∧ State.reset.imgValid 0 = false ∧
    State.reset.imgValid 3 = false ∧ (put [(Reg.HTP_FLOW_MGMT 255, 1)]).rd (Reg.HTP_FLOW_MGMT 255) = 1 ∧ State.reset.rd (Reg.HTP_FLOW_MGMT 0) = 0 ∧
    State.reset.rd In.bsTrial = 0 ∧ (put [(In.bsTrial, 1)]).rd In.bsTrial = 1 ∧ State.reset.imgField 2 12 1 < 128 := by decide +kernel
/-- O16: a jump to the last bundle and one past it, a zero and a nonzero index register, the last parameter word; an event of the launch's
tenant, a threshold reached and not reached, writes and reads complete and outstanding. -/
theorem witness_SequencerControlSlot : let s := (issuing params).setLaunch 0 { noLaunch with tenant := 0xFF }
    Quiet s 0 ∧ (s.seq 0).launch = some 0 ∧ (0 : Int) ≤ (s.seq 0).next + (2 : BitVec 27).toInt ∧
    ((s.seq 0).next : Int) + (2 : BitVec 27).toInt < (s.seq 0).kern.length ∧ ¬ ((s.seq 0).next : Int) + (3 : BitVec 27).toInt < (s.seq 0).kern.length ∧
    nth (s.seq 0).ix 1 = 0 ∧ nth ((s.setSeq 0 { s.seq 0 with ix := List.replicate 16 1 }).seq 0).ix 1 ≠ 0 ∧
    4 * ((0 : BitVec 27).toInt) + 4 ≤ (s.seq 0).param.length ∧
    s.rd (Reg.TEN_REGION_OWNER 31) = (s.launch 0).tenant ∧ (0 : BitVec 21).toNat ≤ s.rd (Reg.SQ_EVT_VALUE 0 63) ∧
    s.rd (Reg.SQ_EVT_VALUE 0 63) < (1 : BitVec 21).toNat ∧ s.fenced 0 5 s.wid = false ∧
    ({ s with remotes := [⟨0, 0, 0, 9, 0, none, none, []⟩] } : State).fenced 0 5 1 = true := by
  intro s; exact ⟨quiet_of (by decide +kernel), by decide +kernel⟩
/-- O17: a tile of descriptor 0, whose elements lie in the banks of each cluster. -/
theorem witness_OperandLoads : Quiet working 0 ∧ working.descOk 0 0 0 = true ∧ (descOf (working.seq 0).param 0).layout ≠ 1 ∧
    (descOf (working.seq 0).param 0).fmt = 0 ∧ (∀ us, Open working 0 us) ∧
    (∀ k : ClusterId, k.val / 8 = 0 → Tbl.get 0 (working.muOf k.val 3).slotBusy 2 ≤ (working.seq 0).ic) ∧ (working.view 0 7 0 0).d.isZeroExt = false :=
  ⟨quiet_working, by decide +kernel, by decide +kernel, by decide +kernel, fun us => open_fresh us fresh_working, by decide +kernel, by decide +kernel⟩
/-- O18 -/
theorem witness_DenseProductsAndTiles : Quiet working 0 ∧ (∀ k : ClusterId, k.val / 8 = 0 → (working.muOf k.val 2).array = 0 ∧
    working.tileOpen k.val 2 3 0 true = true ∧ (State.part (working.muOf k.val 2) 1 0).ready = 0 ∧ working.tileInUse k.val 3 3 0 = false ∧
    (working.muOf k.val 3).rake = 0) := ⟨quiet_working, by decide +kernel⟩
/-- Every matrix unit of region 0 has a page, built empty, in both halves. -/
def paged : State := (List.range 8).foldl (fun s c => s.setClu c { Clu.empty with
  mus := (List.range 4).map fun m => (m, { Mu.empty with pages := (List.range 4).map fun u => (u, { Page.empty with built := true }) }) }) working
/-- O19 -/
theorem witness_SparseProducts : Quiet paged 0 ∧ hasRec (paged.seq 0).param 2 0 = true ∧ (sieveOf (paged.seq 0).param 0).cenEn = false ∧
    (sieveOf (paged.seq 0).param 0).zmMode = 0 ∧ (∀ k : ClusterId, k.val / 8 = 0 → (paged.muOf k.val 3).array = 0 ∧
      paged.tileOpen k.val 3 0 0 true = true ∧ (State.part (paged.muOf k.val 3) 1 0).ready = 0 ∧
      (Tbl.get Page.empty (paged.muOf k.val 3).pages 2).built = true) :=
  ⟨quiet_of (by decide +kernel), by decide +kernel⟩
/-- O20 -/
theorem witness_SampledProducts : Quiet paged 0 ∧ hasRec (paged.seq 0).param 4 0 = true ∧ setBits (sgwOf (paged.seq 0).param 0).pos 4 = [0] ∧
    (sgwOf (paged.seq 0).param 0).zmMode = 0 ∧ (∀ k : ClusterId, k.val / 8 = 0 → (paged.muOf k.val 1).array = 0 ∧
      (State.part (paged.muOf k.val 1) 3 0).ready = 0 ∧ paged.tileOpen k.val 1 0 0 false = true ∧ (State.part (paged.muOf k.val 1) 0 0).ready = 0 ∧
      (Tbl.get Page.empty (paged.muOf k.val 1).pages 0).built = true ∧ (Tbl.get Page.empty (paged.muOf k.val 1).pages 0).entries = []) :=
  ⟨quiet_of (by decide +kernel), by decide +kernel⟩
/-- O21: with and without a derivative record, and a tile that an SGW wrote where R248 allows its drain. -/
theorem witness_DrainIssue : Quiet working 0 ∧ hasRec (working.seq 0).param 1 0 = true ∧ hasRec (working.seq 0).param 5 0 = true ∧
    working.descOk 0 (drainOf (working.seq 0).param 0).outDesc 0 = true ∧ working.descOk 0 (derivOf (working.seq 0).param 0).sdesc 0 = true ∧
    (drainOf (working.seq 0).param 0).bias = false ∧ (drainOf (working.seq 0).param 0).zmap = false ∧ (∀ us, Open working 0 us) ∧
    State.entryMode (drainOf (working.seq 0).param 0) (working.view 0 0 5 0).d = true ∧ (working.view 0 0 0 0).d.layout ≠ 1 ∧
    (∀ k : ClusterId, k.val / 8 = 0 → (working.muOf k.val 0).drain = 0 ∧ working.tileInUse k.val 0 3 0 = false ∧
      (working.tile k.val 0 3).sgw = none ∧ (working.view 0 (k.val % 8) 0 0).d.isZeroExt = false ∧
      State.windowTiles 0 (((List.range 64).flatMap fun n =>
        State.windowRow (working.view 0 (k.val % 8) (derivOf (working.seq 0).param 0).sdesc 0) n 0 64).map (64 * ·)) = []) :=
  ⟨quiet_working, by decide +kernel, by decide +kernel, by decide +kernel, by decide +kernel, by decide +kernel, by decide +kernel,
    fun us => open_fresh us fresh_working, by decide +kernel⟩
/-- O22: a Sieve record whose weights are a tile array, an SGW record, and two bit matrices. -/
theorem witness_SieveLoads : Quiet working 0 ∧ hasRec (working.seq 0).param 2 0 = true ∧ working.descOk 0 (sieveOf (working.seq 0).param 0).wdesc 0 = true ∧
    working.descOk 0 (sieveOf (working.seq 0).param 0).adesc 0 = true ∧ working.descOk 0 (sgwOf (working.seq 0).param 0).gdesc 0 = true ∧
    hasRec (working.seq 0).param 4 0 = true ∧ working.descOk 0 1 0 = true ∧ (descOf (working.seq 0).param 1).space = 1 ∧
    (descOf (working.seq 0).param 1).fmt = 15 ∧ (descOf (working.seq 0).param 1).layout = 0 ∧ (∀ us, Open working 0 us) ∧
    (∀ c < 8, (working.view 0 c 1 0).d.ext 0 = 128) ∧
    (∀ k : ClusterId, k.val / 8 = 0 → Tbl.get 0 (working.muOf k.val 3).halfBusy 1 = 0 ∧ (working.muOf k.val 3).insert = 0 ∧ (working.clu k.val).mask = [] ∧
      (Tbl.get ZMap.empty (working.muOf k.val 3).zmaps 0).busy = 0 ∧
      (bodyTile working (working.view 0 (k.val % 8) (sieveOf (working.seq 0).param 0).wdesc 0) 0 0).isSome = true) :=
  ⟨quiet_working, by decide +kernel, by decide +kernel, by decide +kernel, by decide +kernel, by decide +kernel, by decide +kernel, by decide +kernel,
    by decide +kernel, by decide +kernel, fun us => open_fresh us fresh_working, by decide +kernel⟩
/-- O23: the record is a REMASK_RAND of one tile. -/
theorem witness_ShearsPassesAndChoices : Quiet working 0 ∧ (shearsOf (working.seq 0).param 0).op = 5 ∧ hasRec (working.seq 0).param 3 0 = true ∧
    (shearsOf (working.seq 0).param 0).tcount = 1 ∧ (∀ k : ClusterId, k.val / 8 = 0 → (working.clu k.val).shears = 0) := ⟨quiet_working, by decide +kernel⟩
/-- O24: a store of elements into each cluster's own banks, one without elements; a tile of a sparse array named by itself, with no lane
buffered and with one of the same tile; an array without elements. -/
theorem witness_VectorMemory : Quiet working 0 ∧ working.descOk 0 3 0 = true ∧ working.descOk 0 4 0 = true ∧ (descOf (working.seq 0).param 3).layout ≠ 1 ∧
    (descOf (working.seq 0).param 3).fmt = 0 ∧ (descOf (working.seq 0).param 3).smode ≠ 1 ∧ (descOf (working.seq 0).param 3).aliasOk = false ∧
    (working.view 0 0 3 0).d.isZeroExt = false ∧ (working.view 0 0 4 0).d.isZeroExt = true ∧ (∀ us, Open working 0 us) ∧ working.rd Reg.DBG_INJ_ARM = 0 ∧
    (∀ k : ClusterId, k.val / 8 = 0 → State.inWindow (working.view 0 (k.val % 8) 3 0).base = false ∧ (working.clu k.val).groups = [] ∧
      InBanks k.val (State.distinct ((storeRow (working.view 0 (k.val % 8) 3 0) 0 0 0 (List.replicate 16 (some (.zero, .rne)))).1.map fun p => p.1 / 64))) ∧
    working.slotOk 0 2 2 0 = true ∧ (∀ k : ClusterId, k.val / 8 = 0 → (working.slotTile 0 (k.val % 8) 2 2 0 0).2.2 = true) ∧
    (working.slotTile 0 7 2 2 0 0).1.d.isZeroExt = false ∧
    working.slotOk 0 5 5 0 = true ∧ (working.slotTile 0 0 5 5 0 0).1.d.isZeroExt = true ∧ (working.clu 7).vsts = none := by
  have banks : ∀ k : ClusterId, k.val / 8 = 0 → ∀ n ∈ State.distinct ((storeRow (working.view 0 (k.val % 8) 3 0) 0 0 0
      (List.replicate 16 (some (.zero, .rne)))).1.map fun p => p.1 / 64), place (64 * n) = .sp k.val (64 * n - spBase - spWin * k.val) := by decide +kernel
  have rest : ∀ k : ClusterId, k.val / 8 = 0 → State.inWindow (working.view 0 (k.val % 8) 3 0).base = false ∧ (working.clu k.val).groups = [] := by
    decide +kernel
  exact ⟨quiet_working, by decide +kernel, by decide +kernel, by decide +kernel, by decide +kernel, by decide +kernel, by decide +kernel,
    by decide +kernel, by decide +kernel, fun us => open_fresh us fresh_working, by decide +kernel,
    fun k hk => ⟨(rest k hk).1, (rest k hk).2, fun n hn => ⟨_, banks k hk n hn⟩⟩, by decide +kernel⟩
/-- O25 -/
theorem witness_VectorArithmetic : Quiet working 0 ∧ (∀ c < 8, (working.clu (8 * 0 + c)).vtr ≤ (working.seq 0).ic) := ⟨quiet_working, by decide +kernel⟩
/-- O26: a head in progress, an empty queue in front of a source in the banks and one in HBM, four transfers; a domain that is stopped; a
transfer with bytes for HBM, with none, with a fault, and one that still reads. -/
theorem witness_TransfersAndCompletion : let x := Xfer.queued 0 0 0 0 0
    let y := { Xfer.queued 0 1 0 0 0 with phase := 0 }
    let q (l : List Xfer) : State := { working with dmaq := [(0, l)] }
    Quiet working 0 ∧ working.moveOk 0 0 0 = true ∧ working.moveOk 0 1 0 = true ∧ Tbl.get [] working.dmaq 0 = [] ∧
    (working.rd (Reg.CLK_DOM_STAT_RUN)).testBit 0 = true ∧ ((put [(Reg.CLK_DOM_STAT_RUN, 2)]).rd (Reg.CLK_DOM_STAT_RUN)).testBit 0 = false ∧
    (∀ k ∈ (q [x]).xferRegions x, working.rd (In.gateDrain k) = 0) ∧ (q [x]).xferUnits x ≠ [] ∧ (∀ u ∈ (q [x]).xferUnits x, State.destOf (64 * u) < 256) ∧
    (∀ k ∈ (q [y]).xferRegions y, working.rd (In.gateDrain k) = 0) ∧ (q [y]).xferUnits y ≠ [] ∧ (∀ u ∈ (q [y]).xferUnits y, 256 ≤ State.destOf (64 * u)) ∧
    (let z := ((q [y]).checkReadsAs false (State.distinct (((q [y]).xferUnits y).map (· / 4)))).1;
      (∀ u ∈ (q [y]).xferUnits y, working.stackStatus 0 = 0 ∧ Tbl.get 0 z.poison (u / 4) ≠ 1)) ∧
    4 ≤ (Tbl.get [] (q [x, x, x, x]).dmaq 0).length ∧ (dmaOf (working.seq 0).param 0).stashEn = false ∧ (∀ us, Open working 0 us) ∧
    (∀ k : ClusterId, k.val / 8 = 0 → (working.clu k.val).move ≤ (working.seq 0).ic) ∧ ({ x with phase := 1 } : Xfer).phase = 1 ∧
    Tbl.get [] (q [{ x with phase := 2, out := [(0, 7)] }]).dmaq 0 = [{ x with phase := 2, out := [(0, 7)] }] ∧
    (q []).touchesProtected [(0, 7)] = false ∧ (working.setProtected 0 1).touchesProtected [(0, 7)] = true ∧ place 0 = .hbm 0 0 ∧
    working.stackStatus 0 = 0 ∧ working.rd Reg.DBG_INJ_ARM = 0 ∧ working.remotes = [] ∧ working.stashq = [] ∧ working.active 0 = true ∧
    ({ x with phase := 2, fault := some 0x40 } : Xfer).fault = some 0x40 ∧ State.reset.active 0 = false := by
  intro x y q
  exact ⟨quiet_working, by decide +kernel, by decide +kernel, by decide +kernel, by decide +kernel, by decide +kernel, by decide +kernel,
    by decide +kernel, by decide +kernel, by decide +kernel, by decide +kernel, by decide +kernel, by decide +kernel, by decide +kernel,
    by decide +kernel, fun us => open_fresh us fresh_working, by decide +kernel⟩


/-- Region 0 issues one bundle, in which the act `a` of its cluster 0 falls due; the kernel's records are those of `params`. -/
def dueNow (a : Act) : State := working.setSeq 0 { working.seq 0 with pend := [⟨0, 0, 0, a⟩] }
theorem due_now (a : Act) : (dueNow a).issuing 0 = true ∧ ((dueNow a).seq 0).pend = [⟨0, 0, 0, a⟩] ∧
    ((dueNow a).seq 0).ic = (working.seq 0).ic ∧ ((dueNow a).seq 0).param = (working.seq 0).param := by
  have w : working.issuing 0 = true := quiet_working.1
  simp only [State.issuing, State.active] at w
  simpa [dueNow, State.issuing, State.active] using w
/-- O27: no work due; the bytes of each kind of fetch due; a reached and an unreached event, a fence with its writes complete and not, a full and a
freed channel, no unit and a free one, a wait limit; an increment whose writes are complete and one whose are not; a write and a read of a bank,
the second behind another, a closed, a gated and a used bank; a write to HBM; a stash row for HBM, for a protected page and for a LOST stack. -/
theorem witness_HoldsEventsAndRemoteWrites : let l := [(Reg.SQ_WAIT_LIMIT_US 0, 1), (Reg.SQ_EVT_VALUE 0 5, 7)]
    let q (h : Hold) : State := (put l).setSeq 0 { running [] with holds := [h] }
    let x := Xfer.queued 0 0 0 0 0
    let u := (spBase + 9 * spWin) / 64
    let w : Remote := ⟨0, 8, 64, 9, u, none, none, [(64 * u, 1)]⟩
    let v : Remote := ⟨1, 8, 64, 9, u + 4, some 0, none, []⟩
    let z : Remote := ⟨2, 8, 64, 256, 4, none, none, [(0x100, 5)]⟩
    let row : StashRow := ⟨0, 1, 0, [(0x100, 5)], [], 0⟩
    let s : State := { put [(Reg.HBM_STAT_STATE 1, 5)] with
      events := [⟨0, 2, 0, 31, 63, 1⟩], remotes := [w, v, z], stashq := [(0, [row])] }
    let sq := s.rd (Reg.STD_ENT_STATE 0 0)
    (((issuing []).seq 0).holds = [] ∧ ((issuing []).seq 0).looks = [] ∧ ((issuing []).seq 0).pend = [] ∧ (issuing []).clus = []) ∧
    ((∀ a : Act, (dueNow a).issuing 0 = true ∧ ((dueNow a).seq 0).pend = [⟨0, 0, 0, a⟩] ∧ ((dueNow a).seq 0).ic = (working.seq 0).ic ∧
        ((dueNow a).seq 0).param = (working.seq 0).param) ∧ (working.seq 0).ic = 0 ∧ (dmaOf (working.seq 0).param 0).evtEn = false ∧
      (working.pageOfTile (bodyTile working (working.view 0 0 2 0) 0 0) false (window (working.view 0 0 2 0).d 0 0)).2 = []) ∧
    (((q (.event 5 7)).seq 0).holds = [.event 5 7] ∧ ((q (.event 5 7)).seq 0).ended = [] ∧ 7 ≤ (q (.event 5 7)).rd (Reg.SQ_EVT_VALUE 0 5) ∧
      ¬ 8 ≤ (q (.event 5 8)).rd (Reg.SQ_EVT_VALUE 0 5) ∧ (q (.fence 5 1)).fenced 0 5 0 = false ∧
      ({ q (.fence 5 1) with remotes := [⟨0, 0, 0, 9, u, none, none, []⟩] } : State).fenced 0 5 1 = true ∧
      (Tbl.get [] (q (.dma 0 x)).dmaq 0).length < 4 ∧ ¬ (Tbl.get [] ({ q (.dma 0 x) with dmaq := [(0, [x, x, x, x])] } : State).dmaq 0).length < 4 ∧
      (q .stash).stashUsed 0 < 2048 ∧ (q (.event 5 7)).rd (Reg.SQ_WAIT_LIMIT_US 0) ≠ 0 ∧ (put [(Reg.SQ_WAIT_LIMIT_US 0, 0)]).rd (Reg.SQ_WAIT_LIMIT_US 0) = 0 ∧
      (((put l).setSeq 0 { running [] with ended := [.stash] }).seq 0).ended = [.stash]) ∧
    (s.events.find? (fun y => y.src == 0) = some ⟨0, 2, 0, 31, 63, 1⟩ ∧ s.outstanding 0 2 0 = false ∧ (∀ y ∈ s.events, y.src ≠ 1) ∧
      ({ s with events := [⟨8, 5, 3, 31, 63, 1⟩] } : State).outstanding 8 5 3 = true) ∧
    (s.spErr = [] ∧ s.spPoison = [] ∧ s.rd Reg.DBG_INJ_ARM = 0 ∧ s.remotes[0]? = some w ∧ s.remotes[1]? = some v ∧ s.remotes[2]? = some z ∧
      place (64 * u) = .sp 9 0 ∧ place (64 * (u + 4)) = .sp 9 256 ∧ s.clus = [] ∧ s.closed 1 w = false ∧ s.running 1 = false ∧
      (s.rd Reg.PWR_RSTATE_GATED).testBit 1 = false ∧ ((put [(Reg.PWR_RSTATE_GATED, 2)]).rd Reg.PWR_RSTATE_GATED).testBit 1 = true ∧
      (put [(In.gateDrain 1, 1)]).closed 1 w = true ∧ State.queueKey w ≠ State.queueKey v ∧ State.queueKey w ≠ State.queueKey z ∧
      State.queueKey v ≠ State.queueKey z ∧ (∃ y ∈ [w], State.queueKey y = State.queueKey w) ∧ (∀ p ∈ w.ws, p.1 / 64 = w.unit ∧ p.2 < 256) ∧
      (let b : State := (put []).setSeq 1 { running [] with ic := 1, waves := [⟨0, 9, false, [u], [], []⟩] };
        b.running 1 = true ∧ b.bankUsed (State.queueKey w) ((b.seq 1).ic - 1) = true) ∧
      s.stackStatus 0 = 0 ∧ s.stackStatus 1 = 5 ∧ place 0x100 = .hbm 0 0x100 ∧ place (2 ^ 36 + 0x100) = .hbm 1 0x100 ∧
      s.touchesProtected [(0x100, 5)] = false ∧ (s.setProtected 0 1).touchesProtected [(0x100, 5)] = true ∧
      (Tbl.get [] s.stashq 0).find? (fun y => y.region == 8 * 0 + 1) = some row ∧ (Tbl.get [] s.stashq 0).find? (fun y => y.region == 8 * 0 + 0) = none ∧
      (∀ c < 2, Tbl.get [] s.dmaq (16 * 0 + 2 * 1 + c) = []) ∧ sq ≠ 3) := by
  intro l q x u w v z row s sq
  exact ⟨by decide +kernel, ⟨due_now, by decide +kernel⟩, by decide +kernel, by decide +kernel, by decide +kernel⟩
/-- O28: a region ready to start, with and without a LOST stack, one whose writes are on their way, one held; one that is done and one that is
not; a running region, with and without a look-up of the Sieve. -/
theorem witness_RegionStartEndAndFaults : let l : Launch := { noLaunch with regions := 1 }
    let s (stackSet : Nat) : State := ((put [(Reg.HBM_STAT_STATE 11, 5)]).setSeq 0 { Seq.idle with launch := some 0 }).setLaunch 0 { l with stackSet := stackSet }
    let d : State := (State.reset.setSeq 0 { running [] with halted := true, ic := 1 }).setLaunch 0 l
    let r : State := working.setLaunch 0 l
    let k : State := (State.reset.setSeq 0 { running [] with looks := [⟨100, 0, 2, 5, false⟩] }).setLaunch 0 l
    ((s 0).seq 0).launch = some 0 ∧ ((s 0).seq 0).started = false ∧ ((s 0).seq 0).stopped = false ∧ ((s 0).launch 0).held = false ∧
    (s 0).rd (Reg.CLK_ISL_STATE 0) ≠ 2 ∧ (s 0).inFlight 0 = false ∧
    ({ s 0 with remotes := [⟨0, 0, 0, 9, 0, none, none, []⟩] } : State).inFlight 0 = true ∧
    (¬ ∃ k ∈ setBits ((s 0).launch 0).stackSet 12, (s 0).stackStatus k = 5) ∧ 11 ∈ setBits ((s 2048).launch 0).stackSet 12 ∧ (s 2048).stackStatus 11 = 5 ∧
    d.regionDone 0 = true ∧ (d.launch 0).done.testBit 0 = false ∧ (s 0).regionDone 0 = false ∧ r.active 0 = true ∧ (s 0).active 0 = false ∧
    (d.seq 0).halted = true ∧ (d.seq 0).started = true ∧ (d.seq 0).holds = [] ∧ (d.seq 0).pend = [] ∧ (d.seq 0).last < (d.seq 0).ic ∧ d.inFlight 0 = false ∧
    r.lookMu 0 0 = none ∧ k.lookMu 0 0 = some 2 ∧ k.active 0 = true ∧
    (r.launch 0).done ≠ (r.launch 0).regions ∧ (r.launch 0).regions < 2 ^ 32 := by decide +kernel

/-- Tenant 4 owns region 0 and stack 0. A launch record at 0x1000 names a kernel of one HALT at 0x2000 and the parameter block `p` at 0x3000. -/
def submitted (p : List Nat) : State := (put [(Reg.TEN_REGION_OWNER 0, 4), (Reg.TEN_STACK_OWNER 0, 4), (Reg.MOD_LAUNCH_LO_ADDR 0, 0x1000)]).pokes
  (at' 0x1000 (toLe 64 (0x2000 + 2 ^ 64 + 2 * 2 ^ 85 + 4 * 2 ^ 88 + 2 ^ 96 + 0x3000 * 2 ^ 128 + p.length * 2 ^ 192 + 7 * 2 ^ 224)) ++ [(0x2000 + 27, 1)] ++
    (at' 0x3000 p).filter fun x => x.2 ≠ 0)
/-- An empty parameter block, and one with a descriptor of 64 × 128 FP32 elements whose PLAN is 64 × 64. -/
def empty : List Nat := List.replicate 128 0
def wideAt (base : Nat) : List Nat := toLe 4 256 ++ toLe 2 1 ++ List.replicate 250 0 ++
  toLe 256 (2 * 2 ^ 4 + base * 2 ^ 64 + (64 + 64 * 2 ^ 32) * 2 ^ 256 + (128 + 64 * 2 ^ 32 + 256 * 2 ^ 64) * 2 ^ 512)
def wide : List Nat := wideAt 0x4000
/-- The launch record. -/
def lrec (s : State) : LRec := { parseLaunch (ofLe ((List.range 64).map fun i => s.memGet (0x1000 + i))) with tenant := 4 }
/-- The code of a validation that refuses, 0 of one that accepts. -/
def code (x : State × Except Refuse LCtx) : Nat := match x.2 with
  | .ok _ => 0
  | .error e => e.code
/-- The outcomes of a record that is re-tiled: the refusal, its loop, and its two windows. -/
theorem wide_outcomes : let s := submitted wide
    let v := ((s.wr (Reg.MOD_LAUNCH_HI_ADDR 0) 0).wr (Reg.MOD_LAUNCH_STAT_PEND 0) 1).wr (Reg.MOD_LAUNCH_STAT_PEND 0) 0
    let y := v.hbmRead 0x1000 64 true
    let lr := parseLaunch (ofLe y.2.2)
    let z := y.1.validate lr
    code z = 0x16 ∧ z.1.retileLoops lr = some [(128, 64)] ∧ code (z.1.validateWindow lr [(128, 64)] 0) = 0 ∧
      code (z.1.validateWindow lr [(128, 64)] 1) = 0 := by decide +kernel
/-- A descriptor in another tenant's stack is over plan too, and its first window is refused. -/
theorem foreign_outcomes : let s := submitted (wideAt (2 ^ 36))
    let z := s.validate (lrec s)
    code z = 0x16 ∧ z.1.retileLoops (lrec s) = some [(128, 64)] ∧ code (z.1.validateWindow (lrec s) [(128, 64)] 0) ≠ 0 := by decide +kernel
/-- O29: a record that can be read and is accepted; one that is refused; one that is re-tiled; one that cannot be read, one of another tenant's
stack, one that was aborted before; the room for its record; a full queue of records, and one whose
first window is refused. -/
theorem witness_LaunchSubmission : let s := submitted empty
    let v := ((s.wr (Reg.MOD_LAUNCH_HI_ADDR 0) 0).wr (Reg.MOD_LAUNCH_STAT_PEND 0) 1).wr (Reg.MOD_LAUNCH_STAT_PEND 0) 0
    let y := v.hbmRead 0x1000 64 true
    let lr := parseLaunch (ofLe y.2.2)
    s.awake = true ∧ s.rd (Reg.MOD_LAUNCH_STAT_PEND 0) = 0 ∧ (s.wr (Reg.MOD_LAUNCH_STAT_PEND 0) 1).rd (Reg.MOD_LAUNCH_STAT_PEND 0) = 1 ∧
    s.pendRecs.length < 64 ∧ y.2.1 = 0 ∧ s.rd (In.subAbort 0) = 0 ∧ (s.wr (In.subAbort 0) 1).rd (In.subAbort 0) = 1 ∧
    y.1.ownRange lr.tenant 0x1000 64 = true ∧ y.1.ownRange lr.tenant (2 ^ 36) 64 = false ∧ code (y.1.validate lr) = 0 ∧
    code (y.1.validate { lr with klen := 0 }) ≠ 0 ∧ code (y.1.validate { lr with klen := 0 }) ≠ 0x16 ∧ (v.hbmRead (2 ^ 40) 64 true).2.1 ≠ 0 ∧
    ¬ ({ s with pendRecs := List.replicate 64 0 } : State).pendRecs.length < 64 := by decide +kernel
/-- O30: a record that is accepted, one that is refused, one that is re-tiled, an identifier in use, and schedules with and without a period. -/
theorem witness_TenantCommands : let s := submitted empty
    let lr := lrec s
    s.rd Reg.MOD_BOOT_STAGE ≠ 8 ∧ ((put [(Reg.MOD_BOOT_STAGE, 8)]).awake = true ∧ (put [(Reg.MOD_BOOT_STAGE, 8)]).rd Reg.MOD_BOOT_STAGE = 8) ∧
    s.awake = true ∧ s.pendRecs.length < 64 ∧ (¬ ∃ p ∈ s.launches, p.2.id = lr.id) ∧ lr.id = 7 ∧ s.rd (In.jobSched 4) = 0 ∧
    code (s.validate lr) = 0 ∧ code (s.validate { lr with regions := 2 }) ≠ 0 ∧
    (∃ p ∈ (s.setLaunch 0 { noLaunch with id := 7, tenant := 4 }).launches, p.2.id = lr.id ∧ p.2.tenant = 4) ∧
    (let w := submitted wide; code (w.validate (lrec w)) = 0x16 ∧ (w.validate (lrec w)).1.retileLoops (lrec w) = some [(128, 64)]) ∧
    bitsOf (1#128 <<< 64).toNat 79 64 ≠ 0 ∧ bitsOf (1#128 <<< 64).toNat 127 81 = 0 ∧ bitsOf (0#128).toNat 79 64 = 0 := by decide +kernel
/-- O31: launches that are done, at work, aborted, faulted and held, one with a window left and one without, an identifier that names none, a
record that waits and a submission that does. -/
theorem witness_LaunchCommit : let l : Launch := { noLaunch with id := 7, regions := 1 }
    let s (l : Launch) : State := (put []).setLaunch 3 l
    let find (s : State) (i : Nat) := s.launches.find? fun p => p.2.id == i && p.2.tenant == 0
    let w : Launch := { l with done := 1, win := some (lrec (submitted wide), [(128, 64)], 0) }
    let pend := put [(Reg.MOD_LAUNCH_STAT_PEND 5, 1), (Reg.MOD_LAUNCH_LO_ADDR 5, 0x1000)]
    find (s l) 7 = some (3, l) ∧ find (s l) 8 = none ∧ (s l).launch 3 = l ∧ (s l).rd Reg.HTP_ABORT_TENANT = 0 ∧ l.fault = none ∧ l.aborted = false ∧
    l.done ≠ l.regions ∧ find (s { l with done := 1 }) 7 = some (3, { l with done := 1 }) ∧ (s { l with done := 1 }).stashing { l with done := 1 } = false ∧
    State.nextWindow { l with done := 1 } = none ∧ (∀ h ∈ l.handles, h < 1024) ∧ (∀ d ∈ l.streams, d.1 < 4096) ∧ (∀ e ∈ l.stashes, e < 4096) ∧
    find (s w) 7 = some (3, w) ∧ (s w).stashing w = false ∧ w.fault = none ∧ w.aborted = false ∧ 0 + 1 < State.windows [(128, 64)] ∧
    (∀ c < 8, (s l).rd (Reg.MOD_LAUNCH_STAT_PEND c) = 0) ∧ find (s { l with aborted := true }) 7 = some (3, { l with aborted := true }) ∧
    find (s { l with fault := some ⟨1, 0, 0, 0, 0⟩ }) 7 = some (3, { l with fault := some ⟨1, 0, 0, 0, 0⟩ }) ∧
    (pend.rd (Reg.MOD_LAUNCH_STAT_PEND 5) = 1 ∧ (parseLaunch (pend.peekN 0x1000 64)).id = 0 ∧ (parseLaunch (pend.peekN 0x1000 64)).tenant = 0) ∧
    find (s { l with held := true }) 7 = some (3, { l with held := true }) ∧ (∀ h ∈ l.whandles, Tbl.get 0 (s l).protH h = 0) ∧
    Tbl.get 0 ({ s l with protH := [(5, 1)] } : State).protH 5 ≠ 0 ∧
    State.inStack 0 64 = true ∧ (put []).stackStatus 0 = 0 ∧ (put []).touchesProtected (at' 0 (toLe 64 5)) = false ∧ (put []).rd Reg.DBG_INJ_ARM = 0 ∧
    ({ put [(Reg.HTP_CQ_SIZE_ENTRIES, 16)] with pendRecs := [5] } : State).ringFull = false ∧ State.reset.ringFull = true := by decide +kernel
/-- O32: a free and a BUSY handle, stream and region; the greatest extent within the window and the least outside. -/
theorem witness_CountsAndTableWrites : let s := put [(Reg.SP_HT_BUSY 0 1, 1), (Reg.STREAM_BUSY 4095, 1)]
    s.awake = true ∧ s.rd (Reg.SP_HT_BUSY 0 1) = 1 ∧ s.rd (Reg.SP_HT_BUSY 0 0) = 0 ∧ ¬ spSize < (0x100 : BitVec 27).toNat + (BitVec.ofNat 27 (spSize - 0x100)).toNat ∧
    spSize < (0x200 : BitVec 27).toNat + (BitVec.ofNat 27 (spSize - 0x100)).toNat ∧ s.rd (Reg.STREAM_BUSY 4095) ≠ 0 ∧ s.rd (Reg.STREAM_BUSY 0) = 0 ∧
    (s.seq 31).launch = none ∧ (working.seq 0).launch.isSome = true := by decide +kernel
/-- O33: a region that is idle, gated, being zeroised; a free spare 0 and a full table; a row that stands in another entry. -/
theorem witness_ZeroisationAndRowRemap : let s := put [(Reg.PWR_RSTATE_GATED, 2), (Reg.SP_ZERO_STAT_BUSY 2, 1), (Reg.SP_MAPOUT_CTL_GO 0, 1),
      (Reg.SP_REMAP_VALID 0 1 7, 1), (Reg.SP_REMAP_LROW 0 1 7, 9)]
    let full : State := { s with regs := (List.range 256).map fun e => ((Reg.SP_REMAP_VALID 0 0 e).bit, 1) }
    s.awake = true ∧ (s.seq 0).launch = none ∧ s.rd (Reg.SP_ZERO_STAT_BUSY 0) = 0 ∧ s.gated 0 = false ∧ s.gated 1 = true ∧
    s.rd (Reg.SP_ZERO_STAT_BUSY 2) = 1 ∧ s.rd (Reg.SP_MAPOUT_CTL_GO 0) = 1 ∧ s.rd (Reg.SP_MAPOUT_CTL_BANK 0) = 0 ∧ s.rd (Reg.SP_REMAP_VALID 0 0 0) = 0 ∧
    Tbl.wf (0 : BitVec 8) s.mem = true ∧ (∀ e < 256, full.rd (Reg.SP_REMAP_VALID 0 0 e) = 1) ∧ s.rd (Reg.SP_REMAP_VALID 0 1 7) = 1 ∧
    s.rd (Reg.SP_REMAP_LROW 0 1 7) = 9 ∧ ¬ ((s.seq 0).launch.isSome = true ∧ s.rd (Reg.TEN_REGION_OWNER 0) ≠ 255) := by decide +kernel
/-- O34: an image that fits its pool and one that does not, an entry in use, an owner of the stack, a grid that is full. -/
theorem witness_StashDirectory : let s := put [(Reg.STD_POOL_LIM_ADDR 0 0, 0x100000), (Reg.TEN_STACK_OWNER 0, 4), (Reg.STD_ENT_STATE 0 5, 1), (Reg.STD_ENT_STACK 0 5, 1),
      (Reg.STD_ENT_ROWS 0 5, 64), (Reg.STD_ENT_COLS 0 5, 65), (Reg.STD_ENT_TILES 0 5, 2), (Reg.STD_ENT_BUSY 0 6, 1), (Reg.STD_ENT_STATE 0 7, 3), (Reg.STD_ENT_STATE 0 8, 1),
      (Reg.STD_ENT_ROWS 0 8, 1), (Reg.STD_ENT_COLS 0 8, 1)]
    s.awake = true ∧ s.rd (Reg.STD_ENT_STATE 0 1023) = 0 ∧ s.rd (Reg.TEN_STACK_OWNER (3 * 0 + 0)) = (4 : BitVec 8).toNat ∧
    s.poolTop 0 0 + 64 * imgSize (stashFmt 0) 64 64 1 ≤ s.rd (Reg.STD_POOL_LIM_ADDR 0 0) ∧
    s.rd (Reg.STD_POOL_LIM_ADDR 0 0) < 64 * imgSize (stashFmt 0) 65536 64 1 ∧ s.rd (Reg.STD_ENT_STATE 0 5) = 1 ∧
    s.rd (Reg.STD_ENT_BUSY 0 5) = 0 ∧ s.rd (Reg.STD_ENT_BUSY 0 6) = 1 ∧
    s.rd (Reg.STD_ENT_TILES 0 5) = (s.rd (Reg.STD_ENT_ROWS 0 5) + 63) / 64 * ((s.rd (Reg.STD_ENT_COLS 0 5) + 63) / 64) ∧
    s.rd (Reg.STD_ENT_STATE 0 7) = 3 ∧ s.rd (Reg.STD_ENT_STATE 0 8) = 1 ∧
    s.rd (Reg.STD_ENT_TILES 0 8) ≠ (s.rd (Reg.STD_ENT_ROWS 0 8) + 63) / 64 * ((s.rd (Reg.STD_ENT_COLS 0 8) + 63) / 64) ∧
    (∀ e < 1024, s.rd (Reg.STD_ENT_STATE 1 e) = 0) ∧ s.rd (Reg.TEN_STACK_OWNER 11) ≠ 4 := by decide +kernel
/-- O35: aligned and misaligned addresses, the last granule of a stack, a hole, an address past the windows; a LOST, a zeroising and a ready stack;
a protected and an unprotected page, a poisoned granule. -/
theorem witness_AtomicsAndFlush : let s := put [(Reg.HBM_STAT_STATE 1, 5), (Reg.HBM_STAT_STATE 2, 4), (Reg.HC_ATOM_ADDR_ADDR 0, hbmSize - 8)]
    let prot := s.setProtected 0 1
    s.awake = true ∧ s.rd (Reg.HC_ATOM_CTL_GO 0) = 0 ∧ (put [(Reg.HC_ATOM_CTL_GO 0, 1)]).rd (Reg.HC_ATOM_CTL_GO 0) = 1 ∧
    (put [(Reg.HC_ATOM_ADDR_ADDR 0, 2)]).rd (Reg.HC_ATOM_ADDR_ADDR 0) % 4 ≠ 0 ∧ 12 * 2 ^ 36 % 8 = 0 ∧ hbmSize ≤ hbmSize % 2 ^ 36 ∧
    s.rd (Reg.HC_ATOM_ADDR_ADDR 0) % 8 = 0 ∧ State.inStack (s.rd (Reg.HC_ATOM_ADDR_ADDR 0)) 8 = true ∧
    State.inStack hbmSize 8 = false ∧ s.rd (Reg.HBM_STAT_STATE 1) = 5 ∧ s.rd (Reg.HBM_STAT_STATE 2) = 4 ∧ s.stackStatus 0 = 0 ∧
    s.protectedPage (State.pageOf (s.rd (Reg.HC_ATOM_ADDR_ADDR 0))) = false ∧ prot.protectedPage (State.pageOf 8) = true ∧
    Tbl.get 0 (s.cacheTouch (hbmSize / 128 - 1) true false true).poison ((hbmSize - 8) / 256) ≠ 1 ∧
    Tbl.get 0 (({ s with poison := [(0, 1)] } : State).cacheTouch 0 true false true).poison 0 = 1 ∧ Tbl.wf CacheSet.empty s.cache = true := by
  decide +kernel
/-- O36: a protected page that a write touches, one that no write touches; a held write that a release frees and one that stays; a page that waits
for its copy and a free staging slot, without and with a write held for it alone; a stack that serves no access. -/
theorem witness_PageProtectionAndCopies : let s : State := { (put [(Reg.HC_WP_SLOT_BASE_ADDR 0 0, 2 ^ 21), (Reg.HC_WP_SLOT_CNT_FREE 0 0, 1)]).setProtected 18431 1 with
      copyq := [(0, [18431])] }
    let a := hbmSize - 1
    let h : State := { s with heldw := [⟨255, at' a ([7#8].map BitVec.toNat), true, []⟩] }
    s.awake = true ∧ (2 : Fin 4).val < 3 ∧ s.heldw = [] ∧ State.inStack a 1 = true ∧ a / 2 ^ 36 = 0 ∧ s.stackStatus 0 = 0 ∧
    s.touchesProtected (at' a [7]) = true ∧ s.touchesProtected (at' 0 [7]) = false ∧ Tbl.wf (0 : BitVec 8) s.mem = true ∧
    h.heldw = [⟨255, at' a ([7#8].map BitVec.toNat), true, []⟩] ∧ [7#8] ≠ [] ∧ h.protectedPage (State.pageOf a) = true ∧
    (18431 ≤ a % 2 ^ 36 / 2 ^ 21 ∧ a % 2 ^ 36 / 2 ^ 21 < 18431 + 1) ∧ ¬ (a % 2 ^ 36 / 2 ^ 21 < 0 + 18431) ∧
    State.pageOf a = 18431 ∧ Tbl.get [] s.copyq 0 = [18431] ∧ 18431 / 18432 = 0 ∧ s.freeSlot 0 = some (2 ^ 21) ∧ (put []).freeSlot 0 = none ∧
    ({ put [(Reg.HBM_STAT_STATE 0, 5)] with copyq := [(0, [0])] } : State).stackStatus 0 ≠ 0 := by decide +kernel
/-- No page is protected where every word of the protection bits of a stack is 0. -/
theorem unprotected (s : State) (k : Nat) (h : ∀ w < 576, s.rd (Reg.HC_WP_BITS (State.homeDie k) (k % 3) w) = 0) (q : Nat) (hq : q < 18432) :
    s.protectedPage (18432 * k + q) = false := by
  have e : (18432 * k + q) / 18432 = k := by omega
  have r : (18432 * k + q) % 18432 = q := by omega
  have b : (State.pageBit (18432 * k + q)).1 = Reg.HC_WP_BITS (State.homeDie k) (k % 3) (q / 32) := by
    simp only [State.pageBit, e, r, State.homeDie]
  simp only [State.protectedPage, b, h (q / 32) (by omega), Nat.zero_testBit]
/-- O37: stacks that are ready, guarded, in use, being zeroised; rates that pass and that do not; launches that address no stack. -/
theorem witness_StackUpkeep : let s := (put [(Reg.HBM_STAT_STATE 2, 4), (Reg.STD_ENT_STATE 0 1023, 2), (Reg.STD_ENT_STACK 0 1023, 1)]).setProtected 0 1
    State.reset.awake = true ∧ State.reset.rd (Reg.HBM_STAT_STATE 0) ≠ 4 ∧ State.reset.rd (Reg.HBM_STAT_STATE 0) ≠ 5 ∧
    (∀ q < 18432, State.reset.protectedPage (18432 * 0 + q) = false) ∧ s.protectedPage (18432 * 0 + 0) = true ∧
    s.rd (Reg.STD_ENT_STATE (1 / 3) 1023) ≠ 0 ∧ s.rd (Reg.STD_ENT_STACK (1 / 3) 1023) = 1 % 3 ∧ s.rd (Reg.HBM_STAT_STATE 2) = 4 ∧
    s.rd (Reg.HBM_CFG_MAXRATE 0) ≤ 2 ∧ (4 : BitVec 3).toNat.testBit 2 = true ∧ (4 : BitVec 3).toNat.testBit 1 = false ∧ s.launches = [] ∧
    Tbl.get [] s.copyq 0 = [] ∧ s.freeSlot 0 = none ∧
    (let c : State := { put [(Reg.HC_WP_SLOT_BASE_ADDR 0 0, 2 ^ 21), (Reg.HC_WP_SLOT_CNT_FREE 0 0, 1)] with copyq := [(0, [5])] };
      Tbl.get [] c.copyq 0 ≠ [] ∧ (c.freeSlot 0).isSome = true) ∧
    (let l : Launch := { noLaunch with regions := 3, stackSet := 1 };
      let w := (State.reset.setSeq 1 (running [])).setLaunch 0 l;
      w.launches.filter (fun p => p.2.stackSet.testBit 0 && p.2.fault.isNone) = [(0, l)] ∧ w.launch 0 = l ∧ l.aborted = false ∧
      l.regions.testBit 1 = true ∧ w.active 1 = true ∧ (w.seq 1).launch = some 0 ∧ w.active 0 = false) := by
  refine ⟨by decide, by decide +kernel, by decide +kernel, fun q hq => unprotected _ 0 (by decide +kernel) q hq, by decide +kernel⟩
/-- O38: nobody waits, a lock is held, with its bank's queue full and with room; two leaves of a tree and of a controller's queue; each of the four
routes; an armed and an unarmed slot table; ports that are ACTIVE with a NAK owed, a resend, nothing to send, a flit and no credit, and the host
port up and down. -/
theorem witness_ArbitrationAndSlots : let s : State := { put [(Reg.ARB_SLOT_CTL_ARM 5, 1), (Reg.OZL_STAT_STATE 2, 4), (Reg.OZL_STAT_STATE 1, 4), (Reg.HTP_STAT_LINK, 1)] with
      arbs := [(5, { Arb.idle with lock := some (79, 1, 2, (spBase + 5 * spWin) / 64) })],
      links := [(1, { Link.idle with nak := true }), (2, { Link.idle with resend := 1, replay := [⟨0, []⟩] })] }
    let u := (spBase + 5 * spWin) / 64
    let w : Remote := ⟨0, 0, 0, 5, u, none, none, []⟩
    let full : State := { s with remotes := [w, w] }
    let leaves := fun l : List Waiter => l.map fun x => (x.leaf.val, x.prio.val)
    let f : Flit := ⟨1, []⟩
    s.awake = true ∧ ((Tbl.get Arb.idle s.arbs 5).lock.map fun x => (x.1.val, x.2.2)) = some (79, 2, u) ∧ (Tbl.get Arb.idle s.arbs 131).lock = none ∧
    s.withheld 5 u = false ∧ full.withheld 5 u = true ∧ s.arrive 0 131 0 [] [] = [] ∧
    leaves (s.arrive 0 5 0 [] [(0, 9, 64 * u, 1, 0), (0, 10, 64 * u, 1, 0)]) = [(9, 1), (10, 1)] ∧
    leaves (s.arrive 0 133 0 [] [(0, 9, 0x100, 1, 0), (0, 9, 0x100, 1, 0)]) = [(9, 1), (9, 1)] ∧
    ((s.arrive 0 5 0 [] [(0, 9, 64 * u, 1, 0)]).filter fun x => !full.withheld 5 x.unit) = [] ∧
    (put []).arbs = [] ∧ (put []).remotes = [] ∧ (∀ b < 4, place (spBase + spWin * (64 * b + 5)) = .sp (64 * b + 5) 0) ∧
    s.rd (Reg.ARB_SLOT_CTL_ARM 5) = 1 ∧ s.rd (Reg.ARB_SLOT_CTL_ARM 6) = 0 ∧ s.rd (Reg.OZL_STAT_STATE 2) = 4 ∧ s.rd (Reg.OZL_STAT_STATE 0) ≠ 4 ∧
    (s.link 1).nak = true ∧ (s.link 2).nak = false ∧ (s.link 2).resend ≠ 0 ∧ (s.link 0).credits = 0 ∧ s.rd Reg.HTP_STAT_LINK = 1 ∧
    (put []).rd Reg.HTP_STAT_LINK ≠ 1 ∧ f.typ = 1 ∧
    (let x : State := { s with links := [(2, { Link.idle with credits := 256, outq := [f] })] };
      (x.link 2).nak = false ∧ (x.link 2).resend = 0 ∧ (x.link 2).credits ≠ 0 ∧ (x.link 2).outq = [f] ∧ (x.link 2).replay.length < 1024) := by decide +kernel
/-- O39: lanes 0 to 2 within the register, a misaligned address; domain 39 alive. -/
theorem witness_ClocksPinsAndRegisters : State.reset.awake = true ∧ State.reset.standby = true ∧ 3 % 2 ^ (0 : Fin 3).val = 0 ∧
    2 % 2 ^ (1 : Fin 3).val = 0 ∧ (1 : BitVec 48).toNat % 2 ^ (1 : Fin 4).val ≠ 0 := by decide +kernel
/-- O40: ports in each state, good lanes for a width and too few; a wake pattern sent 100 times; a retrain that may narrow. -/
theorem witness_LinkTrainingAndFaults : let s := put [(Reg.OZL_STAT_REFCLK 0, 1), (Reg.OZL_STAT_STATE 1, 2), (Reg.OZL_STAT_STATE 2, 4), (Reg.OZL_STAT_STATE 3, 5),
      (Reg.OZL_STAT_STATE 4, 6), (Reg.OZL_CTL_WAKE_TX 5, 1), (In.wakeSent 5, 100), (Reg.OZL_LANE_MAP_LO 2, 0x76543210), (Reg.OZL_LANE_MAP_HI 2, 0xFEDCBA98)]
    s.awake = true ∧ s.rd (Reg.OZL_STAT_REFCLK 0) = 1 ∧ s.rd (Reg.OZL_STAT_STATE 0) = 0 ∧ s.rd (Reg.OZL_STAT_REFCLK 1) = 0 ∧
    s.rd (Reg.OZL_STAT_STATE 1) = 2 ∧ s.rd (Reg.OZL_STAT_STATE 2) = 4 ∧ s.rd (Reg.OZL_STAT_STATE 3) = 5 ∧ s.rd (Reg.OZL_STAT_STATE 4) = 6 ∧
    widthFor 15 0 = some 1 ∧ widthFor 3 0 = none ∧ s.rd (Reg.OZL_CTL_WAKE_TX 5) = 1 ∧ 100 ≤ s.rd (In.wakeSent 5) ∧ s.laneActive 2 15 = true ∧
    s.rd (In.wakeSent 6) < 100 ∧ (put [(Reg.OZL_LANE_BAD_RX 2, 0xFFFF)]).laneActive 2 15 = false ∧ s.rd (Reg.OZL_CFG_MAXW 2) ≤ s.rd (Reg.OZL_STAT_WIDTH 2) ∧
    s.rd (Reg.OZL_CFG_SYM_LIMIT 2) < min (s.rd (In.symWin 2 0) + (BitVec.ofNat 32 (2 ^ 32 - 1)).toNat) (2 ^ 32 - 1) ∧
    (put [(Reg.OZL_STAT_STATE 5, 1)]).rd (Reg.OZL_STAT_STATE 5) = 1 := by
  decide +kernel
theorem fold_bound {α : Type} (f : Nat → α → Nat) (n : Nat) (h : ∀ c x, c < n → f c x < n) (l : List α) (c : Nat) (hc : c < n) : l.foldl f c < n := by
  induction l generalizing c with
  | nil => exact hc
  | cons x l ih => exact ih _ (h c x hc)
/-- A CRC-64 has 64 bits. -/
theorem crc_bound (l : List Nat) : crc64 l < 2 ^ 64 := by
  refine Nat.xor_lt_two_pow (fold_bound _ _ (fun c b hc => fold_bound _ _ (fun c i hc => ?_) _ _ (Nat.xor_lt_two_pow hc ?_)) _ _ (by decide)) (by decide)
  · split
    · exact Nat.xor_lt_two_pow (Nat.mod_lt _ (by decide)) (by decide)
    · exact Nat.mod_lt _ (by decide)
  · have := Nat.mod_lt b (show 256 > 0 by decide); omega
/-- O41: a flit of zeros with its CRC in an ACTIVE port, one with another; a codeword of 15 symbols in error and one of 16, for the eighth time;
each type of flit; a flit for the module, for another by the same and by another port; a port that is miswired. -/
theorem witness_LinkFlits : let s := put [(Reg.OZL_STAT_STATE 2, 4), (In.badRun 2, 7), (Reg.OZL_STAT_MISWIRE 2, 1), (Reg.OZL_CTL_ACCEPT 2, 0), (Reg.OZL_COORD_SX, 3), (Reg.OZL_COORD_SY, 3)]
    let z : Flit := Flit.full ⟨0, []⟩
    let e : List (Fin 544) := (List.range 16).map (Fin.ofNat 544 ·)
    s.awake = true ∧ s.rd (Reg.OZL_STAT_STATE 2) = 4 ∧ s.rd (Reg.OZL_STAT_STATE 0) ≠ 4 ∧ s.rd Reg.DBG_INJ_ARM = 0 ∧
    (∃ crc : BitVec 64, crc64 (toLe 16 z.hdr ++ z.pay) = crc.toNat) ∧ z.pay.length = 512 ∧
    15 < e.eraseDups.length ∧ ¬ 15 < (e.drop 1).eraseDups.length ∧ 8 ≤ min (s.rd (In.badRun 2) + 1) 15 ∧
    (⟨0, []⟩ : Flit).typ = 0 ∧ (⟨1, []⟩ : Flit).typ = 1 ∧ (⟨2, []⟩ : Flit).typ = 2 ∧ (⟨3, []⟩ : Flit).typ = 3 ∧ (s.link 2).rxSeq = 0 ∧
    s.rd (Reg.OZL_STAT_MISWIRE 2) = 1 ∧ s.rd (Reg.OZL_CTL_ACCEPT 2) = 0 ∧ s.routePort 0 0 0 = none ∧
    s.routePort 1 0 0 = some 0 ∧ s.routePort 0 1 0 = some 2 := by
  intro s z e
  exact ⟨by decide +kernel, by decide +kernel, by decide +kernel, by decide +kernel,
    ⟨BitVec.ofNat 64 _, by rw [BitVec.toNat_ofNat, Nat.mod_eq_of_lt (crc_bound _)]⟩, by decide +kernel⟩


/-- A record of SEND (OP 8) from descriptor 0 with the block `params` of group 5, operation 9, whose status word lies at 0x4000. -/
def sendRec : Nat := 8 + 5 * 2 ^ 16 + 9 * 2 ^ 32 + 1 * 2 ^ 96 + 0x4000 * 2 ^ 256
/-- That operation started in slot 31, with a READY of its peer, decided or not. -/
def inFlight (held : Bool) (res : Option (Nat × Nat × Nat × Nat)) : State :=
  { put [(Reg.COL_GROUP_SIZE_M1 5, 1)] with cols := [(31, some ⟨sendRec, params, [], none, [], [], [], [], [], held, [⟨5, 9, 1, 9, 0, 0, 0, 0⟩], [], res⟩)] }
/-- O42: an engine with room and one without, a record that cannot be read and one that is refused. -/
theorem witness_CollectiveSubmission : let y := State.reset.hbmRead 0 128 true
    let n := putBits (ofLe y.2.2) 24 8 (State.reset.flowTenant 3)
    State.reset.rd Reg.MOD_BOOT_STAGE ≠ 8 ∧ (put [(Reg.MOD_BOOT_STAGE, 8)]).awake = true ∧ (put [(Reg.MOD_BOOT_STAGE, 8)]).rd Reg.MOD_BOOT_STAGE = 8 ∧
    State.reset.awake = true ∧ State.reset.colSlots.length = 0 ∧ y.2.1 = 0 ∧ (State.reset.hbmRead (2 ^ 47) 128 true).2.1 ≠ 0 ∧
    (match (y.1.colCheck (parseCol n)).2 with | .ok _ => false | .error _ => true) = true ∧
    (∀ k < 32, (({ State.reset with cols := (List.range 32).map fun k => (k, some ⟨sendRec, [], [], none, [], [], [], [], [], false, [], [], none⟩) } : State).colAt k).isSome = true) := by
  decide +kernel
/-- O43: an operation that is able to end, one that is held, one that is decided, and a name of none. -/
theorem witness_CollectiveOperations : let s := inFlight false none
    s.awake = true ∧ s.colFind 5 9 = some 31 ∧ s.colFind 5 8 = none ∧ (parseCol sendRec).op = 8 ∧
    (∀ r ∈ (s.colAt 31).map (fun o => s.colTargets (s.opCtx o) (parseCol o.rcd)) |>.getD [], r = 1) ∧
    ((inFlight true none).colAt 31).map (·.held) = some true ∧ ((inFlight false (some (0, 0, 0, 0))).colAt 31).bind (·.res) = some (0, 0, 0, 0) := by
  decide +kernel
/-- O44: operations undecided, held and decided with code 0; no READY kept and 1,024 kept; the manager lost. -/
theorem witness_CollectiveEnds : let d := inFlight false (some (0, 0, 0, 0))
    (inFlight false none).colFind 5 9 = some 31 ∧ (inFlight true none).colFind 5 9 = some 31 ∧ State.reset.colFind 5 9 = none ∧
    State.reset.readys.length < 1024 ∧ 1024 ≤ ({ State.reset with readys := List.replicate 1024 ⟨0, 0, 0, 0, 0, 0, 0, 0⟩ } : State).readys.length ∧
    (put [(Reg.COL_MGR_STAT_LOST, 1)]).rd Reg.COL_MGR_STAT_LOST = 1 ∧ State.reset.rd Reg.COL_ROUTE_CTL_SWAP = 0 ∧ d.heldw = [] ∧ d.colQueue = [] ∧
    State.inStack (parseCol sendRec).status 32 = true ∧ (parseCol sendRec).status / 2 ^ 36 = (0 : StackId).val ∧ d.stackStatus 0 = 0 ∧
    d.touchesProtected (at' (parseCol sendRec).status (State.colWord (0, 0, 0, 0))) = false ∧ d.rd Reg.DBG_INJ_ARM = 0 := by decide +kernel
/-- O45: a BUSY group, a rank at and above its size, a module that is the manager, an older, an equal and a newer epoch. -/
theorem witness_GroupsRoutesAndManagers : let s := put [(Reg.COL_GROUP_BUSY 255, 1), (Reg.COL_ROLE_ROLE, 1), (Reg.COL_MGR_EPOCH_EPOCH, 2), (Reg.COL_ROUTE_CTL_SWAP, 1)]
    s.awake = true ∧ s.rd (Reg.COL_GROUP_BUSY 255) = 1 ∧ s.rd (Reg.COL_GROUP_BUSY 0) ≠ 1 ∧ ¬ (7 : BitVec 12).toNat < (7 : BitVec 12).toNat ∧
    (7 : BitVec 12).toNat < (8 : BitVec 12).toNat ∧ s.rd Reg.COL_ROLE_ROLE = 1 ∧ (1 : BitVec 32).toNat < s.rd Reg.COL_MGR_EPOCH_EPOCH ∧
    s.rd Reg.COL_MGR_EPOCH_EPOCH ≤ (2 : BitVec 32).toNat ∧ s.rd Reg.COL_ROUTE_CTL_SWAP = 1 ∧ State.reset.rd Reg.COL_ROLE_ROLE ≠ 1 ∧
    (∀ k < 32, s.colAt k = none) := by decide +kernel
/-- A flow with a message at its head. -/
def holding (bytes : List Nat) : State :=
  (put [(Reg.HTP_FLOW_VALID 3, 1), (Reg.HTP_FLOW_MGMT 3, 1), (Reg.HTP_FLOW_WINDOW 3, 1024), (Reg.HTP_RING_SIZE_ENTRIES 0, 2), (Reg.HTP_RING_TAIL_INDEX 0, 0)]).setFlow 3
    { Flow.idle with msgs := [⟨0, 0, bytes⟩] }
/-- The bytes of a message: MTYPE, TAG, LEN, ADDR and OP, and its body. -/
def message (t len addr op : Nat) (body : List Nat) : List Nat :=
  [t, 0, 0, 0] ++ toLe 4 0x77 ++ toLe 4 len ++ toLe 6 addr ++ [0, 0, op] ++ List.replicate 11 0 ++ body
/-- O46: a link that is up and one that is down, an enabled port, a frame for the module and one that is too long, an address of the module; a
flow that is valid, a SEQ in order, before and past the window, a packet that waits for its acknowledgement. -/
theorem witness_HostFramesAndPackets : let s := put [(Reg.HTP_STAT_LINK, 1), (Reg.HTP_CTL_EN, 1), (Reg.HTP_STAT_REFCLK, 1), (Reg.HTP_MAC_LO, 5)]
    let f := holding []
    let u := f.flowAck 3 0 0 0 0
    s.awake = true ∧ s.rd Reg.HTP_STAT_LINK = 1 ∧ State.reset.rd Reg.HTP_STAT_LINK = 0 ∧ s.rd Reg.HTP_CTL_EN = 1 ∧ s.rd Reg.HTP_STAT_REFCLK = 1 ∧
    beAt ([0, 0, 0, 0, 0, 5] ++ List.replicate 6 0 ++ [0x86, 0xDD]) 0 6 = s.macAddr ∧ (0 : BitVec 128).toNat = s.addrData ∧
    State.reset.rd (Reg.HTP_FLOW_VALID 0) = 0 ∧ f.rd (Reg.HTP_FLOW_VALID 3) = 1 ∧ (f.flow 3).rx = 0 ∧ (f.flow 3).held = [] ∧ (f.flow 3).asm = none ∧
    (f.flow 3).withheld = false ∧ seqFrom (f.flow 3).rx (2 ^ 32 - 1) = false ∧ seqFrom (f.flow 3).rx 5000 = true ∧ u.flowWindow 3 ≤ seqDist (f.flow 3).rx 5000 ∧
    u.flowWindow 3 ≠ 0 ∧ (f.flow 3).unacked = [] ∧
    ((f.setFlow 3 { Flow.idle with unacked := [⟨0, true, true, [], 0⟩] }).flow 3).unacked ≠ [] ∧ 0 + 1 < max 1 (f.rd Reg.HTP_CFG_RETRY_MAX) := by decide +kernel
/-- O47: each message type at the head of a management flow: LEN 0, within bounds, above 2^24; an operand that is aligned and one that is not. -/
theorem witness_HostMemoryMessages : let s (t len addr op : Nat) (b : List Nat) := holding (message t len addr op b)
    let m (t len addr op : Nat) (b : List Nat) : Msg := ⟨0, 0, message t len addr op b⟩
    (s 2 4 0x100 0 [1, 2, 3, 4]).headMsg 3 2 = some (m 2 4 0x100 0 [1, 2, 3, 4]) ∧ (s 2 4 0x100 0 []).headMsg 3 3 = none ∧
    State.msgLen (m 2 (2 ^ 24 + 1) 0 0 []) = 2 ^ 24 + 1 ∧ State.msgLen (m 2 4 0x100 0 [1, 2, 3, 4]) = (State.msgBody (m 2 4 0x100 0 [1, 2, 3, 4])).length ∧
    State.inStack (State.msgAddr (m 2 4 (hbmSize - 4) 0 [])) 4 = true ∧ State.msgAddr (m 2 4 (12 * 2 ^ 36 - 1) 0 []) < 12 * 2 ^ 36 ∧
    (s 3 4 0x100 0 []).rd (Reg.HTP_FLOW_MGMT 3) = 1 ∧ (s 3 4 0x100 0 []).hostRange 3 0x100 4 true = 0 ∧ ((s 3 4 0x100 0 []).hbmRead 0x100 4 true).2.1 = 0 ∧
    (s 3 4 0x100 0 []).touchesProtected (at' 0x100 [1, 2, 3, 4]) = false ∧ (s 3 4 0x100 0 []).stackStatus 0 = 0 ∧
    (s 4 8 0x100 3 (List.replicate 16 0)).headMsg 3 4 = some (m 4 8 0x100 3 (List.replicate 16 0)) ∧ State.msgOp (m 4 8 0x100 3 []) = 3 ∧ atomBytes 3 = 4 ∧
    atomBytes 0 = 0 ∧ ((s 4 8 0x100 3 []).atomic 3 0x100 0 0).2.1 = 0 ∧ (s 4 8 0x100 3 []).protectedPage (State.pageOf 0x100) = false ∧
    (s 5 4 0x100 3 (List.replicate 4 0)).headMsg 3 5 = some (m 5 4 0x100 3 (List.replicate 4 0)) := by decide +kernel
/-- O48: a CMD with room in its ring and without, one withheld, one too long, a reserved type; a message of firmware with and without a body. -/
theorem witness_HostCommandRings : let s := holding (message 1 4 0 0 [1, 2, 3, 4])
    let full := s.wr (Reg.HTP_RING_TAIL_INDEX 0) 1
    s.awake = true ∧ s.headMsg 3 1 = some ⟨0, 0, message 1 4 0 0 [1, 2, 3, 4]⟩ ∧ State.reset.headMsg 3 1 = none ∧
    ¬ (s.rd (Reg.HTP_RING_SIZE_ENTRIES 0) < 2 ∨ (s.rd (Reg.HTP_RING_HEAD_INDEX 0) + 1) % s.rd (Reg.HTP_RING_SIZE_ENTRIES 0) = s.rd (Reg.HTP_RING_TAIL_INDEX 0)) ∧
    (full.rd (Reg.HTP_RING_HEAD_INDEX 0) + 1) % full.rd (Reg.HTP_RING_SIZE_ENTRIES 0) = full.rd (Reg.HTP_RING_TAIL_INDEX 0) ∧ (s.flow 3).withheld = false ∧
    4064 < (State.msgBody ⟨0, 0, message 1 4065 0 0 (List.replicate 4065 0)⟩).length ∧ State.msgType ⟨0, 0, message 6 0 0 0 []⟩ = 6 ∧
    (State.reset.hbmRead (State.reset.rd Reg.HTP_TXQ_ADDR_ADDR) 32 true).2.1 = 0 ∧ blk (State.reset.hbmRead 0 32 true).2.2 8 4 = 0 ∧
    ((put [(Reg.HTP_TXQ_ADDR_ADDR, 2 ^ 40)]).hbmRead (2 ^ 40) 32 true).2.1 ≠ 0 := by decide +kernel
/-- A management flow 3 in a module that has booted. -/
def managed (l : List (Fld × Nat)) : State := put ((Reg.HTP_FLOW_MGMT 3, 1) :: l)
/-- A register whose reset value a part fixes, listed as `v`. -/
def pin (f : Fld) (v : Nat) (s : State) : State := { s with regs := Tbl.put s.regs f.bit v }
/-- O49: a management flow and another; an open and the locked register; the queue of the signing engine with each kind of request. -/
theorem witness_AttestationAndMeasurement : let s : State := { managed [(In.idReady, 1), (Reg.TEN_MREC_SIZE_ENTRIES, 2)] with signq := [.meter []] }
    s.awake = true ∧ (s.rd (Reg.HTP_FLOW_MGMT 3) = 1 ∧ s.rd Reg.MOD_BOOT_STAGE ≠ 8) ∧ s.rd (Reg.HTP_FLOW_MGMT 4) ≠ 1 ∧
    (s.rd Reg.SEC_MEAS_LOCK_LOCK).testBit 3 = true ∧ (s.rd Reg.SEC_MEAS_LOCK_LOCK).testBit 0 = false ∧ s.rd In.idReady = 1 ∧ s.signq = .meter [] :: [] ∧
    s.meterFull = false ∧ s.meterq = [] ∧ State.reset.signq = [] := by decide +kernel
/-- O50: a password that is set and one that is not, a stale and a fresh challenge, a lockout that runs, a key slot that is set. -/
theorem witness_DebugUnlocking : let s := pin Reg.SEC_DBG_KEYSET_PWD 1 (pin Reg.SEC_DBG_KEYSET_KEYS 2 (managed [(In.chalOk, 1)]))
    s.awake = true ∧ (s.rd (Reg.HTP_FLOW_MGMT 3) = 1 ∧ s.rd Reg.MOD_BOOT_STAGE ≠ 8) ∧ s.rd Reg.SEC_DBG_KEYSET_PWD = 1 ∧ (pin Reg.SEC_DBG_KEYSET_PWD 0 State.reset).rd Reg.SEC_DBG_KEYSET_PWD = 0 ∧
    State.reset.rd In.chalOk = 0 ∧ s.rd In.ms39 - s.rd In.chalMs ≤ 60000 ∧ s.rd In.chalOk = 1 ∧ ¬ s.rd In.ms39 < s.rd In.lockEnd ∧
    (put [(In.lockEnd, 1)]).rd In.ms39 < (put [(In.lockEnd, 1)]).rd In.lockEnd ∧ (s.rd Reg.SEC_DBG_KEYSET_KEYS).testBit ((0 : Fin 3).val + 1) = true ∧
    (s.rd Reg.SEC_DBG_KEYSET_KEYS).testBit ((2 : Fin 3).val + 1) = false ∧ 3 ≤ (put [(Reg.SEC_DBG_FAIL_COUNT, 2)]).rd Reg.SEC_DBG_FAIL_COUNT + 1 := by decide +kernel
/-- O51: an owner that is the same, new, and 0xFE; a region and a stack that are in use, and ones that wait for their new owner. -/
theorem witness_TenancyAndAssignment : let s := managed [(Reg.TEN_REGION_PEND 1, 1), (Reg.SP_ZERO_STAT_BUSY 1, 1), (Reg.TEN_STACK_PEND 11, 1), (Reg.HBM_STAT_STATE 11, 4),
      (In.asgWait 1, 1), (Reg.STD_ENT_STATE 1 0, 1)]
    s.awake = true ∧ (s.rd (Reg.HTP_FLOW_MGMT 3) = 1 ∧ s.rd Reg.MOD_BOOT_STAGE ≠ 8) ∧ s.rd (Reg.TEN_REGION_OWNER 0) = (0xFF : BitVec 8).toNat ∧
    s.rd (Reg.TEN_REGION_OWNER 0) ≠ (4 : BitVec 8).toNat ∧ s.regionBusy 0 4 = 0 ∧ s.regionBusy 1 4 = 1 ∧ s.regionBusy 0 0xFE = 2 ∧ s.stackBusy 0 = 0 ∧
    s.stackBusy 11 = 1 ∧ s.stackBusy 3 = 4 ∧ s.rd (Reg.TEN_REGION_PEND 1) = 1 ∧ s.rd (In.asgWait 1) = 1 ∧ s.rd (In.asgWait 0) = 0 ∧
    s.rd (Reg.TEN_STACK_PEND 11) = 1 ∧ s.rd (Reg.HBM_STAT_STATE 11) = 4 := by decide +kernel
/-- O52: a full ring and one with room, a module asleep, a record that waits, none that does. -/
theorem witness_MeteringRecords : let s : State := { put [(Reg.TEN_MREC_SIZE_ENTRIES, 2)] with meterq := [[1]] }
    State.reset.meterFull = true ∧ s.meterFull = false ∧ s.awake = true ∧ (put [(Reg.PWR_STAT_STATE, 2), (Reg.CLK_DOM_STAT_RUN, 0x80)]).awake = false ∧
    s.rd In.meterDue = 0 ∧ s.meterq = [[1]] ∧ State.reset.meterq = [] ∧ (s.wr Reg.TEN_MREC_TAIL_INDEX 1).meterFull = true := by decide +kernel
/-- O53: a slot that is idle and one that is not, arguments that fit and that do not, a step before and at the present one, partners of every kind;
a timer that is due. -/
theorem witness_SnapshotControlAndRisk : let s := pin Reg.MOD_STRAP_FEED_ID 1 <| managed [(Reg.SNP_JOB_STAT_STATE 1, 2), (Reg.SNP_JOB_CFG_VALID 0, 1), (Reg.TEN_STACK_OWNER 0, 4), (Reg.SNP_JOB_CFG_TENANT 0, 4), (In.jobStep 4, 5),
      (Reg.COL_ROLE_ROLE, 1), (Reg.SNP_JOB_INTERVAL_S 0, 60), (Reg.SNP_JOB_ELAPSED_MS 0, 60000), (Reg.HLT_RISK_BIAS_BIAS, 192)]
    s.awake = true ∧ (s.rd (Reg.HTP_FLOW_MGMT 3) = 1 ∧ s.rd Reg.MOD_BOOT_STAGE ≠ 8) ∧ s.rd (Reg.SNP_JOB_STAT_STATE 0) = 0 ∧ s.rd (Reg.SNP_JOB_STAT_STATE 1) ≠ 0 ∧
    s.ownRange 4 64 64 = true ∧ s.ownRange 4 8 8 = true ∧ s.ownRange 4 (2 ^ 36) 64 = false ∧ s.rd (Reg.SNP_JOB_CFG_VALID 0) = 1 ∧
    (4 : BitVec 32).toNat < s.rd (In.jobStep (s.jobTenant 0)) ∧ s.rd (In.jobStep (s.jobTenant 0)) ≤ (5 : BitVec 32).toNat ∧ s.rd Reg.MOD_STRAP_FEED_ID = (1 : BitVec 4).toNat ∧
    s.rd Reg.MOD_STRAP_FEED_ID ≠ (2 : BitVec 4).toNat ∧ s.rd Reg.COL_ROLE_ROLE = 1 ∧ 1000 * s.rd (Reg.SNP_JOB_INTERVAL_S 0) ≤ s.rd (Reg.SNP_JOB_ELAPSED_MS 0) ∧
    s.rd (Reg.SNP_JOB_STAT_DUE 0) = 0 ∧ s.standby = true ∧ s.rd Reg.PWR_STAT_STATE ≠ 3 ∧ s.rd Reg.SNP_RISK_ARMED = 1 := by decide +kernel
theorem sum_from (l : List Nat) (b : Nat) : b ≤ l.foldl (· + ·) b := by
  induction l generalizing b with
  | nil => exact Nat.le_refl b
  | cons x l ih => exact Nat.le_trans (Nat.le_add_right b x) (ih (b + x))
/-- O53: a score that reaches the threshold by the host's bias alone. -/
theorem witness_risk_score : let s := put [(Reg.HLT_RISK_BIAS_BIAS, 192)]
    s.rd Reg.SNP_RISK_THRESH ≤ min 255 (s.takeBuckets.riskPoints.foldl (· + ·) (s.rd Reg.HLT_RISK_BIAS_BIAS)) := by
  intro s
  have h : s.rd Reg.SNP_RISK_THRESH = 192 ∧ s.rd Reg.HLT_RISK_BIAS_BIAS = 192 := by decide +kernel
  have := sum_from s.takeBuckets.riskPoints (s.rd Reg.HLT_RISK_BIAS_BIAS)
  omega
/-- Job slot 0 of tenant 4, which owns stack 0 with its staging range in its last page but one, and takes a snapshot of it. -/
def snapshotting (state : Nat) : State :=
  { put [(Reg.SNP_JOB_CFG_VALID 0, 1), (Reg.SNP_JOB_CFG_TENANT 0, 4), (Reg.TEN_STACK_OWNER 0, 4), (Reg.HC_WP_SLOT_BASE_ADDR 0 0, 18430 * 2 ^ 21),
      (Reg.HC_WP_SLOT_CNT_FREE 0 0, 1), (Reg.SNP_JOB_STAT_STATE 0, state), (In.flashLast, 7)] with
    snaps := if state = 0 then [] else [(0, some ⟨4, 1, false, 0, 0, [], [], 0, 0, [], []⟩)] }
/-- O54: a slot that may start, a busy one; a snapshot that copies, one that commits with nothing left, one with a handle chunk left. -/
theorem witness_SnapshotRun : let s := snapshotting 0
    let c := snapshotting 3
    let h : State := { snapshotting 2 with protH := [(5, 1)], regs := Tbl.set 0 (snapshotting 2).regs (Reg.SP_HT_EXTENT 0 5).bit 256 }
    s.awake = true ∧ s.rd (Reg.SNP_JOB_CFG_VALID 0) = 1 ∧ s.rd (Reg.SNP_JOB_STAT_STATE 0) = 0 ∧ s.tenantBusy (s.jobTenant 0) = false ∧
    s.poolInUse 0 = false ∧ (s.stagingOf 0) = (18430, 1) ∧ s.rd (Reg.HC_WP_SLOT_BASE_ADDR 0 0) / 2 ^ 36 = 0 ∧ State.reset.rd (Reg.SNP_JOB_CFG_VALID 0) = 0 ∧
    (c.snap 0).isSome = true ∧ c.rd (Reg.SNP_JOB_STAT_STATE 0) = 3 ∧ c.hasWork 0 = false ∧ h.markedOf 0 = [(0, 5)] ∧ h.stagedOf 0 = [] ∧
    (h.chunksOf 0 5)[h.rd (In.hNext 0 5)]? = some (0, 0, 256) ∧ (h.rd In.flashLast + 1 + 0) % 8 = 0 ∧ h.hasWork 0 = true ∧ h.heldw = [] ∧
    Tbl.wf (0 : BitVec 8) h.mem = true ∧ (put [(Reg.SNP_PARTNER_STATE, 1), (Reg.SNP_JOB_STAT_LATEST 0, 1)]).rd (Reg.SNP_JOB_STAT_LATEST 0) ≠ 0 := by decide +kernel
/-- O55: a slot that may restore but has no record, a busy one, one that waits for its replay, with and without a comparison. -/
theorem witness_RestoresAndReplays : let s := managed [(Reg.SNP_JOB_CFG_VALID 0, 1), (Reg.SNP_JOB_STAT_STATE 1, 5), (In.restCheck 1, 1), (Reg.SNP_JOB_CFG_VERIFY 1, 1),
      (In.misses 1, 1)]
    s.awake = true ∧ (1 : Fin 3) ≠ 2 ∧ (s.rd (Reg.HTP_FLOW_MGMT 3) = 1 ∧ s.rd Reg.MOD_BOOT_STAGE ≠ 8) ∧ s.tenantBusy (s.jobTenant 0) = false ∧
    s.keyN (recKey (areaB 1) 0) 4 = 0 ∧ State.reset.rd (Reg.SNP_JOB_CFG_VALID 0) = 0 ∧ s.rd (Reg.SNP_JOB_STAT_STATE 1) = 5 ∧ s.rd (In.restCheck 1) = 1 ∧
    s.rd (Reg.SNP_JOB_CFG_VERIFY 1) = 1 ∧ s.rd (In.misses 1) ≠ 0 ∧ s.rd (In.misses 0) = 0 ∧ (s.hbmRead (s.rd (Reg.SNP_JOB_LOSS_ADDR 1)) 8 true).2.1 = 0 ∧
    ofLe (s.hbmRead 0 8 true).2.2 = s.rd (In.restLoss 1) := by decide +kernel
/-- O56: an entry that is asked for, refused, drains and is free; a wake bit in each state; a probe whose comparator matches; regions that may
gate, drain and are gated. -/
theorem witness_PowerStatesAndGating : let s := put [(Reg.PWR_MODE_REQ, 1), (In.ccWait 0, 2), (Reg.PWR_WAKE_EN, 2 ^ 25 - 1), (Reg.PWR_RSTATE_GATED, 2), (In.gateDrain 2, 1), (In.gateFrom 2, 1),
      (Reg.PWR_RGATE_REQ, 4)]
    let p := put [(Reg.PWR_STAT_STATE, 3), (Reg.PWR_PROBE_CMP_OP 0, 1), (Reg.PWR_WAKE_EN, 2 ^ 24)]
    let w : Remote := ⟨0, 8, 64, 16, (spBase + 16 * spWin) / 64, none, none, []⟩
    s.awake = true ∧ s.rd Reg.PWR_MODE_REQ = 1 ∧ s.rd (In.ccWait 0) = 2 ∧ s.entryRefuser 0 1 = none ∧ s.anyWriter = none ∧
    (s.wrs [(Reg.PWR_STAT_STATE, 1), (In.pwrCore, 0)]).anyWriter = none ∧ ((s.wr Reg.COL_ROLE_ROLE 1).entryRefuser 0 1).isSome = true ∧
    ({ s with remotes := [w] } : State).anyWriter.isSome = true ∧ (s.rd Reg.PWR_WAKE_EN).testBit 24 = true ∧ s.rd In.hold = 0 ∧
    (put [(Reg.PWR_STAT_STATE, 2), (In.wakeDue, 1)]).rd In.wakeDue = 1 ∧ p.rd Reg.PWR_STAT_STATE = 3 ∧ p.rd (Reg.PWR_PROBE_CMP_OP 0) = 1 ∧
    (∀ k < 8, k ≠ 0 → p.rd (Reg.PWR_PROBE_CMP_OP k) = 0) ∧ (BitVec.ofNat 16 (p.rd (Reg.PWR_PROBE_CMP_THRESH 0))).toInt < (1 : BitVec 16).toInt ∧
    (p.rd Reg.PWR_WAKE_EN).testBit 24 = true ∧ s.gated 0 = false ∧ s.gated 1 = true ∧ s.testing 0 = false ∧ s.rd (In.gateDrain 2) = 1 ∧ s.bankWriter 2 = none ∧
    (({ s with remotes := [w] } : State).bankWriter 2).isSome = true ∧ s.regionProtected 2 = false ∧ (s.rd Reg.PWR_RGATE_REQ).testBit 2 = true := by decide +kernel
/-- O57: a feed that is used, one that is not; readings of 109 and 110 °C; a module that is down, fed and present. -/
theorem witness_SupplyAndShutdown : let s := put [(In.hold, 4), (feedUsed 0, 1), (feedIn 0, 1), (Reg.HLT_FEED_PRES, 1)]
    s.standby = true ∧ State.reset.standby = true ∧ s.rd (feedUsed 0) = 1 ∧ s.rd (feedIn 0) = 1 ∧ (put [(feedUsed 1, 0)]).rd (feedUsed 1) = 0 ∧
    (s.rd In.hold).testBit 2 = true ∧ (State.reset.rd In.hold).testBit 2 = false ∧ s.rd Reg.HLT_FEED_PRES = 1 ∧ s.rd In.stuck = 0 ∧
    (109 : BitVec 8).toNat < 110 ∧ 110 ≤ (110 : BitVec 8).toNat ∧ State.reset.rd (In.railAt 1) = 0 := by decide +kernel
/-- O58: islands at the floor and above it, 2,000 and 2,001 W; a die that works. -/
theorem witness_PowerLoopsAndTrips : let s := working.wr (Reg.CLK_ISL_CUR 0) 0
    s.awake = true ∧ 2000 < (2001 : BitVec 16).toNat ∧ (2000 : BitVec 16).toNat = 2000 ∧ 1950 ≤ (1950 : BitVec 16).toNat ∧ (1949 : BitVec 16).toNat < 1950 ∧
    (∀ r < 32, (s.seq r).launch.isSome = true → s.rd (Reg.CLK_ISL_CUR r) = 0) ∧ ((working.wr (Reg.CLK_ISL_CUR 0) 5).seq 0).launch.isSome = true ∧
    s.rd (In.alert 1) = 0 ∧ s.rd (In.dieOff 3) = 0 ∧ 110 ≤ (110 : BitVec 8).toNat ∧ (104 : BitVec 8).toNat < 105 ∧ (95 : BitVec 8).toInt = 95 := by decide +kernel
/-- O59: the port held and not; debug locked and unlocked; a halted region that runs, and offsets of its lanes. -/
theorem witness_BoundaryScanAndDebugPort : let s := put [(Reg.SEC_DBG_STAT_STATE, 1), (Reg.DBG_HALT_MASK, 1), (Reg.DBG_ADDR_SPACE, 1), (Reg.DBG_ADDR_OFFSET, 4095)]
    let t := s.setSeq 0 (running [])
    State.reset.standby = true ∧ State.reset.rd Reg.SEC_DBG_STAT_STATE = 0 ∧ (State.reset.rd In.hold).testBit 1 = false ∧
    ((put [(In.hold, 2)]).rd In.hold).testBit 1 = true ∧ s.awake = true ∧ s.rd Reg.SEC_DBG_STAT_STATE = 1 ∧ s.dbgHalted (s.rd Reg.DBG_ADDR_REGION) = true ∧
    s.rd Reg.DBG_ADDR_SPACE = 1 ∧ s.rd Reg.DBG_ADDR_OFFSET < 4096 ∧ (∀ k < 32, s.testing k = false ∧ s.active k = false) ∧ t.dbgHalted 0 = true ∧
    t.active 0 = true ∧ (t.seq 0).halted = false ∧ (t.seq 0).stopped = false ∧ (t.seq 0).holds = [] ∧ s.dbgHalted 1 = false := by decide +kernel
/-- O60: a region that is assigned, waits, runs in each mode, and one that is free. -/
theorem witness_RegionSelfTests : let s := put [(Reg.HLT_STEST_STAT_RUN, 3), (Reg.HLT_STEST_STAT_PEND, 4), (In.testMode 0, 1), (Reg.TEN_REGION_OWNER 4, 7)]
    s.awake = true ∧ (s.rd Reg.HLT_STEST_STAT_RUN).testBit 0 = true ∧ s.rd (In.testMode 0) = 1 ∧ (s.rd Reg.HLT_STEST_STAT_RUN).testBit 1 = true ∧
    s.rd (In.testMode 1) = 0 ∧ (s.rd Reg.HLT_STEST_STAT_PEND).testBit 2 = true ∧ (s.seq 2).launch = none ∧ s.rd (Reg.SP_ZERO_STAT_BUSY 2) = 0 ∧
    s.rd (Reg.TEN_REGION_PEND 2) = 0 ∧ (s.rd Reg.HLT_STEST_STAT_RUN).testBit 3 = false ∧ (s.rd Reg.HLT_STEST_STAT_PEND).testBit 3 = false ∧
    s.rd (Reg.TEN_REGION_OWNER 3) = 0xFF ∧ s.rd (Reg.TEN_REGION_OWNER 4) ≠ 0xFF ∧ (working.seq 0).launch ≠ none := by decide +kernel

/-- R472: a cold reset restarts TEN_MSEQ at the stored mark, and GAP is set until the next mark is given out. -/
theorem test_cold_reset_mseq : ((State.reset.wr In.mark (2 ^ 20)).coldReset).mseq = 2 ^ 20 ∧
    ((State.reset.closeInterval 4 false).rd In.mark, (State.reset.closeInterval 4 false).rd In.gap) = (2 ^ 20, 1) := by decide +kernel

/-- A parameter block with one descriptor of `n` FP32 elements at 0x8000 of HBM. -/
def tiny (n : Nat) : List Nat := toLe 4 256 ++ toLe 2 1 ++ List.replicate 250 0 ++
  toLe 256 (2 * 2 ^ 4 + 0x8000 * 2 ^ 64 + (n + n * 2 ^ 32) * 2 ^ 256 + (1 + 1 * 2 ^ 32 + 64 * 2 ^ 64) * 2 ^ 512)
/-- The record of operation `op` of group 5, operation 9, with that block and descriptor 0 as its source and its destination. -/
def colRec (op : Nat) : Nat := op + 1 * 2 ^ 8 + 5 * 2 ^ 16 + 9 * 2 ^ 32 + 1 * 2 ^ 96 + 0x3000 * 2 ^ 128 + 512 * 2 ^ 192 + 1 * 2 ^ 240 + 0x4000 * 2 ^ 256
/-- Tenant 4 has a group of two members and, at 0x1000, the record of operation `op` over `n` elements. -/
def member (op n : Nat) : State := (put [(Reg.TEN_STACK_OWNER 0, 4), (Reg.HTP_FLOW_TENANT 3, 4), (Reg.COL_GROUP_VALID 5, 1), (Reg.COL_GROUP_TENANT 5, 4),
  (Reg.COL_GROUP_SIZE_M1 5, 1)]).pokes ((at' 0x1000 (toLe 128 (colRec op)) ++ at' 0x3000 (tiny n)).filter fun x => x.2 ≠ 0)
/-- O42: a record that is accepted. -/
theorem witness_accepted_submission : let s := member 8 16
    let y := s.hbmRead 0x1000 128 true
    s.flowTenant 3 = 4 ∧ y.2.1 = 0 ∧ code (y.1.colCheck (parseCol (putBits (ofLe y.2.2) 24 8 4))) = 0 := by decide +kernel
/-- O43: an array that is read without a failure, and a list with one piece to receive, of 8 elements, from rank 1. -/
theorem witness_collective_data : let s := (member 6 8).pokes ((at' 0x8000 (toLe 4 0 ++ toLe 4 (1 + 2 ^ 16) ++ toLe 24 0)).filter fun x => x.2 ≠ 0)
    let x : LCtx := s.colCtx (parseCol (colRec 6)) (tiny 8)
    let c := parseCol (colRec 6)
    (s.colRead x c.sd).2.1 = false ∧ (s.colRead x c.sd).2.2.length = 8 ∧ s.colTags x c.sd = [] ∧ (descOf x.p c.dd).layout ≠ 1 ∧ c.tagMode = 0 ∧
    s.gsize c.group = 2 ∧ c.srcs = [c.sd] ∧ s.permPieces x c = [⟨0, 1, true, 0, false⟩] ∧ x.colCount 0 = 8 := by decide +kernel
/-- SEND from handle 0 of region 0. -/
def fromRegion : ColOp := ⟨sendRec, toLe 4 256 ++ toLe 2 1 ++ List.replicate 250 0 ++ toLe 256 (2 * 2 ^ 4 + 2 ^ 7), [], some 0, [], [], [], [], [], false, [], [], none⟩
/-- O43: an operation whose array lies in a region that is gated. -/
theorem witness_asleep_operation : let s := put [(Reg.PWR_RSTATE_GATED, 1)]
    s.colRegions (s.opCtx fromRegion) (parseCol fromRegion.rcd) = [0] ∧ (s.rd Reg.PWR_RSTATE_GATED).testBit 0 = true := by decide +kernel
/-- O44: a flit of the operation's group that a port lost, and an operation of the queue. -/
theorem witness_lost_flit : let s := (inFlight false none).setLink 0 { (inFlight false none).link 0 with lost := [⟨5 * 2 ^ 101, []⟩] }
    s.colFind 5 9 = some 31 ∧ (s.link 0).lost.find? (fun f => decide (bitsOf f.hdr 111 110 < 2) && bitsOf f.hdr 108 101 == 5) = some ⟨5 * 2 ^ 101, []⟩ := by
  decide +kernel
/-- O45: a started operation, and a module that is the standby. -/
theorem witness_started_and_standby : ((inFlight false none).colAt 31).map (·.held) = some false ∧ (put [(Reg.COL_ROLE_ROLE, 2)]).rd Reg.COL_ROLE_ROLE = 2 := by
  decide +kernel
/-- O46: an IPv6 packet of UDP, and a flow whose next timeout breaks it. -/
theorem witness_packet_and_last_timeout : let p := [0x60, 0, 0, 0, 0, 8, 17] ++ List.replicate 41 0
    let f := (holding []).setFlow 3 { Flow.idle with unacked := [⟨0, true, true, [], 0⟩], timeouts := 255 }
    ¬ (p.length < 40 ∨ nth p 0 / 16 ≠ 6 ∨ ((p.drop 40).take (beAt p 4 2)).length ≠ beAt p 4 2 ∨ nth p 6 ≠ 17 ∧ nth p 6 ≠ 58) ∧
    (f.flow 3).unacked ≠ [] ∧ max 1 (f.rd Reg.HTP_CFG_RETRY_MAX) ≤ (f.flow 3).timeouts + 1 := by decide +kernel
/-- O47: an operation that is done, with and without a write of it that is held; an own stack with a poisoned granule, one that is LOST and one that is
zeroised; a protected page. -/
theorem witness_host_operations : let m := message 2 4 0x100 0 [1, 2, 3, 4]
    let s : State := { holding m with poison := [(1, 1)] }
    let d := s.setFlow 3 { s.flow 3 with done := some (0, 0, 0) }
    let p : State := { put [(Reg.HTP_FLOW_VALID 3, 1), (Reg.HTP_FLOW_MGMT 3, 1), (Reg.HBM_STAT_STATE 0, 5), (Reg.HBM_STAT_STATE 1, 4), ((State.pageBit 0).1, 2 ^ (State.pageBit 0).2)] with
      heldw := [⟨128 + 3, [(0x100, 1)], true, []⟩] }
    (d.flow 3).done = some (0, 0, 0) ∧ d.headMsg 3 2 = some ⟨0, 0, m⟩ ∧ (∀ w ∈ d.heldw, w.src ≠ 128 + 3) ∧ (∃ w ∈ p.heldw, w.src = 128 + 3) ∧
    (s.flow 3).done = none ∧ (∃ g ∈ State.granules 0x100 4, Tbl.get 0 s.poison g = 1) ∧ p.rd (Reg.HBM_STAT_STATE 0) = 5 ∧ p.rd (Reg.HBM_STAT_STATE 1) = 4 ∧
    p.protectedPage (State.pageOf 0x100) = true ∧ State.inStack (2 ^ 36 - 4) 4 = false := by decide +kernel
/-- O48: a command that was withheld while its ring was full, once there is room; a message of firmware with a body. -/
theorem witness_withheld_command : let s := (holding (message 1 4 0 0 [1, 2, 3, 4])).setFlow 3 { (holding (message 1 4 0 0 [1, 2, 3, 4])).flow 3 with withheld := true }
    let t := (State.reset.poke 8 4)
    (s.flow 3).withheld = true ∧ s.headMsg 3 1 ≠ none ∧ ¬ (s.rd (Reg.HTP_RING_SIZE_ENTRIES 0) < 2 ∨
      (s.rd (Reg.HTP_RING_HEAD_INDEX 0) + 1) % s.rd (Reg.HTP_RING_SIZE_ENTRIES 0) = s.rd (Reg.HTP_RING_TAIL_INDEX 0)) ∧
    (t.hbmRead (t.rd Reg.HTP_TXQ_ADDR_ADDR) 32 true).2.1 = 0 ∧ blk (t.hbmRead 0 32 true).2.2 8 4 = 4 ∧ ((t.hbmRead 0 32 true).1.hbmRead 32 4 true).2.1 = 0 := by
  decide +kernel
/-- O49: each kind of request at the front of the queue of the signing engine. -/
theorem witness_sign_requests : let s : List SignReq → State := fun l => { managed [(In.idReady, 1)] with signq := l }
    (s [.report 3 7 [1]]).signq = .report 3 7 [1] :: [] ∧ (s [.receipt 3 7 [1]]).signq = .receipt 3 7 [1] :: [] ∧ (s []).rd In.idReady = 1 ∧
    ({ s [.meter []] with meterq := [[1]] } : State).meterFull = true := by decide +kernel
/-- O50: a password that fits the fused digest; no signature can be shown, since the model leaves the check of one open. -/
theorem witness_password : let p := List.replicate 16 7
    let g := ofLe (Config.shake256 (toLe 8 (managed []).serial ++ p) 64) % 2 ^ 512
    let s := pin Reg.SEC_DBG_KEYSET_PWD 1 (managed [(In.chalOk, 1)])
    16 ≤ p.length ∧ p.length ≤ 64 ∧ (s.wr In.dbgPwd g).serial = (managed []).serial ∧ (s.wr In.dbgPwd g).rd In.dbgPwd = g := by
  intro p g s
  refine ⟨by decide, by decide, ?_, ?_⟩
  · unfold State.serial
    rw [State.rd_wr_ne _ _ (by decide), State.rd_wr_ne _ _ (by decide)]
    rfl
  rw [State.rd_wr_self, show (In.dbgPwd).w = 512 from rfl]
  exact Nat.mod_mod _ _
/-- O53: an old step, a partner that shares no feed, and one of another module while this one is the manager. -/
theorem witness_partners : let s := pin Reg.MOD_STRAP_FEED_ID 1 (managed [(Reg.SNP_JOB_CFG_VALID 0, 1), (In.jobStep 0xFF, 5), (Reg.COL_ROLE_ROLE, 1)])
    ¬ ((s.rd Reg.MOD_STRAP_FEED_ID = (2 : BitVec 4).toNat ∨ s.rd Reg.MOD_STRAP_FEED_ID = 0xF ∨ (2 : BitVec 4).toNat = 0xF) ∧ false = false) ∧
    s.rd Reg.COL_ROLE_ROLE = 1 ∧ (managed []).rd Reg.COL_ROLE_ROLE ≠ 1 := by decide +kernel
/-- The record at `k` of the store with the digest that makes it complete. -/
def sealed (s : State) (k : Nat) : State := s.putKeys (k + 0xFFFFC0) (Config.shake256 (s.cellar k 0xFFFFC0) 64)
theorem memGet_putKeys (l : List Nat) (s : State) (k a : Nat) (hl : ∀ b ∈ l, b < 256) :
    (s.putKeys k l).memGet a = if k ≤ a ∧ a < k + l.length then nth l (a - k) else s.memGet a := by
  induction l generalizing s k with
  | nil => simp [State.putKeys, show ¬ (k ≤ a ∧ a < k) by omega]
  | cons b l ih =>
    rw [State.putKeys, ih _ _ fun b hb => hl b (List.mem_cons_of_mem _ hb), List.length_cons]
    by_cases h : a = k
    · subst h
      rw [if_neg (by omega), if_pos (by omega), Nat.sub_self]
      simp [State.memGet, State.memSet, nth, Nat.mod_eq_of_lt (hl b (List.mem_cons_self ..))]
    · have e : (s.memSet k b).memGet a = s.memGet a := by simp [State.memGet, State.memSet, Tbl.get_set_ne _ _ _ _ h]
      rw [e]
      by_cases h1 : k + 1 ≤ a ∧ a < k + 1 + l.length
      · rw [if_pos h1, if_pos (by omega), show a - k = a - (k + 1) + 1 by omega]; simp [nth]
      · rw [if_neg h1, if_neg (by omega)]
theorem shake_bytes (m : List Nat) (n : Nat) : (Config.shake256 m n).length = n ∧ ∀ b ∈ Config.shake256 m n, b < 256 := by
  constructor
  · simp [Config.shake256]
  · intro b hb
    simp only [Config.shake256, List.mem_map] at hb
    obtain ⟨i, -, rfl⟩ := hb
    exact (Config.shakeByte m i).isLt
theorem sealed_get (s : State) (k a : Nat) (h : a < k + 0xFFFFC0 ∨ k + 0x1000000 ≤ a) : (sealed s k).memGet a = s.memGet a := by
  rw [sealed, memGet_putKeys _ _ _ _ (shake_bytes _ _).2, (shake_bytes _ _).1, if_neg (by omega)]
theorem sealed_cellar (s : State) (k a n : Nat) (h : a + n ≤ k + 0xFFFFC0 ∨ k + 0x1000000 ≤ a) : (sealed s k).cellar a n = s.cellar a n := by
  refine List.map_congr_left fun i hi => sealed_get s k _ ?_
  have := List.mem_range.mp hi
  omega
/-- A record with its magic number and VALID is complete once it is sealed. -/
theorem sealed_valid (s : State) (k : Nat) (h : s.keyN k 4 = 0x49565853) (v : (s.keyN (k + 4) 2).testBit 8 = true) : (sealed s k).recValid k = true := by
  have e : ∀ a n, a + n ≤ k + 0xFFFFC0 → (sealed s k).keyN a n = s.keyN a n := fun a n ha => congrArg ofLe (sealed_cellar s k a n (.inl ha))
  have d : (sealed s k).cellar (k + 0xFFFFC0) 64 = Config.shake256 (s.cellar k 0xFFFFC0) 64 := by
    refine List.ext_getElem (by simp [State.cellar, (shake_bytes _ _).1]) fun i hi hj => ?_
    have hi : i < 64 := by simpa [State.cellar] using hi
    have g : ((sealed s k).cellar (k + 0xFFFFC0) 64)[i] = (sealed s k).memGet (k + 0xFFFFC0 + i) := by simp [State.cellar]
    refine Eq.trans g ?_
    rw [sealed, memGet_putKeys _ _ _ _ (shake_bytes _ _).2, (shake_bytes _ _).1, if_pos (by omega), Nat.add_sub_cancel_left, nth, List.getD_eq_getElem _ _ hj]
  unfold State.recValid
  rw [e k 4 (by omega), e (k + 4) 2 (by omega), sealed_cellar s k k 0xFFFFC0 (.inl (by omega)), d, h, v]
  simp
/-- A module whose job slot 0, of tenant 4, has an empty record in area A. -/
def recorded : State := ((managed [(Reg.SNP_JOB_CFG_VALID 0, 1), (Reg.SNP_JOB_CFG_TENANT 0, 4)]).putKeys (recKey (areaB 1) 0) [0x53, 0x58, 0x56, 0x49]).memSet
  (recKey (areaB 1) 0 + 5) 1
/-- O55: a record that a restore accepts, with no page and no handle to put back. -/
theorem witness_accepted_restore : let s := sealed recorded (recKey (areaB 1) 0)
    let k := recKey (areaB 1) 0
    s.recValid k = true ∧ s.rd (Reg.SNP_JOB_CFG_VALID 0) = 1 ∧ s.rd (Reg.SNP_JOB_STAT_STATE 0) = 0 ∧ s.tenantBusy (s.jobTenant 0) = false ∧
    s.latestArea 0 = 1 ∧ s.sourceBase 0 0 = areaB 1 ∧ s.keyN (k + 32) 2 % 2 ^ 12 = s.ownStacks (s.jobTenant 0) ∧ s.keyN (k + 36) 4 = s.ownRegions (s.jobTenant 0) ∧
    s.keyN (k + 50) 2 = 0 ∧ State.imagedPages (s.ownStacks (s.jobTenant 0)) [] = [] ∧ s.recHandles k = [] := by
  intro s k
  have e : ∀ a n, a + n ≤ k + 0xFFFFC0 ∨ k + 0x1000000 ≤ a → s.keyN a n = recorded.keyN a n := fun a n ha => congrArg ofLe (sealed_cellar recorded k a n ha)
  have v : s.recValid k = true := sealed_valid recorded k (by decide +kernel) (by decide +kernel)
  have w : s.recValid (recKey (areaB 2) 0) = false := by
    unfold State.recValid
    rw [e _ 4 (.inr (by decide)), show recorded.keyN (recKey (areaB 2) 0) 4 = 0 by decide +kernel]
    rfl
  have l : s.latestArea 0 = 1 := by
    have v' : s.recValid (recKey (areaB 1) 0) = true := v
    simp only [State.latestArea, State.latestOf, v', w]
  refine ⟨v, by decide +kernel, by decide +kernel, by decide +kernel, l, ?_, ?_, ?_, ?_, by decide +kernel, ?_⟩
  · unfold State.sourceBase; rw [l]; rfl
  · rw [e _ 2 (.inl (by omega))]; decide +kernel
  · rw [e _ 4 (.inl (by omega))]; decide +kernel
  · rw [e _ 2 (.inl (by omega))]; decide +kernel
  · unfold State.recHandles
    rw [e _ 2 (.inl (by omega)), show recorded.keyN (k + 52) 2 = 0 by decide +kernel]
    rfl
/-- O59: a module that is off, and the port's registers while debug is locked. -/
theorem witness_port_off : let s := put [(In.hold, 8)]
    s.standby = false ∧ State.reset.rd Reg.SEC_DBG_STAT_STATE = 0 := by decide +kernel

end Sys2Proof.Tests
end

section
/-!
SUPPORT. Writes of the handle and stream tables and of the fault enables: what each returns and which fields it changes, by the checks
that decide it (R59, R128, R199, R240).
-/

namespace Sys2Proof.Machine

/-! ### What domain 36 carries out -/

/-- A command of domain 36 yields, while the block is awake, what its meaning leaves. -/
theorem yields_of_clocked {i : Instr} {s u : State} {P : State → Prop} (ha : s.awake = true)
    (hi : exec i s = .next (s.clocked u)) (hu : P u) : Yields i s P :=
  ⟨u, by rw [hi, clocked_awake ha], hu⟩

/-- Fields written from the lowest bit address up, with values that fit, are exactly what changes. -/
theorem wrote_wrs_rising (s : State) {l : List (Fld × Nat)} (hb : (l.map fun p => p.1.bit).IsChain (· < ·))
    (hv : ∀ p ∈ l, p.2 < 2 ^ p.1.w) : Wrote l s (s.wrs l) :=
  wrote_wrs s ((List.pairwise_map.mp hb.pairwise).imp Nat.ne_of_lt) hv

theorem b2n_lt_two (b : Bool) : b2n b < 2 := by cases b <;> decide

@[simp] theorem b2n_eq_one (b : Bool) : b2n b = 1 ↔ b = true := by cases b <;> decide

@[simp] theorem b2n_eq_zero (b : Bool) : b2n b = 0 ↔ b = false := by cases b <;> decide

theorem State.on_iff (s : State) (f : Fld) : s.on f = true ↔ s.rd f ≠ 0 := bne_iff_ne

/-! ### HANDLE_WRITE (R128) -/

/-- The bounds that R128 sets on a valid entry, in a cluster's scratchpad or in its accumulator window. -/
theorem HEntry.bad_iff (x : HEntry) : x.bad = true ↔ x.offset % 256 ≠ 0 ∨ x.extent % 256 ≠ 0 ∨ x.extent < 256 ∨
    x.acc = 0 ∧ spSize < x.offset + x.extent ∨ x.acc ≠ 0 ∧ (x.offset < spSize ∨ accEnd < x.offset + x.extent) := by
  by_cases h : x.acc = 0 <;> simp [HEntry.bad, h, or_assoc]

namespace State

variable {s : State} {r h : Nat} {x : HEntry}

theorem handleWrite_busy (hb : s.rd (Reg.SP_HT_BUSY r h) = 1) : s.handleWrite r h x = s.wr In.wrRet 2 :=
  if_pos ((s.on_iff _).mpr (by rw [hb]; decide))

theorem handleWrite_refused (hb : s.rd (Reg.SP_HT_BUSY r h) = 0) (hx : x.valid = 1 ∧ x.bad = true) :
    s.handleWrite r h x = s.wr In.wrRet 1 :=
  (if_neg fun h => (s.on_iff _).mp h hb).trans (if_pos hx)

theorem handleWrite_done (hb : s.rd (Reg.SP_HT_BUSY r h) = 0) (hx : ¬ (x.valid = 1 ∧ x.bad = true)) :
    s.handleWrite r h x = s.wrs [(Reg.SP_HT_VALID r h, x.valid), (Reg.SP_HT_KIND r h, x.kind), (Reg.SP_HT_ACC r h, x.acc),
      (Reg.SP_HT_PERSIST r h, x.persist), (Reg.SP_HT_CLUSTER r h, x.cluster), (Reg.SP_HT_TENANT r h, x.tenant),
      (Reg.SP_HT_OFFSET r h, x.offset), (Reg.SP_HT_EXTENT r h, x.extent), (In.wrRet, 0)] :=
  (if_neg fun h => (s.on_iff _).mp h hb).trans (if_neg hx)

end State

/-- The fields of an entry lie in rising order, below the model's own field of what the write returned. -/
theorem wrote_handleEntry (s : State) (r : RegionId) (h : Fin 1024) (valid kind acc persist : Bool) (cluster tenant : BitVec 8)
    (offset extent : BitVec 27) :
    let l := [(Reg.SP_HT_VALID r.val h.val, b2n valid), (Reg.SP_HT_KIND r.val h.val, b2n kind),
      (Reg.SP_HT_ACC r.val h.val, b2n acc), (Reg.SP_HT_PERSIST r.val h.val, b2n persist),
      (Reg.SP_HT_CLUSTER r.val h.val, cluster.toNat), (Reg.SP_HT_TENANT r.val h.val, tenant.toNat),
      (Reg.SP_HT_OFFSET r.val h.val, offset.toNat), (Reg.SP_HT_EXTENT r.val h.val, extent.toNat), (In.wrRet, 0)]
    Wrote l s (s.wrs l) := by
  have hr := r.isLt
  have hh := h.isLt
  refine wrote_wrs_rising s ?_ ?_
  · unfold Reg.SP_HT_VALID Reg.SP_HT_KIND Reg.SP_HT_ACC Reg.SP_HT_PERSIST Reg.SP_HT_CLUSTER Reg.SP_HT_TENANT Reg.SP_HT_OFFSET
      Reg.SP_HT_EXTENT Reg.regionB In.wrRet In.fld Reg.intB
    simp only [List.map_cons, List.map_nil, List.isChain_cons_cons, List.isChain_singleton, and_true]
    omega
  · simp only [List.forall_mem_cons]
    exact ⟨b2n_lt_two _, b2n_lt_two _, b2n_lt_two _, b2n_lt_two _, cluster.isLt, tenant.isLt, offset.isLt, extent.isLt, by decide,
      by simp⟩

/-! ### STREAM_TABLE_WRITE (R59) and the fault enables (R199, R240) -/

namespace State

variable {s : State}

theorem streamWrite_busy {n key ctr owner en : Nat} (hb : s.rd (Reg.STREAM_BUSY n) ≠ 0) :
    s.streamWrite n key ctr owner en = s.wr In.wrRet 3 :=
  if_pos ((s.on_iff _).mpr hb)

theorem streamWrite_done {n key ctr owner en : Nat} (hb : s.rd (Reg.STREAM_BUSY n) = 0) :
    s.streamWrite n key ctr owner en = s.wrs [(Reg.STREAM_KEY n, key), (Reg.STREAM_CTR n, ctr), (Reg.STREAM_OWNER n, owner),
      (Reg.STREAM_EN n, en), (In.wrRet, 0)] :=
  if_neg fun h => (s.on_iff _).mp h hb

theorem svFaultEn_running {k idx tile : Nat} (hl : (s.seq (k / 8)).launch.isSome = true) : s.svFaultEn k idx tile = s := if_pos hl

theorem svFaultEn_idle {k idx tile : Nat} (hl : (s.seq (k / 8)).launch = none) :
    s.svFaultEn k idx tile = s.wrs [(Reg.SV_FAULT_EN_IDX k, idx), (Reg.SV_FAULT_EN_TILE k, tile)] :=
  if_neg (by simp [hl])

theorem shFaultEn_running {k tile comp cap : Nat} (hl : (s.seq (k / 8)).launch.isSome = true) : s.shFaultEn k tile comp cap = s :=
  if_pos hl

theorem shFaultEn_idle {k tile comp cap : Nat} (hl : (s.seq (k / 8)).launch = none) :
    s.shFaultEn k tile comp cap =
      s.wrs [(Reg.SH_FAULT_EN_TILE k, tile), (Reg.SH_FAULT_EN_COMP k, comp), (Reg.SH_FAULT_EN_CAP k, cap)] :=
  if_neg (by simp [hl])

end State

theorem wrote_streamEntry (s : State) (n : Fin 4096) (key : BitVec 64) (ctr : BitVec 128) (owner : BitVec 8) (en : Bool) :
    let l := [(Reg.STREAM_KEY n.val, key.toNat), (Reg.STREAM_CTR n.val, ctr.toNat), (Reg.STREAM_OWNER n.val, owner.toNat),
      (Reg.STREAM_EN n.val, b2n en), (In.wrRet, 0)]
    Wrote l s (s.wrs l) := by
  have hn := n.isLt
  refine wrote_wrs_rising s ?_ ?_
  · unfold Reg.STREAM_KEY Reg.STREAM_CTR Reg.STREAM_OWNER Reg.STREAM_EN Reg.iodB In.wrRet In.fld Reg.intB
    simp only [List.map_cons, List.map_nil, List.isChain_cons_cons, List.isChain_singleton, and_true]
    omega
  · simp only [List.forall_mem_cons]
    exact ⟨key.isLt, ctr.isLt, owner.isLt, b2n_lt_two _, by decide, by simp⟩

theorem wrote_svFaultEn (s : State) (k : Nat) (idx tile : Bool) :
    let l := [(Reg.SV_FAULT_EN_IDX k, b2n idx), (Reg.SV_FAULT_EN_TILE k, b2n tile)]
    Wrote l s (s.wrs l) := by
  refine wrote_wrs_rising s ?_ ?_
  · simp [Reg.SV_FAULT_EN_IDX, Reg.SV_FAULT_EN_TILE]
  · simp only [List.forall_mem_cons]
    exact ⟨b2n_lt_two _, b2n_lt_two _, by simp⟩

theorem wrote_shFaultEn (s : State) (k : Nat) (tile comp cap : Bool) :
    let l := [(Reg.SH_FAULT_EN_TILE k, b2n tile), (Reg.SH_FAULT_EN_COMP k, b2n comp), (Reg.SH_FAULT_EN_CAP k, b2n cap)]
    Wrote l s (s.wrs l) := by
  refine wrote_wrs_rising s ?_ ?_
  · simp [Reg.SH_FAULT_EN_TILE, Reg.SH_FAULT_EN_COMP, Reg.SH_FAULT_EN_CAP]
  · simp only [List.forall_mem_cons]
    exact ⟨b2n_lt_two _, b2n_lt_two _, b2n_lt_two _, by simp⟩

end Sys2Proof.Machine
end

section
/-!
SUPPORT. The *_CNT_CLR commands: every field that one clears has the reset value 0, so that clearing leaves 0 in it.
-/

namespace Sys2Proof.Machine

/-- Fields listed one by one have the reset value 0 when the check of each says so. -/
theorem rst_of_all {l : List Fld} (h : (l.all fun f => f.rst == 0) = true) : ∀ f ∈ l, f.rst = 0 := by
  simpa using h

theorem rst_each {n : Nat} {f : Nat → List Fld} (h : ∀ i, ∀ g ∈ f i, g.rst = 0) : ∀ g ∈ each n f, g.rst = 0 := by
  intro g hg
  obtain ⟨i, -, hi⟩ := List.mem_flatMap.mp hg
  exact h i g hi

theorem rst_append {l k : List Fld} (hl : ∀ f ∈ l, f.rst = 0) (hk : ∀ f ∈ k, f.rst = 0) : ∀ f ∈ l ++ k, f.rst = 0 :=
  List.forall_mem_append.mpr ⟨hl, hk⟩

namespace State

theorem zeros_append (s : State) (l k : List Fld) : s.zeros (l ++ k) = (s.zeros l).zeros k := by
  induction l generalizing s with
  | nil => rfl
  | cons f l ih => exact ih (s.wr f 0)

theorem spCleared_rst (c : Nat) : ∀ f ∈ spCleared c, f.rst = 0 := rst_append (rst_each fun _ => rst_of_all rfl) (rst_of_all rfl)
theorem muCleared_rst (c : Nat) : ∀ f ∈ muCleared c, f.rst = 0 := rst_each fun _ => rst_of_all rfl
theorem svCleared_rst (c : Nat) : ∀ f ∈ svCleared c, f.rst = 0 := rst_append (rst_of_all rfl) (rst_each fun _ => rst_of_all rfl)
theorem shCleared_rst (c : Nat) : ∀ f ∈ shCleared c, f.rst = 0 := rst_append (rst_of_all rfl) (rst_each fun _ => rst_of_all rfl)
theorem stdCleared_rst (d : Nat) : ∀ f ∈ stdCleared d, f.rst = 0 :=
  rst_append (rst_append (rst_of_all rfl) (rst_each fun _ => rst_of_all rfl)) (rst_each fun _ => rst_of_all rfl)
theorem sqCleared_rst (r : Nat) : ∀ f ∈ sqCleared r, f.rst = 0 := rst_append (rst_of_all rfl) (rst_each fun _ => rst_of_all rfl)
theorem dmaCleared_rst (d : Nat) : ∀ f ∈ dmaCleared d, f.rst = 0 := rst_each fun _ => rst_of_all rfl
theorem hbmCleared_rst (k : Nat) : ∀ f ∈ hbmCleared k, f.rst = 0 := rst_append (rst_of_all rfl) (rst_each fun _ => rst_of_all rfl)
theorem hcCleared_rst (d : Nat) : ∀ f ∈ hcCleared d, f.rst = 0 := rst_of_all rfl
theorem clkCleared_rst : ∀ f ∈ clkCleared, f.rst = 0 := rst_append (rst_each fun _ => rst_of_all rfl) (rst_of_all rfl)
theorem arbDieCleared_rst (d : Nat) : ∀ f ∈ arbDieCleared d, f.rst = 0 := rst_append (rst_of_all rfl) (rst_each fun _ => rst_of_all rfl)
theorem arbPortCleared_rst : ∀ f ∈ arbPortCleared, f.rst = 0 := rst_each fun _ => rst_of_all rfl
theorem ozlCleared_rst (p : Nat) : ∀ f ∈ ozlCleared p, f.rst = 0 := rst_append (rst_of_all rfl) (rst_each fun _ => rst_of_all rfl)
theorem colCleared_rst : ∀ f ∈ colCleared, f.rst = 0 := rst_append (rst_of_all rfl) (rst_each fun _ => rst_of_all rfl)
theorem colEv_rst : ∀ f ∈ (List.range 6).map In.colEv, f.rst = 0 := List.forall_mem_map.mpr fun _ _ => rfl
theorem htpCleared_rst : ∀ f ∈ htpCleared, f.rst = 0 := rst_of_all rfl
theorem snpCleared_rst : ∀ f ∈ snpCleared, f.rst = 0 := rst_of_all rfl
theorem pwrCleared_rst : ∀ f ∈ pwrCleared, f.rst = 0 := rst_append (rst_of_all rfl) (rst_each fun _ => rst_of_all rfl)
theorem hltCleared_rst : ∀ f ∈ hltCleared, f.rst = 0 := rst_append (rst_each fun _ => rst_of_all rfl) (rst_of_all rfl)

end State

/-- A command of domain 36 that clears fields of the reset value 0 leaves 0 in each and changes nothing else. -/
theorem yields_cleared {i : Instr} {s : State} {l : List Fld} (ha : s.awake = true) (hr : ∀ f ∈ l, f.rst = 0)
    (hi : exec i s = .next (s.clocked (s.zeros l))) : Yields i s (Cleared l s) :=
  yields_of_clocked ha hi (cleared_zeros s hr)

end Sys2Proof.Machine
end

section
/-!
SUPPORT. The statement on table writes, fault enables and cleared counts.
-/

namespace Sys2Proof.Machine

variable {s : State}

/-- HANDLE_WRITE by the state of the entry's BUSY and by the bounds of R128. -/
theorem handleWrite_outcomes (ha : s.awake = true) (r : RegionId) (h : Fin 1024) (valid kind acc persist : Bool)
    (cluster tenant : BitVec 8) (offset extent : BitVec 27) :
    let i := Instr.handleWrite r h valid kind acc persist cluster tenant offset extent
    let x : HEntry := ⟨b2n valid, b2n kind, b2n acc, b2n persist, cluster.toNat, tenant.toNat, offset.toNat, extent.toNat⟩
    (s.rd (Reg.SP_HT_BUSY r.val h.val) = 1 → Yields i s (Wrote [(In.wrRet, 2)] s)) ∧
    (s.rd (Reg.SP_HT_BUSY r.val h.val) = 0 →
      (x.valid = 1 ∧ x.bad = true → Yields i s (Wrote [(In.wrRet, 1)] s)) ∧
      (¬ (x.valid = 1 ∧ x.bad = true) → Yields i s
        (Wrote [(Reg.SP_HT_VALID r.val h.val, b2n valid), (Reg.SP_HT_KIND r.val h.val, b2n kind),
          (Reg.SP_HT_ACC r.val h.val, b2n acc), (Reg.SP_HT_PERSIST r.val h.val, b2n persist),
          (Reg.SP_HT_CLUSTER r.val h.val, cluster.toNat), (Reg.SP_HT_TENANT r.val h.val, tenant.toNat),
          (Reg.SP_HT_OFFSET r.val h.val, offset.toNat), (Reg.SP_HT_EXTENT r.val h.val, extent.toNat), (In.wrRet, 0)] s))) := by
  intro i x
  have hi : exec i s = .next (s.clocked (s.handleWrite r.val h.val x)) := rfl
  refine ⟨fun hb => ?_, fun hb => ⟨fun hx => ?_, fun hx => ?_⟩⟩
  · rw [State.handleWrite_busy hb] at hi
    exact yields_of_clocked ha hi (wrote_wr s (by decide))
  · rw [State.handleWrite_refused hb hx] at hi
    exact yields_of_clocked ha hi (wrote_wr s (by decide))
  · rw [State.handleWrite_done hb hx] at hi
    exact yields_of_clocked ha hi (wrote_handleEntry s r h valid kind acc persist cluster tenant offset extent)

/-- STREAM_TABLE_WRITE by the stream's BUSY. -/
theorem streamWrite_outcomes (ha : s.awake = true) (n : Fin 4096) (key : BitVec 64) (ctr : BitVec 128) (owner : BitVec 8) (en : Bool) :
    let i := Instr.streamTableWrite n key ctr owner en
    (s.rd (Reg.STREAM_BUSY n.val) ≠ 0 → Yields i s (Wrote [(In.wrRet, 3)] s)) ∧
    (s.rd (Reg.STREAM_BUSY n.val) = 0 → Yields i s
      (Wrote [(Reg.STREAM_KEY n.val, key.toNat), (Reg.STREAM_CTR n.val, ctr.toNat), (Reg.STREAM_OWNER n.val, owner.toNat),
        (Reg.STREAM_EN n.val, b2n en), (In.wrRet, 0)] s)) := by
  intro i
  have hi : exec i s = .next (s.clocked (s.streamWrite n.val key.toNat ctr.toNat owner.toNat (b2n en))) := rfl
  refine ⟨fun hb => ?_, fun hb => ?_⟩
  · rw [State.streamWrite_busy hb] at hi
    exact yields_of_clocked ha hi (wrote_wr s (by decide))
  · rw [State.streamWrite_done hb] at hi
    exact yields_of_clocked ha hi (wrote_streamEntry s n key ctr owner en)

/-- SV_FAULT_EN_WRITE while a launch runs in the cluster's region, and while none does. -/
theorem svFaultEn_outcomes (ha : s.awake = true) (k : ClusterId) (idx tile : Bool) :
    ((s.seq (k.val / 8)).launch.isSome = true → exec (.svFaultEnWrite k idx tile) s = .next s) ∧
    ((s.seq (k.val / 8)).launch = none → Yields (.svFaultEnWrite k idx tile) s
      (Wrote [(Reg.SV_FAULT_EN_IDX k.val, b2n idx), (Reg.SV_FAULT_EN_TILE k.val, b2n tile)] s)) := by
  have hi : exec (.svFaultEnWrite k idx tile) s = .next (s.clocked (s.svFaultEn k.val (b2n idx) (b2n tile))) := rfl
  refine ⟨fun hl => ?_, fun hl => ?_⟩
  · rw [hi, State.svFaultEn_running hl, clocked_awake ha]
  · rw [State.svFaultEn_idle hl] at hi
    exact yields_of_clocked ha hi (wrote_svFaultEn s k.val idx tile)

/-- SH_FAULT_EN_WRITE likewise. -/
theorem shFaultEn_outcomes (ha : s.awake = true) (k : ClusterId) (tile comp cap : Bool) :
    ((s.seq (k.val / 8)).launch.isSome = true → exec (.shFaultEnWrite k tile comp cap) s = .next s) ∧
    ((s.seq (k.val / 8)).launch = none → Yields (.shFaultEnWrite k tile comp cap) s
      (Wrote [(Reg.SH_FAULT_EN_TILE k.val, b2n tile), (Reg.SH_FAULT_EN_COMP k.val, b2n comp),
        (Reg.SH_FAULT_EN_CAP k.val, b2n cap)] s)) := by
  have hi : exec (.shFaultEnWrite k tile comp cap) s = .next (s.clocked (s.shFaultEn k.val (b2n tile) (b2n comp) (b2n cap))) := rfl
  refine ⟨fun hl => ?_, fun hl => ?_⟩
  · rw [hi, State.shFaultEn_running hl, clocked_awake ha]
  · rw [State.shFaultEn_idle hl] at hi
    exact yields_of_clocked ha hi (wrote_shFaultEn s k.val tile comp cap)

/-- ARB_CNT_CLR of a die's block. -/
theorem arbCntClr_die (ha : s.awake = true) {b : Fin 5} (hb : b.val < 4) :
    Yields (.arbCntClr b) s (Cleared (State.arbDieCleared b.val) s) :=
  yields_cleared ha (State.arbDieCleared_rst b.val) (by
    have hi : exec (.arbCntClr b) s = .next (s.clocked (if b.val < 4 then s.arbDieClear b.val else s.arbPortClear)) := rfl
    rw [hi, if_pos hb, State.arbDieClear])

/-- COL_CNT_CLR clears the block's registers and the engine's event counts. -/
theorem colCntClr_cleared (ha : s.awake = true) :
    Yields .colCntClr s (Cleared (State.colCleared ++ (List.range 6).map In.colEv) s) :=
  yields_cleared ha (rst_append State.colCleared_rst State.colEv_rst) (by rw [State.zeros_append]; rfl)

/-- Settles O32, from the outcomes of each write by its checks and from the reset value 0 of every cleared field. -/
theorem countsAndTableWrites : Obligations.CountsAndTableWrites := by
  unfold Obligations.CountsAndTableWrites
  refine ⟨fun s r h valid kind acc persist cluster tenant offset extent ha => ?_, fun s ha => ?_, fun s ha => ?_⟩
  · simpa only [HEntry.bad_iff, b2n_eq_one, b2n_eq_zero, ne_eq, Bool.not_eq_false] using
      handleWrite_outcomes ha r h valid kind acc persist cluster tenant offset extent
  · exact ⟨streamWrite_outcomes ha, svFaultEn_outcomes ha, shFaultEn_outcomes ha⟩
  · exact ⟨fun k => yields_cleared ha (State.spCleared_rst k.val) rfl,
      fun k => yields_cleared ha (State.muCleared_rst k.val) rfl,
      fun k => yields_cleared ha (State.svCleared_rst k.val) rfl,
      fun k => yields_cleared ha (State.shCleared_rst k.val) rfl,
      fun d => yields_cleared ha (State.stdCleared_rst d.val) rfl,
      fun r => yields_cleared ha (State.sqCleared_rst r.val) rfl,
      fun d => yields_cleared ha (State.dmaCleared_rst d.val) rfl,
      fun k => yields_cleared ha (State.hbmCleared_rst k.val) rfl,
      fun d => yields_cleared ha (State.hcCleared_rst d.val) rfl,
      yields_cleared ha State.clkCleared_rst rfl,
      fun _ hb => arbCntClr_die ha hb,
      yields_cleared ha State.arbPortCleared_rst rfl,
      fun p => yields_cleared ha (State.ozlCleared_rst p.val) rfl,
      colCntClr_cleared ha,
      yields_cleared ha State.htpCleared_rst rfl,
      yields_cleared ha State.snpCleared_rst rfl,
      yields_cleared ha State.pwrCleared_rst rfl,
      yields_cleared ha State.hltCleared_rst rfl⟩

end Sys2Proof.Machine
end

section
/-!
SUPPORT. DBG_SCAN of a halted region (R573): what its Update-DR leaves in SQ_STAT. The shifted word has 16 bits for SQ_STAT, while its
field STATE has three (R311).
-/

namespace Sys2Proof.Machine

/-- Every bit field of a word of ones is all ones. -/
theorem bitsOf_allOnes {w hi lo : Nat} (h : hi < w) : bitsOf (BitVec.allOnes w).toNat hi lo = 2 ^ (hi + 1 - lo) - 1 := by
  refine Nat.eq_of_testBit_eq fun i => ?_
  rw [bitsOf, BitVec.toNat_allOnes, Nat.testBit_mod_two_pow, Nat.testBit_shiftRight, Nat.testBit_two_pow_sub_one,
    Nat.testBit_two_pow_sub_one, Bool.and_eq_left_iff_imp]
  simp only [decide_eq_true_eq]
  omega

namespace State

variable {s : State}

theorem hold_eq_zero_of_awake (ha : s.awake = true) : s.rd In.hold = 0 := by
  unfold awake at ha
  exact beq_iff_eq.mp (Bool.and_eq_true_iff.mp ha).1

/-- The TAP runs while the module is awake. -/
theorem standby_of_awake (ha : s.awake = true) : s.standby = true := by
  rw [standby, hold_eq_zero_of_awake ha, Nat.zero_testBit]
  rfl

/-- An awake module is not held by the TAP, so nothing is released. -/
theorem tapRelease_of_awake (ha : s.awake = true) : s.tapRelease = s := by
  rw [tapRelease, hold_eq_zero_of_awake ha, Nat.zero_testBit]
  rfl

@[simp] theorem rd_touchRegion (s : State) (f : Fld) (r : Nat) : (s.touchRegion r).rd f = s.rd f := by
  unfold touchRegion
  split <;> rfl

/-- Update-DR of a halted region leaves in STATE the three bits that it holds. -/
theorem rd_scanPut_state {r : Nat} (hh : s.dbgHalted r = true) (v : Nat) :
    (s.scanPut r v).rd (Reg.SQ_STAT_STATE r) = bitsOf v 530 528 := by
  have hne : (Reg.SQ_STAT_STATE r).bit ≠ (Reg.SQ_STAT_PHASE r).bit := by
    simp only [Reg.SQ_STAT_STATE, Reg.SQ_STAT_PHASE]
    omega
  rw [scanPut, hh, Bool.not_true, if_neg Bool.false_ne_true, rd_touchRegion, wrs_cons, wrs_cons, wrs_nil, rd_wr_ne _ _ hne, rd_wr_self]
  exact Nat.mod_mod_of_dvd _ (pow_dvd_pow 2 (by decide : 3 ≤ 4))

/-- A TAP load touches no region's STATE. -/
theorem rd_tapLoad_state (s : State) (ir out : Nat) {r : Nat} (hr : r < 32) :
    (s.tapLoad ir out).rd (Reg.SQ_STAT_STATE r) = s.rd (Reg.SQ_STAT_STATE r) := by
  refine rd_wrs_ne _ _ (List.forall_mem_cons.mpr ⟨?_, List.forall_mem_singleton.mpr ?_⟩)
  all_goals
    simp only [Reg.SQ_STAT_STATE, Reg.regionB, In.tapIr, In.tapOut, In.fld, Reg.intB]
    omega

/-- DBG_SCAN with debug unlocked and the region that DBG_CTL names halted: bit 531 of the shifted word is lost. -/
theorem rd_dbgScan_state (ha : s.awake = true) (hu : s.unlocked = true) (hh : s.dbgHalted (s.rd Reg.DBG_CTL_SCAN_REGION) = true)
    (v : Nat) : (s.dbgScan v).rd (Reg.SQ_STAT_STATE (s.rd Reg.DBG_CTL_SCAN_REGION)) = bitsOf v 530 528 := by
  rw [dbgScan, standby_of_awake ha, tapRelease_of_awake ha]
  dsimp only
  rw [hu, ha, Bool.not_true, if_neg Bool.false_ne_true, Bool.and_self, Bool.not_true, if_neg Bool.false_ne_true,
    rd_tapLoad_state _ _ _ (rd_lt s Reg.DBG_CTL_SCAN_REGION), rd_scanPut_state hh]

/-- The block after reset with debug unlocked and region 0, which DBG_CTL names for the scan, halted. -/
def scanHalted : State := reset.wrs [(Reg.SEC_DBG_STAT_STATE, 1), (Reg.DBG_HALT_MASK, 1)]

theorem scanHalted_awake : scanHalted.awake = true := by decide

theorem scanHalted_unlocked : scanHalted.unlocked = true := by decide

theorem scanHalted_halted : scanHalted.dbgHalted (scanHalted.rd Reg.DBG_CTL_SCAN_REGION) = true := by decide

end State

/-- Refutes O59 at its clause on DBG_SCAN of a halted region, which has STATE read bits [531:528] of the shifted word after Update-DR.
STATE is three bits wide (R311): with all 544 bits shifted in as ones it reads 7, where the statement says 15. -/
theorem not_boundaryScanAndDebugPort : ¬ Obligations.BoundaryScanAndDebugPort := by
  unfold Obligations.BoundaryScanAndDebugPort
  rintro ⟨-, -, hdebug⟩
  obtain ⟨-, -, -, -, hscan, -⟩ := hdebug State.scanHalted false 0 0 (BitVec.allOnes 544) 0 0 0 0 0 0 State.scanHalted_awake (by decide)
  obtain ⟨t, hexec, -, -, -, hstate, -⟩ := hscan State.scanHalted_halted
  obtain rfl : State.scanHalted.dbgScan (BitVec.allOnes 544).toNat = t := Host.Outcome.next.inj hexec
  rw [State.rd_dbgScan_state State.scanHalted_awake State.scanHalted_unlocked State.scanHalted_halted,
    bitsOf_allOnes (by decide), bitsOf_allOnes (by decide)] at hstate
  exact absurd hstate (by decide : 2 ^ (530 + 1 - 528) - 1 ≠ 2 ^ (531 + 1 - 528) - 1)

end Sys2Proof.Machine
end
